-- ==== Sys2Proof/Word.lean ====
section
/-! DEFINITION. The word types of the CM384 and the sparse map that holds every large array of it. -/

namespace Sys2Proof

/-- A Yilac register or instruction word (R95, R98). -/
abbrev Word := BitVec 32

/-- One byte of a memory. -/
abbrev Byte := BitVec 8

/-- A register page value, at most 64 bits (R17). -/
abbrev Reg := BitVec 64

/-- A sparse map in one canonical form: keys strictly rising, no entry equal to what an unlisted key reads as
(`Machine.SMap.wf` of Machine/Map.lean). `SMap Byte` is the memory form `List Host.Cell`. -/
abbrev SMap (α : Type) := List (Nat × α)

end Sys2Proof
end

