-- ==== Sys2Proof/Syntax.lean ====
section
/-! DEFINITION. The commands of the CM384 block: one constructor for each row of spec/opcode_table.json, with the
operands that name the unit it acts on and what the world outside the block supplies at that moment. -/

namespace Sys2Proof

/-- One changed symbol of a stored codeword, found by the access that the command makes (R64): the store, the codeword
number in it, the symbol (0 to 63 data bytes, 64 to 71 check bytes) and the value XORed into it. -/
structure Upset where
  /-- `true`: barn memory; `false`: field memory, by physical tile. -/
  barn : Bool
  cw : Nat
  sym : Nat
  x : Byte
  deriving DecidableEq, Repr

/-- What the physical memories show to one command: symbols upset since they were stored, bin lines whose read finds a
parity error (R125), positions in the read-ahead buffers of codewords with a parity error (R203), and the codewords, by
store, at which an encoder receives a word with bad parity (R65, R297). (log 8: DESIGN CHOICE) -/
structure Env where
  ups : List Upset
  binPar : List Nat
  sinkPar : List Nat
  encField : List Nat
  encBarn : List Nat
  deriving DecidableEq, Repr

/-- No upset and no parity error. -/
def Env.none : Env := ⟨[], [], [], [], []⟩

/-- An operand, and what the physical memories show to its command. (log 8: DESIGN CHOICE) -/
structure Seen (α : Type) where
  val : α
  env : Env
  deriving DecidableEq, Repr

/-- One sampling of every die sensor, in °C (R451). -/
structure Readings where
  /-- The base die at each paddock, 0 to 15. -/
  base : List Nat
  /-- Field die `d` above paddock `p`, at place `8 p + d`. -/
  field : List Nat
  /-- Barn die `d` of stack `k`, at place `8 k + d` (R295). -/
  barn : List Nat
  deriving DecidableEq, Repr

/-- What a commit request on an HDM decoder holds (R381, R383). -/
structure HdmRequest where
  base : Nat
  size : Nat
  skip : Nat
  /-- Encoded interleave ways: 0 is one way, 1 is two. -/
  iw : Nat
  /-- Encoded granularity: 0 is 256 bytes, 6 is 16 KiB. -/
  ig : Nat
  lockOnCommit : Bool
  deriving DecidableEq, Repr

/-- The rate a host link trains to (R372). -/
inductive LinkRate where
  | below32 | gt32 | gt64
  deriving DecidableEq, Repr

/-- What resets one host port (R373). -/
inductive PortReset where
  | perst1 | hotReset | linkDown
  deriving DecidableEq, Repr

/-- The transport of an SPDM request (R446). -/
inductive Transport where
  | doe0 | mctp
  deriving DecidableEq, Repr

/-- A part of the tally tree below the ridge (R266). -/
inductive TallyPart where
  | node (p : Nat) | apex | leaf (t : Nat)
  deriving DecidableEq, Repr

/-- The check runs of a sampled step (R405, R408, R414). -/
inductive RunKind where
  | shadow | referee | again
  deriving DecidableEq, Repr

/-- What a check run reports when it ends (R404, R405): the signature of what it has written; or, where the hardware that
runs it has failed, another signature, a fault, or its loss. -/
inductive RunSignature where
  | own
  | sig (v : BitVec 64)
  | faulted (code pc : Nat)
  | lost
  deriving DecidableEq, Repr

/-- How an I3C controller assigns a dynamic address: SETDASA, to a target's static address, or ENTDAA (R492). -/
inductive I3cAssign where
  | setdasa (addr : BitVec 7)
  | entdaa
  deriving DecidableEq, Repr

/-- Why a sweep falls due (R420). -/
inductive SweepCause where
  | schedule | retry | request
  deriving DecidableEq, Repr

/-- The strap balls as sampled (R493), and which reference clocks are there (R490). -/
structure Straps where
  originX : Bool
  originY : Bool
  originZ : Bool
  i3cSa : BitVec 2
  testen : Bool
  refC : Bool
  refL : Bool
  refH0 : Bool
  refH1 : Bool
  deriving DecidableEq, Repr

/-- The fuse image (R474). -/
structure Fuses where
  grade : BitVec 4
  serial : BitVec 64
  minSvn : BitVec 32
  mkeyHash : BitVec 512
  dkeyHash : BitVec 512
  /-- Bit `l`: logical tile `l` is compute-enabled by fuse (R5). -/
  cen : BitVec 4096
  /-- Bit `n`: the compute logic of physical tile `n` passed test (R8). -/
  pcen : BitVec 4352
  deriving DecidableEq, Repr

/-- What the boot flash answers (R435): whether it is found, and the bytes of its two slots as far as they are given;
bytes beyond read 0xFF; and the device certificate chain. -/
structure FlashImage where
  found : Bool
  slotA : List Byte
  slotB : List Byte
  cert : List Byte
  deriving DecidableEq, Repr

/-- The commands. (log 5: DESIGN CHOICE, 84: DESIGN CHOICE) -/
inductive Instr where
  -- Yilac arithmetic (R99)
  /-- ADD (R99). Yilac ADD writes ra + rb to rd. -/
  | add (t : Nat) (rd ra rb : BitVec 5)
  /-- SUB (R99). Yilac SUB writes ra - rb to rd. -/
  | sub (t : Nat) (rd ra rb : BitVec 5)
  /-- AND (R99). Yilac AND writes the bitwise and of ra and rb to rd. -/
  | andR (t : Nat) (rd ra rb : BitVec 5)
  /-- OR (R99). Yilac OR writes the bitwise or of ra and rb to rd. -/
  | orR (t : Nat) (rd ra rb : BitVec 5)
  /-- XOR (R99). Yilac XOR writes the bitwise xor of ra and rb to rd. -/
  | xorR (t : Nat) (rd ra rb : BitVec 5)
  /-- SLL (R99). Yilac SLL shifts ra left by rb[4:0]. -/
  | sll (t : Nat) (rd ra rb : BitVec 5)
  /-- SRL (R99). Yilac SRL shifts ra right by rb[4:0] with zero fill. -/
  | srl (t : Nat) (rd ra rb : BitVec 5)
  /-- SRA (R99). Yilac SRA shifts ra right by rb[4:0] with sign fill. -/
  | sra (t : Nat) (rd ra rb : BitVec 5)
  /-- SLT (R99). Yilac SLT sets rd to 1 when ra < rb signed, else 0. -/
  | slt (t : Nat) (rd ra rb : BitVec 5)
  /-- SLTU (R99). Yilac SLTU sets rd to 1 when ra < rb unsigned, else 0. -/
  | sltu (t : Nat) (rd ra rb : BitVec 5)
  /-- MIN (R99). Yilac MIN writes the signed minimum of ra and rb. -/
  | min (t : Nat) (rd ra rb : BitVec 5)
  /-- MAX (R99). Yilac MAX writes the signed maximum of ra and rb. -/
  | max (t : Nat) (rd ra rb : BitVec 5)
  /-- MINU (R99). Yilac MINU writes the unsigned minimum of ra and rb. -/
  | minu (t : Nat) (rd ra rb : BitVec 5)
  /-- MAXU (R99). Yilac MAXU writes the unsigned maximum of ra and rb. -/
  | maxu (t : Nat) (rd ra rb : BitVec 5)
  /-- MUL (R99). Yilac MUL writes the low 32 bits of ra x rb. -/
  | mul (t : Nat) (rd ra rb : BitVec 5)
  /-- MULH (R99). Yilac MULH writes the high 32 bits of the signed product. -/
  | mulh (t : Nat) (rd ra rb : BitVec 5)
  /-- MULHU (R99). Yilac MULHU writes the high 32 bits of the unsigned product. -/
  | mulhu (t : Nat) (rd ra rb : BitVec 5)
  /-- CLZ (R99). Yilac CLZ writes the number of leading zeros of ra. -/
  | clz (t : Nat) (rd ra : BitVec 5)
  /-- POPC (R99). Yilac POPC writes the number of ones in ra. -/
  | popc (t : Nat) (rd ra : BitVec 5)
  /-- ADDI (R99). Yilac ADDI adds a sign-extended immediate to ra. -/
  | addi (t : Nat) (rd ra : BitVec 5) (imm : BitVec 16)
  /-- ANDI (R99). Yilac ANDI ands ra with a zero-extended immediate. -/
  | andi (t : Nat) (rd ra : BitVec 5) (imm : BitVec 16)
  /-- ORI (R99). Yilac ORI ors ra with a zero-extended immediate. -/
  | ori (t : Nat) (rd ra : BitVec 5) (imm : BitVec 16)
  /-- XORI (R99). Yilac XORI xors ra with a zero-extended immediate. -/
  | xori (t : Nat) (rd ra : BitVec 5) (imm : BitVec 16)
  /-- SLTI (R99). Yilac SLTI compares ra with a sign-extended immediate, signed. -/
  | slti (t : Nat) (rd ra : BitVec 5) (imm : BitVec 16)
  /-- SLTIU (R99). Yilac SLTIU compares ra with a zero-extended immediate, unsigned. -/
  | sltiu (t : Nat) (rd ra : BitVec 5) (imm : BitVec 16)
  /-- SLLI (R99). Yilac SLLI shifts ra left by imm[4:0]. -/
  | slli (t : Nat) (rd ra : BitVec 5) (sh : BitVec 5)
  /-- SRLI (R99). Yilac SRLI shifts ra right logically by imm[4:0]. -/
  | srli (t : Nat) (rd ra : BitVec 5) (sh : BitVec 5)
  /-- SRAI (R99). Yilac SRAI shifts ra right arithmetically by imm[4:0]. -/
  | srai (t : Nat) (rd ra : BitVec 5) (sh : BitVec 5)
  /-- LUI (R99). Yilac LUI writes imm << 16 to rd. -/
  | lui (t : Nat) (rd : BitVec 5) (imm : BitVec 16)
  -- Yilac loads and stores (R96, R97); `bad` says that the read finds a parity error (R125, R131)
  /-- LDW (R96). Yilac LDW loads a word from the bin or crib. -/
  | ldw (t : Nat) (rd ra : BitVec 5) (imm : BitVec 16) (bad : Bool)
  /-- LDH (R96). Yilac LDH loads a sign-extended halfword. -/
  | ldh (t : Nat) (rd ra : BitVec 5) (imm : BitVec 16) (bad : Bool)
  /-- LDHU (R96). Yilac LDHU loads a zero-extended halfword. -/
  | ldhu (t : Nat) (rd ra : BitVec 5) (imm : BitVec 16) (bad : Bool)
  /-- LDB (R96). Yilac LDB loads a sign-extended byte. -/
  | ldb (t : Nat) (rd ra : BitVec 5) (imm : BitVec 16) (bad : Bool)
  /-- LDBU (R96). Yilac LDBU loads a zero-extended byte. -/
  | ldbu (t : Nat) (rd ra : BitVec 5) (imm : BitVec 16) (bad : Bool)
  /-- STW (R96). Yilac STW stores a word to the bin (through the store buffer) or crib. -/
  | stw (t : Nat) (rb ra : BitVec 5) (off : BitVec 16)
  /-- STH (R96). Yilac STH stores a halfword. -/
  | sth (t : Nat) (rb ra : BitVec 5) (off : BitVec 16) (bad : Bool)
  /-- STB (R96). Yilac STB stores a byte. -/
  | stb (t : Nat) (rb ra : BitVec 5) (off : BitVec 16) (bad : Bool)
  -- Yilac control flow (R100, R103)
  /-- BEQ (R100). Yilac BEQ branches when ra equals rb. -/
  | beq (t : Nat) (ra rb : BitVec 5) (off : BitVec 16)
  /-- BNE (R100). Yilac BNE branches when ra differs from rb. -/
  | bne (t : Nat) (ra rb : BitVec 5) (off : BitVec 16)
  /-- BLT (R100). Yilac BLT branches when ra < rb signed. -/
  | blt (t : Nat) (ra rb : BitVec 5) (off : BitVec 16)
  /-- BGE (R100). Yilac BGE branches when ra >= rb signed. -/
  | bge (t : Nat) (ra rb : BitVec 5) (off : BitVec 16)
  /-- BLTU (R100). Yilac BLTU branches when ra < rb unsigned. -/
  | bltu (t : Nat) (ra rb : BitVec 5) (off : BitVec 16)
  /-- BGEU (R100). Yilac BGEU branches when ra >= rb unsigned. -/
  | bgeu (t : Nat) (ra rb : BitVec 5) (off : BitVec 16)
  /-- J (R100). Yilac J jumps PC-relative and disarms loop units whose body the target leaves. -/
  | j (t : Nat) (off : BitVec 26)
  /-- JAL (R100). Yilac JAL jumps and links into g31 without disarming loops. -/
  | jal (t : Nat) (off : BitVec 26)
  /-- JALR (R100). Yilac JALR jumps to ra and links into rd. -/
  | jalr (t : Nat) (rd ra : BitVec 5)
  /-- LOOP (R103). Yilac LOOP arms hardware loop unit k or skips a zero-count body. -/
  | loop (t : Nat) (k : BitVec 2) (m : BitVec 1) (cnt : BitVec 11) (body : BitVec 12)
  -- Yilac tile state, engine issue and system (R101, R109, R127)
  /-- MFTS (R127). Yilac MFTS reads a tile state register into rd. -/
  | mfts (t : Nat) (rd : BitVec 5) (num : BitVec 16)
  /-- MTTS (R127). Yilac MTTS writes a RW tile state register. -/
  | mtts (t : Nat) (ra : BitVec 5) (num : BitVec 16)
  /-- ENQ (R112). Yilac ENQ checks a 64-byte descriptor and copies it into an engine queue, stalling while the queue is full. -/
  | enq (t : Nat) (q : BitVec 3) (ra : BitVec 5) (tag : BitVec 16) (bad : Bool)
  /-- ENQ_STALL_END (R113). A core stalled at ENQ on a full queue completes the ENQ once an entry frees. -/
  | enqStallEnd (t : Nat)
  /-- WAITQ (R99). Yilac WAITQ waits until every earlier entry of the masked queues has completed. -/
  | waitq (t : Nat) (mask : BitVec 6)
  /-- WAITQ_SATISFIED (R99). A core waiting at WAITQ resumes when the last awaited entry completes. -/
  | waitqSatisfied (t : Nat)
  /-- COMMIT (R101). Yilac COMMIT waits for all queues to drain and presents the step to the commit gate. -/
  | commit (t : Nat)
  /-- HALT (R101). Yilac HALT stops the core for good, or faults UNCOMMITTED. -/
  | halt (t : Nat)
  /-- FAULT (R99). Yilac FAULT raises USER with its immediate. -/
  | faultI (t : Nat) (imm : BitVec 16)
  /-- TRACE (R101). Yilac TRACE writes a trace marker outside service mode. -/
  | trace (t : Nat) (imm : BitVec 16)
  /-- ILLEGAL_INSTR (R99). Executing an undefined or malformed instruction word faults ILLEGAL_INSTR. -/
  | illegalInstr (t : Nat) (bad : Bool)
  -- Engine queues (R113, R114)
  /-- ENTRY_START (R113). An engine queue starts its next entry once DEPS and any lattice ownership allow it. -/
  | entryStart (t q : Nat)
  /-- ENTRY_COMPLETE (R114). An engine entry completes once its reads are performed and its writes performed, accepted or staged, freeing its queue place. -/
  | entryComplete (t q : Nat)
  /-- PILLAR_STREAM_READ (R117). A pillar stream READ entry reads runs of own-pillar codewords into a sink. -/
  | pillarStreamRead (t : Nat) (env : Env)
  /-- STREAM_MM (R185). A tensor STREAM_MM entry multiplies bin activations by weights streamed from sink 0. -/
  | streamMm (t : Nat) (env : Env)
  /-- BLOCK_MM (R192). A tensor BLOCK_MM entry multiplies bin operands in 16-row strips. -/
  | blockMm (t : Nat) (env : Env)
  /-- EW (R214). A vector EW entry computes an element-wise operation over a tile. -/
  | ew (t : Nat) (env : Env)
  /-- SCAN (R219). A vector SCAN entry computes a segmented prefix over the tile. -/
  | scan (t : Nat) (env : Env)
  /-- REDUCE (R222). A vector REDUCE entry reduces rows or lanes by a fixed tree or in row order. -/
  | reduce (t : Nat) (env : Env)
  /-- CONVERT (R223). A vector CONVERT entry converts elements to another format, including MX blocks. -/
  | convert (t : Nat) (env : Env)
  /-- ATTN (R228). A vector ATTN entry runs online softmax over key-value records from sink 1 or the bin. -/
  | attn (t : Nat) (env : Env)
  /-- SM_MERGE (R230). A vector SM_MERGE entry combines two softmax states. -/
  | smMerge (t : Nat) (env : Env)
  /-- SM_FINAL (R231). A vector SM_FINAL entry writes acc divided by l. -/
  | smFinal (t : Nat) (env : Env)
  /-- COPY (R242). A copy engine COPY entry moves a strided tensor between the bin and a far side. -/
  | copy (t : Nat) (env : Env)
  /-- PERMUTE (R245). A copy engine PERMUTE entry moves a tensor with permuted axes, through the lattice when axis 0 moves. -/
  | permute (t : Nat) (env : Env)
  /-- GATHER (R260). A cart GATHER entry checks its index tensor and reads far elements into the bin. -/
  | gather (t : Nat) (env : Env)
  /-- SCATTER (R260). A cart SCATTER entry checks its index tensor and writes bin elements to far places. -/
  | scatter (t : Nat) (env : Env)
  -- Sync queue (R276)
  /-- ARRIVE (R271). A sync ARRIVE entry waits for its previous release, then records an arrival in the commit gate. -/
  | arrive (t : Nat)
  /-- WAIT_TALLY (R273). A sync WAIT_TALLY entry waits until the leaf's released epoch reaches its target. -/
  | waitTally (t : Nat)
  /-- FLAG_ADD (R283). A sync FLAG_ADD entry records a flag update in the commit gate. -/
  | flagAdd (t : Nat)
  /-- FLAG_WAIT (R284). A sync FLAG_WAIT entry registers with flag memory and waits for the flag to reach VALUE. -/
  | flagWait (t : Nat)
  /-- SYNC_TIMEOUT (R278). A sync entry whose wait reaches its TIMEOUT limit ends with TIMEOUT. -/
  | syncTimeout (t : Nat)
  -- Commit gate and staging (R39, R252 to R255); `src` names the sender
  /-- GATE_RELEASE (R39). The commit gate opens: it sends commit messages, then after acknowledgements the held arrivals, flag updates, completion, and advances the step epoch. -/
  | gateRelease (t : Nat)
  /-- GATE_ABORT (R41). An abort reaching a commit gate discards the held items and the step's staged remote writes. -/
  | gateAbort (t : Nat)
  /-- REMOTE_WRITE_STAGE (R252). A remote write line arrives at a receiver and is placed in its staging area, or waits for room. -/
  | remoteWriteStage (t : Nat) (src : Nat)
  /-- STAGE_ROOM_FREE (R255). A remote write waiting at a full receiver is placed once staging room frees. -/
  | stageRoomFree (t : Nat)
  /-- STAGE_FULL (R255). A remote write that has waited 2^20 TCLK for staging room faults the sender. -/
  | stageFull (t : Nat) (src : Nat)
  /-- STAGE_COMMIT (R253). A receiver applies a sender's staged lines of a released step in arrival order and acknowledges. -/
  | stageCommit (t : Nat) (src : Nat) (env : Env)
  /-- STAGE_ABORT (R253). A receiver discards an aborted sender step's staged lines and frees their room. -/
  | stageAbort (t : Nat) (src : Nat)
  /-- STAGE_ACK (R253). A commit acknowledgement reaches the sender's gate and is counted. -/
  | stageAck (t : Nat) (src : Nat)
  -- Dispatch (R137 to R175); `h` is the head the register write comes through
  /-- DOORBELL_WRITE (R28). A write to SQ_PROD announces sheaves; out-of-range values are ignored and logged DOORBELL_RANGE. -/
  | doorbellWrite (h q : Nat) (v : BitVec 32)
  /-- CQ_HEAD_WRITE (R142). A write to CQ_HEAD frees completion slots, or is ignored if ahead of CQ_INDEX. -/
  | cqHeadWrite (h q : Nat) (v : BitVec 32)
  /-- QUEUE_ENABLE (R138). Setting QCTRL.EN enables a queue only when its ring and status placement are valid. -/
  | queueEnable (h q : Nat) (v : BitVec 32)
  /-- QUEUE_DISABLE (R143). Clearing QCTRL.EN stops the dispatcher taking sheaves from the queue. -/
  | queueDisable (h q : Nat) (v : BitVec 32)
  /-- QUEUE_RESET (R140). QCTRL.RESET zeroes the queue indices and rewrites the status line when no sheaf is incomplete. -/
  | queueReset (h q : Nat) (v : BitVec 32)
  /-- SHEAF_TAKE (R149). The dispatcher takes an eligible sheaf in rotation, checks it and either rejects it or forms, loads and starts the gang. -/
  | sheafTake (q : Nat) (env : Env)
  /-- SHEAF_COMPLETE (R154). A sheaf completes when every gang tile has halted and its gate opened, or the gang faulted or was reset. -/
  | sheafComplete (g : Nat) (env : Env)
  /-- GANG_RESET (R172). A DISPATCH.GANG_RESET write with GO resets a live gang's tiles, tallies and flags and completes its sheaf RESET. -/
  | gangReset (h : Nat) (v : BitVec 32)
  /-- FLOG_ENABLE (R171). Setting FLOG_CTRL.EN enables the fault log only when it lies aligned in barn memory. -/
  | flogEnable (h : Nat) (v : BitVec 32)
  /-- TRACE_RECORD (R174). A traced event writes a 32-byte trace record, waiting or dropping when the ring is full by trace mode. -/
  | traceRecord
  /-- TRACE_ENABLE (R475). Setting TRACE.CTRL.EN enables the trace ring only when it lies aligned in barn memory. -/
  | traceEnable (h : Nat) (v : BitVec 32)
  /-- TRACE_RESTART (R475). TRACE.CTRL.RESTART zeroes the trace ring indices while EN is clear. -/
  | traceRestart (h : Nat) (v : BitVec 32)
  /-- TILE_RESET (R134). A TILE.CTRL.RESET write resets a tile not in a live gang or place, else logs TILE_BUSY. -/
  | tileReset (h t : Nat) (v : BitVec 32)
  -- Paddock modes, pillars, refresh and gleaner (R68 to R89); `t` is a physical tile, `b` a bank
  /-- MODE_SELECT (R75). A write to PADDOCK.MODE.SEL starts a mode change, or logs MODE_BUSY while a live gang uses the paddock. -/
  | modeSelect (h p : Nat) (v : BitVec 32)
  /-- MODE_SWITCH_DONE (R76). After admitted accesses finish, the paddock's pillar controllers switch mode and MODE.CUR shows it. -/
  | modeSwitchDone (p : Nat)
  /-- SLOT_ADMIT (R77). At a slot beat the pillar controller admits the oldest host or mesh queue entry. -/
  | slotAdmit (t : Nat)
  /-- PILLAR_ACCESS_DONE (R79). An admitted host or mesh pillar access completes its beats and returns data or acceptance. -/
  | pillarAccessDone (t : Nat) (env : Env)
  /-- REFRESH_DUE (R80). A bank's refresh falls due every tREFI and is issued when the bank is idle or owed. -/
  | refreshDue (t b : Nat)
  /-- FORCED_REFRESH (R83). A ninth owed refresh forces a refresh in the bank at the next legal beat boundary. -/
  | forcedRefresh (t b : Nat)
  /-- GLEAN_VISIT (R86). A gleaner visit falls due and scrubs one row's codewords with conditional write-back. -/
  | gleanVisit (t : Nat) (env : Env)
  /-- GLEAN_ESCALATE (R87). A gleaner visit waiting 2^20 cycles runs as an admitted access. -/
  | gleanEscalate (t : Nat)
  /-- BEAT_COUNTER_WRAP (R55). A pillar beat counter passing 2^48 - 1 wraps and sets WRAP. -/
  | beatCounterWrap (t : Nat)
  /-- CYCLE_COUNTER_WRAP (R54). A tile cycle counter wraps to zero without indication. -/
  | cycleCounterWrap (t : Nat)
  /-- TEMP_SAMPLE (R451). Every 100 us the steward reads every die sensor and applies refresh, alert and trip thresholds. -/
  | tempSample (r : Readings)
  -- CXL.mem and host ports (R372 to R385)
  /-- MEM_RD (R379). A CXL.mem MemRd reads one 64-byte codeword. -/
  | memRd (h tag : Nat) (a : BitVec 64)
  /-- MEM_RD_DATA (R379). A CXL.mem MemRdData reads one 64-byte codeword. -/
  | memRdData (h tag : Nat) (a : BitVec 64)
  /-- MEM_SPEC_RD (R379). A CXL.mem MemSpecRd is dropped without response. -/
  | memSpecRd (h tag : Nat) (a : BitVec 64)
  /-- MEM_INV (R379). A CXL.mem MemInv is answered Cmp with no memory access. -/
  | memInv (h tag : Nat) (a : BitVec 64)
  /-- MEM_INV_NT (R379). A CXL.mem MemInvNT is answered Cmp with no memory access. -/
  | memInvNt (h tag : Nat) (a : BitVec 64)
  /-- MEM_CLN_EVCT (R379). A CXL.mem MemClnEvct is answered Cmp with no memory access. -/
  | memClnEvct (h tag : Nat) (a : BitVec 64)
  /-- MEM_WR (R379). A CXL.mem MemWr writes a whole codeword, blighting it if poisoned. -/
  | memWr (h tag : Nat) (a : BitVec 64) (data : BitVec 512) (poison bad : Bool)
  /-- MEM_WR_PTL (R379). A CXL.mem MemWrPtl read-modify-writes the enabled bytes. -/
  | memWrPtl (h tag : Nat) (a : BitVec 64) (data : BitVec 512) (be : BitVec 64) (poison bad : Bool)
  /-- CXL_PROTO (R379). An unsupported CXL.mem opcode is not performed and is logged CXL_PROTO. -/
  | cxlProto (h tag : Nat) (opcode : BitVec 4)
  /-- HOST_MEM_RESPONSE (R386). A host memory access completes and its data, with Poison if blighted, or Cmp is returned. -/
  | hostMemResponse (h : Nat)
  /-- HOST_REQUEST_AGE (R310). A host or ridge barn request waiting 1 us becomes a panic request. -/
  | hostRequestAge (c : Nat) (lane : Nat) (i : Nat)
  /-- HDM_COMMIT (R383). A commit request on an HDM decoder commits it or reports Error Not Committed. -/
  | hdmCommit (h d : Nat) (r : HdmRequest)
  /-- HOST_LINK_UP (R372). A host link finishing training enables CXL.mem only at 64 or 32 GT/s and x16 or x8. -/
  | hostLinkUp (h : Nat) (rate : LinkRate) (width : Nat) (flit256 : Bool)
  /-- HOST_PORT_RESET (R373). PERST# on H1, a hot reset or a link down resets only that port. -/
  | hostPortReset (h : Nat) (why : PortReset)
  /-- FLR (R368). A function level reset resets the port's CXL.io state and MSI-X settings only. -/
  | flr (h : Nat)
  /-- MSIX_UNMASK (R394). Unmasking a vector with its pending bit set sends the message. -/
  | msixUnmask (h n : Nat) (v : BitVec 32)
  -- Mailbox commands (R389)
  /-- GET_EVENT_RECORDS (R389). Mailbox Get Event Records returns event log records. -/
  | getEventRecords (h : Nat) (log : BitVec 8)
  /-- CLEAR_EVENT_RECORDS (R390). Mailbox Clear Event Records clears records for both heads. -/
  | clearEventRecords (h : Nat) (log : BitVec 8) (all : Bool) (handles : List (BitVec 16))
  /-- GET_EVENT_INTERRUPT_POLICY (R389). Mailbox Get Event Interrupt Policy returns the policy. -/
  | getEventInterruptPolicy (h : Nat)
  /-- SET_EVENT_INTERRUPT_POLICY (R389). Mailbox Set Event Interrupt Policy selects MSI-X on vector 69. -/
  | setEventInterruptPolicy (h : Nat) (policy : List Byte)
  /-- GET_SUPPORTED_LOGS (R389). Mailbox Get Supported Logs lists the Command Effects Log. -/
  | getSupportedLogs (h : Nat)
  /-- GET_LOG (R389). Mailbox Get Log returns the Command Effects Log. -/
  | getLog (h : Nat) (uuid : BitVec 128) (offset length : BitVec 32)
  /-- IDENTIFY_MEMORY_DEVICE (R389). Mailbox Identify Memory Device reports 384 GiB volatile. -/
  | identifyMemoryDevice (h : Nat)
  /-- GET_PARTITION_INFO (R389). Mailbox Get Partition Info reports all capacity volatile. -/
  | getPartitionInfo (h : Nat)
  /-- GET_HEALTH_INFO (R389). Mailbox Get Health Info reports the hottest die temperature. -/
  | getHealthInfo (h : Nat)
  /-- GET_ALERT_CONFIGURATION (R389). Mailbox Get Alert Configuration returns the alert settings. -/
  | getAlertConfiguration (h : Nat)
  /-- SET_ALERT_CONFIGURATION (R389). Mailbox Set Alert Configuration sets the alert settings. -/
  | setAlertConfiguration (h : Nat) (cfg : List Byte)
  /-- INJECT_POISON (R389). Mailbox Inject Poison rewrites the codeword at a DPA as a clean blight pattern. -/
  | injectPoison (h : Nat) (dpa : BitVec 64) (env : Env)
  /-- CLEAR_POISON (R389). Mailbox Clear Poison writes the given 64 bytes as a whole codeword. -/
  | clearPoison (h : Nat) (dpa : BitVec 64) (data : Seen (BitVec 512))
  /-- MAILBOX_UNSUPPORTED (R389). Any unlisted or unsupported mailbox opcode returns Unsupported. -/
  | mailboxUnsupported (h : Nat) (opcode : BitVec 16)
  -- DOE, CDAT and SPDM (R391, R392, R446)
  /-- DOE_DISCOVERY (R391). DOE Discovery lists the protocols of the head's DOE mailbox. -/
  | doeDiscovery (h : Nat) (index : BitVec 8)
  /-- TABLE_ACCESS (R392). CXL Table Access returns the module's CDAT. -/
  | tableAccess (h : Nat) (entry : BitVec 16)
  /-- GET_VERSION (R446). SPDM GET_VERSION reports 1.3. -/
  | getVersion (tr : Transport)
  /-- GET_CAPABILITIES (R446). SPDM GET_CAPABILITIES reports certificate, challenge and signed measurement capability. -/
  | getCapabilities (tr : Transport) (payload : List Byte)
  /-- NEGOTIATE_ALGORITHMS (R446). SPDM NEGOTIATE_ALGORITHMS settles on P-521 and SHA-512. -/
  | negotiateAlgorithms (tr : Transport) (payload : List Byte)
  /-- GET_DIGESTS (R446). SPDM GET_DIGESTS returns the slot 0 digest, or an identity-absent error once opened. -/
  | getDigests (tr : Transport)
  /-- GET_CERTIFICATE (R446). SPDM GET_CERTIFICATE returns the slot 0 chain, or an error once opened. -/
  | getCertificate (tr : Transport) (slot : BitVec 4) (offset length : BitVec 16)
  /-- CHALLENGE (R446). SPDM CHALLENGE is signed with the identity key, or errors once opened. -/
  | challenge (tr : Transport) (slot : BitVec 4) (summary : BitVec 8) (nonce : BitVec 256)
  /-- GET_MEASUREMENTS (R446). SPDM GET_MEASUREMENTS returns M0 to M7, optionally signed. -/
  | getMeasurements (tr : Transport) (signed : Bool) (index : BitVec 8) (slot : BitVec 4) (nonce : BitVec 256)
  /-- SPDM_UNSUPPORTED (R446). Any other SPDM request returns ERROR UnsupportedRequest. -/
  | spdmUnsupported (tr : Transport) (code : BitVec 8)
  -- Tallies and flags (R268 to R291); `p` is a TALLY page, 16 the apex
  /-- TALLY_BIND (R268). A T_CFG write setting BOUND binds a paddock or device tally to a gang or logs TALLY_CONFIG. -/
  | tallyBind (h p n : Nat) (v : BitVec 32)
  /-- TALLY_UNBIND (R269). A T_CFG write clearing BOUND unbinds an idle tally or logs TALLY_BUSY. -/
  | tallyUnbind (h p n : Nat) (v : BitVec 32)
  /-- CREW_TALLY_BIND (R289). A C_CFG write setting BOUND binds a crew tally part or logs TALLY_CONFIG. -/
  | crewTallyBind (h n : Nat) (v : BitVec 64)
  /-- TALLY_ARRIVAL (R272). An arrival reaches a tally part, which counts it and releases or sends one arrival upward. -/
  | tallyArrival (p : Nat) (id : BitVec 8)
  /-- TALLY_RELEASE (R272). A release reaches a part or leaf, which takes its epoch, passes it on and wakes waiters. -/
  | tallyRelease (p : TallyPart) (id : BitVec 8)
  /-- TALLY_WITHDRAWAL (R285). A participant withdrawal lowers expected counts and makes the tally lost, waking waiters. -/
  | tallyWithdrawal (p : Nat) (id : BitVec 8)
  /-- FLAG_UPDATE (R283). Flag memory applies an update from its owner and wakes satisfied waiters, or discards a stray. -/
  | flagUpdate (f : Nat)
  /-- FLAG_WRITE (R282). A host write of a FLAG register sets a host-owned unfrozen flag or logs FLAG_STRAY. -/
  | flagWrite (h f : Nat) (v : BitVec 64)
  /-- FLAG_OWNER_WRITE (R282). A FLAG_OWNER write changes a flag's owner and clears FROZEN. -/
  | flagOwnerWrite (h f : Nat) (v : BitVec 32)
  -- Tithe, granary, fences and sweeps (R396 to R433)
  /-- TITHE_GRANT (R399). A primary starting a sampled step is granted a shadow place or runs unchecked. -/
  | titheGrant (t : Nat)
  /-- HOLD_SEND (R400). The primary sends start state, lines and read data to the hold as the step proceeds. -/
  | holdSend (t : Nat)
  /-- TITHE_RUN_START (R405). A shadow, referee or repeat run starts in check mode once its hold is complete. -/
  | titheRunStart (t : Nat) (run : RunKind)
  /-- TITHE_RUN_END (R407). A check run ends with its signature, which is compared at the primary's gate. -/
  | titheRunEnd (t : Nat) (run : RunKind) (sig : RunSignature) (env : Env)
  /-- REFEREE_GRANT (R408). On disagreement a referee place is granted, or the verdict waits for one. -/
  | refereeGrant (t : Seen Nat)
  /-- STEP_REPLAY (R425). A wrong STEP-REPLAY primary rolls back and re-executes the step from the hold. -/
  | stepReplay (t : Nat) (repeatSig : RunSignature) (env : Env)
  /-- TITHE_STALL (R409). A gate held 2^26 TCLK without a verdict releases the step unchecked and logs TITHE_STALL. -/
  | titheStall (t : Nat)
  /-- GRANARY_SNAPSHOT_REQUEST (R428). TITHE.GRANARY OP 1 requests a snapshot at the end of the gang's current sheaf. -/
  | granarySnapshotRequest (h : Nat) (v : BitVec 32)
  /-- RESTORE (R429). TITHE.GRANARY OP 2 restores the newest valid set into a gang or logs GRANARY_INVALID. -/
  | restore (h : Nat) (v : BitVec 32) (env : Env)
  /-- CPER_ENABLE (R432). Setting CPER_CTRL.EN enables CPER export only when the ring lies aligned in barn memory. -/
  | cperEnable (h : Nat) (v : BitVec 32)
  /-- FENCE_REQUEST (R415). A FENCE.REQ write with GO fences a tile or pillar, or logs FENCE_BUSY or FENCE_RANGE. -/
  | fenceRequest (h : Nat) (v : BitVec 32)
  /-- FENCE_REMAP (R416). The steward fences a tile and, once its gang stops, copies the pillar and state to a spare and switches the map. -/
  | fenceRemap (env : Env)
  /-- SWEEP_START (R419). A sweep falls due by schedule, retry or GO and runs the sweep sequence on one paddock or skips it. -/
  | sweepStart (why : SweepCause) (now : BitVec 64)
  /-- SWEEP_REQUEST (R419). A TITHE.SWEEP write with GO schedules a paddock to be swept next. -/
  | sweepRequest (h : Nat) (v : BitVec 32)
  /-- SWEEP_DONE (R420). A sweep restores settings, bins and cribs and resumes the paddock's gangs. `marginal`: each tile
  struck, and whether its repeat passed. -/
  | sweepDone (marginal : List (Nat × Bool))
  -- Barn controllers (R302 to R321); `c` is a channel, `b` a bank
  /-- BARN_REQUEST_ACCEPT (R303). A barn controller accepts one request per BCLK from the head of a lane into bank or write queues. -/
  | barnRequestAccept (c : Nat) (env : Env)
  /-- BARN_READ_DONE (R306). A barn read is answered from the write queue or the DRAM with its classification. -/
  | barnReadDone (c b : Nat) (env : Env)
  /-- BARN_MERGE_READ_DONE (R305). A pending-merge write's merge read completes and the new bytes are merged. -/
  | barnMergeReadDone (c i : Nat) (env : Env)
  /-- BARN_WRITE_DRAIN (R308). The controller enters or leaves write drain by the WQ thresholds. -/
  | barnWriteDrain (c : Nat) (env : Env)
  /-- BARN_REFRESH_DUE (R314). A per-bank or all-bank barn refresh falls due and is issued when idle. -/
  | barnRefreshDue (c b : Nat)
  /-- BARN_FORCED_REFRESH (R315). A ninth owed barn refresh forces a refresh. -/
  | barnForcedRefresh (c b : Nat)
  /-- SELF_REFRESH_ENTRY (R316). A channel idle for IDLE_SR BCLK enters self-refresh. -/
  | selfRefreshEntry (c : Nat)
  /-- SELF_REFRESH_EXIT (R316). A request to a self-refreshing channel causes exit and is served tXS later. -/
  | selfRefreshExit (c : Nat)
  /-- BARN_SCRUB (R317). The patrol scrub reads and handles one barn codeword every INTERVAL BCLK. -/
  | barnScrub (c : Nat) (env : Env)
  /-- CORR_WINDOW_END (R321). A corrected-error window of 1,000,000 BCLK ends and the count restarts. -/
  | corrWindowEnd (c : Nat)
  /-- BANKHASH_WRITE (R299). A BANKHASH write sets a legal mask or is ignored and logs BANK_HASH. -/
  | bankhashWrite (h c i : Nat) (v : BitVec 32)
  -- Live changes, clocks and resets (R453 to R459, R476)
  /-- PADDOCK_RECAL (R453). Live change OP 1 recalibrates pillar-port timing of a paddock 16 pillars at a time. -/
  | paddockRecal
  /-- TILE_SWAP (R453). Live change OP 2 moves a logical tile to a spare, leaving the old tile a spare. -/
  | tileSwap (env : Env)
  /-- BARN_RETRAIN (R321). Live change OP 3 or BARN.TRAIN.GO retrains one barn channel, marking it DEAD on repeated failure. -/
  | barnRetrain (c : Nat) (ok1 ok2 : Bool)
  /-- RIDGE_RETRAIN (R364). Live change OP 4 or RIDGE.CTRL.RETRAIN drains and retrains one ridge link. -/
  | ridgeRetrain (p : Nat) (ok : Bool)
  /-- MANIFEST_STAGE (R456). Live change OP 5 checks a manifest image in barn and programs it into the inactive flash slot.
  `same`: what is read back from the flash is what was programmed. -/
  | manifestStage (env : Env) (same : Bool)
  /-- VF_SET (R455). Live change OP 6 changes a paddock's VDDT and TCLK to another operating point. -/
  | vfSet
  /-- UPKEEP_INVALID_OP (R460). An UPKEEP write with GO and OP 0 or 7 fails with UPKEEP_ARG. -/
  | upkeepInvalidOp (h : Nat) (v : BitVec 32)
  /-- UPKEEP_BUSY (R453). A GO while a live change runs is ignored and logs UPKEEP_BUSY. -/
  | upkeepBusy (h : Nat) (v : BitVec 32)
  /-- UPKEEP_DONE (R453). A live change ends, sets UPKEEP_STATUS, extends M7 and raises vector 70. -/
  | upkeepDone
  /-- UPKEEP_QUIESCE_TIMEOUT (R454). A gang not reaching a step boundary within 10 ms fails OP 2 or OP 6 with UPKEEP_TIMEOUT. -/
  | upkeepQuiesceTimeout
  /-- VR_SETTLE_TIMEOUT (R455). A regulator not settled within 1 ms fails VF_SET and restores, or starts a warm reset. -/
  | vrSettleTimeout (p : Nat)
  /-- VR_SETTLED (R486). A polled regulator reports its rail settled and the change proceeds. -/
  | vrSettled (p : Nat)
  /-- PLL_UNLOCK (R476). A PLL losing lock stops its domain's clock and logs PLL_UNLOCK. -/
  | pllUnlock (k : Nat)
  /-- PLL_RELOCK (R476). A PLL relocks and its domain's clock resumes. -/
  | pllRelock (k : Nat)
  /-- PLL_RELOCK_TIMEOUT (R476). A PLL not relocked within 1 ms starts a warm reset. -/
  | pllRelockTimeout (k : Nat)
  /-- WARM_RESET (R458). GLOBAL.RESET KIND 1 starts a warm-reset boot. -/
  | warmReset (h : Nat) (v : BitVec 32)
  /-- PADDOCK_RESET (R459). GLOBAL.RESET KIND 2 resets a paddock's gangs, tiles, staging and counters. -/
  | paddockReset (h : Nat) (v : BitVec 32)
  /-- RESET_BUSY (R458). A reset request during a warm reset is ignored and logs RESET_BUSY. -/
  | resetBusy (h : Nat) (v : BitVec 32)
  -- Power, reset pins and boot stages (R442 to R444, R487 to R495)
  /-- PWR_OK_RISE (R487). PWR_OK rising is a power-on reset and samples the straps. -/
  | pwrOkRise (straps : Straps)
  /-- PWR_OK_FALL (R489). PWR_OK falling stops the module and releases its outputs. -/
  | pwrOkFall
  /-- PERST0_ASSERT (R495). PERST# on H0 asserted abandons any boot and resets the module. -/
  | perst0Assert
  /-- PERST0_DEASSERT (R442). PERST# on H0 deasserting samples straps and starts a full boot. -/
  | perst0Deassert (straps : Straps)
  /-- BOOT_FUSE_SENSE (R442). Boot stage 1 locks MCLK, senses fuses and extends M0. -/
  | bootFuseSense (fuses : Fuses)
  /-- BOOT_LINK_START (R442). Boot stage 2 measures debug state, locks HCLK and starts host link training. -/
  | bootLinkStart
  /-- BOOT_SLOT_HEADERS (R440). Boot stage 3 discovers the flash and reads both slot headers. -/
  | bootSlotHeaders (flash : FlashImage)
  /-- BOOT_MANIFEST_READ (R441). Boot stage 4 reads and measures the chosen slot and derives the identity key. -/
  | bootManifestRead
  /-- BOOT_MANIFEST_VERIFY (R440). Boot stage 5 verifies the manifest, falling back to the other slot or stopping NO_MANIFEST. -/
  | bootManifestVerify
  /-- BOOT_APPLY (R442). Boot stage 6 applies REGWRITE, builds the fence map, sets operating points and starts ridge training. -/
  | bootApply
  /-- MANIFEST_WAIT_TIMEOUT (R444). A WAIT write entry not satisfied in 10 ms logs MANIFEST_APPLY and falls back or stops APPLY_FAIL. -/
  | manifestWaitTimeout
  /-- BOOT_BARN_TRAIN (R319). Boot stage 7 trains and initialises every barn channel, marking failures DEAD. -/
  | bootBarnTrain (failed : List Nat)
  /-- BOOT_BARN_ACTIVE (R442). Boot stage 8 sets Memory_Active for the barn range. -/
  | bootBarnActive
  /-- BOOT_PILLAR_CAL (R442). Boot stage 9 applies PILLARCAL, calibrates pillar ports and zeroes field memory. -/
  | bootPillarCal
  /-- BOOT_FIELD_READY (R442). Boot stage 10 starts gleaners, refresh and modes, sets field Memory_Active and opens dispatch. -/
  | bootFieldReady
  /-- FURROW_WALK_START (R355). Boot stage 11 begins the furrow walk; an origin sends its P-token. -/
  | furrowWalkStart
  /-- WALK_TIMEOUT (R357). No token or return within 500 ms ends the walk NO_ORIGIN. -/
  | walkTimeout
  -- TAP (R448, R449)
  /-- UNLOCK_NONCE (R449). TAP UNLOCK_NONCE shifts out a fresh nonce. -/
  | unlockNonce
  /-- UNLOCK (R449). TAP UNLOCK checks a token and opens the debug port after zeroising the identity key, or counts a failure. -/
  | unlock (token : List Byte)
  /-- EXTEST (R448). TAP EXTEST stops the module as a warm reset until the TAP is reset. -/
  | extest
  /-- CLAMP (R448). TAP CLAMP stops the module as a warm reset until the TAP is reset. -/
  | clamp
  /-- HIGHZ (R448). TAP HIGHZ stops the module as a warm reset until the TAP is reset. -/
  | highz
  /-- BYPASS (R448). TAP BYPASS selects the bypass register. -/
  | bypass (tdi : Bool)
  /-- IDCODE (R448). TAP IDCODE shifts out the device identifier. -/
  | idcode
  /-- SAMPLE_PRELOAD (R448). TAP SAMPLE/PRELOAD samples and preloads the boundary register. -/
  | samplePreload (preload : List Bool)
  /-- TAP_RESET (R495). TRST# or a TAP reset resets the TAP and, after EXTEST, CLAMP or HIGHZ, starts a warm-reset boot. -/
  | tapReset (trst : Bool)
  -- Ridge links (R325 to R337)
  /-- RIDGE_LINK_UP (R358). A ridge link finishing training sends LHELLO and joins after the coordinate check. -/
  | ridgeLinkUp (p : Nat)
  /-- DATA_FLIT_RECEIVE (R330). A received flit is accepted and delivered, or discarded with a NAK when it fails. -/
  | dataFlitReceive (p : Nat) (flit : List Byte) (fecOk : Bool)
  /-- NAK_RECEIVE (R330). A transmitter receiving a NAK resends every flit after ACKSEQ and counts a replay. -/
  | nakReceive (p : Nat) (ackseq : BitVec 12)
  /-- ACK_RECEIVE (R331). An ACKSEQ releases acknowledged flits from the replay buffer, or logs LINK_PROTO. -/
  | ackReceive (p : Nat) (ackseq : BitVec 12)
  /-- CREDIT_RETURN (R335). Cells returned in a link-control record restore credits on their VCs. -/
  | creditReturn (p vc : Nat) (cells : Nat)
  /-- IDLE_FLIT_TIMER (R329). A transmitter with nothing to send sends an IDLE flit at least every 256 ns. -/
  | idleFlitTimer (p : Nat)
  /-- ACK_TIMER (R332). 100 ns after an unacknowledged DATA flit was accepted the receiver sends an ACK record. -/
  | ackTimer (p : Nat)
  /-- NAK_REPEAT (R330). An owed NAK is repeated every 1 us. -/
  | nakRepeat (p : Nat)
  /-- LINK_DOWN (R333). Loss of alignment, 2 us without a flit or 16 replays take the link down and start failover. -/
  | linkDown (p : Nat)
  /-- RXSEQ_TIMEOUT (R361). No RXSEQ within 20 us discards unacknowledged packets and counts them. -/
  | rxseqTimeout (p : Nat)
  -- Ridge packets (R338 to R365); the packet is the oldest of virtual channel `vc` at port `p`
  /-- RWR (R348). A remote write packet is staged at the receiving tile or barn staging area and a WACK returned. -/
  | rwr (p vc : Nat)
  /-- RRD (R351). A remote read packet is performed as a mesh access and answered with RRSP. -/
  | rrd (p : Nat) (vc : Seen Nat)
  /-- RRSP (R353). A read reply delivers data to the reading tile, or faults it RIDGE_UNREACH. -/
  | rrsp (p vc : Nat)
  /-- WACK (R348). A write-placed reply is counted toward the sending entry's completion, or faults on STATUS 1. -/
  | wack (p vc : Nat)
  /-- RIDGE_COMMIT (R350). A COMMIT packet makes the receiver apply matching staged lines and return CACK. -/
  | ridgeCommit (p : Nat) (vc : Seen Nat)
  /-- RIDGE_ABORT (R350). An ABORT packet makes the receiver discard matching staged lines and return CACK. -/
  | ridgeAbort (p vc : Nat)
  /-- CACK (R350). A CACK is counted by the sender's gate as an acknowledgement. -/
  | cack (p vc : Nat)
  /-- TARRIVE (R352). A crew tally arrival packet is counted at a row, acre or estate part. -/
  | tarrive (p vc : Nat)
  /-- TRELEASE (R352). A crew tally release packet is adopted and passed down. -/
  | trelease (p vc : Nat)
  /-- TWITHDRAW (R286). A crew tally withdrawal packet lowers the expected count and makes the tally lost. -/
  | twithdraw (p vc : Nat)
  /-- TLOST (R286). A TLOST packet makes a crew tally lost at a part. -/
  | tlost (p vc : Nat)
  /-- FLAGADD (R352). A FLAGADD packet updates a crew-owned flag on the destination module. -/
  | flagadd (p vc : Nat)
  /-- LHELLO (R358). An LHELLO packet reports the peer's node and port for the cabling and coordinate checks. -/
  | lhello (p vc : Nat)
  /-- FURROW (R355). A furrow token gives the receiver its coordinate and is forwarded or completes the ring. -/
  | furrow (p vc : Nat)
  /-- FURROWEND (R356). A FURROWEND report makes the origin start the N-token or declare a chain. -/
  | furrowend (p vc : Nat)
  /-- RINGINFO (R355). A RINGINFO packet records the ring length, state and breaks. -/
  | ringinfo (p vc : Nat)
  /-- LINKDOWN (R360). A LINKDOWN packet records a break and changes routing, triggering bounces and holds. -/
  | linkdownPkt (p vc : Nat)
  /-- SEAL (R363). A SEAL travels to the break, is bounced, and on return releases the held class. -/
  | sealPkt (p vc : Nat)
  /-- PACKET_BAD (R340). A malformed packet is discarded at the first port, returning its cells. -/
  | packetBad (p vc : Nat)
  /-- RIDGE_TIMEOUT (R353). A reply awaited 2^24 TCLK faults the tile RIDGE_TIMEOUT. -/
  | ridgeTimeout (t q : Nat)
  /-- RIDGE_OVERRIDE (R359). A RIDGE.OVERRIDE write with GO replaces coordinates and ring lengths. -/
  | ridgeOverride (h : Nat) (v : BitVec 32)
  /-- STAGE_PURGE (R365). A RIDGE.STAGE_PURGE write with GO discards a node's staged lines. -/
  | stagePurge (h : Nat) (v : BitVec 32)
  /-- RIDGE_PORT_DISABLE (R366). Clearing RIDGE.CTRL.EN takes the link down as a planned retrain and keeps it down. -/
  | ridgePortDisable (h p : Nat) (v : BitVec 32)
  -- Register pages (R461 to R469)
  /-- QUIESCE_REQUEST (R467). Setting or clearing PAGE_CTRL.QREQ quiesces or resumes the page's block. -/
  | quiesceRequest (h a : Nat) (v : BitVec 32)
  /-- ERR_CLEAR (R465). Writing VALID to ERR_FIRST or ERR_NEXT clears the cause and releases any location register. -/
  | errClear (h a : Nat) (v : BitVec 32)
  /-- ERR_INJECT (R465). An ERR_INJECT write with GO logs CODE as an injected cause. -/
  | errInject (h a : Nat) (v : BitVec 32)
  /-- COUNTER_CLEAR (R469). A write of all ones to a counter field clears it; other writes do nothing. -/
  | counterClear (h a w : Nat) (v : BitVec 64)
  /-- UNMAPPED (R462). A BAR0 access to a reserved offset reads zero or is ignored and logs UNMAPPED. -/
  | unmapped (h a : Nat) (write : Bool)
  /-- ACCESS_WIDTH (R17). A BAR0 access of wrong width or alignment completes without effect and logs ACCESS_WIDTH. -/
  | accessWidth (h a w : Nat) (write : Bool)
  /-- REGISTER_WRITE (R17). A write to a register with no row of its own updates its fields, including the 64-bit half-write latch. -/
  | registerWrite (h a w : Nat) (v : BitVec 64)
  /-- RIDGE_PORT_ENABLE (R366). Writing RIDGE.CTRL.EN back to 1 lets a disabled ridge port train and carry traffic again. -/
  | ridgePortEnable (h p : Nat) (v : BitVec 32)
  /-- PERST1_DEASSERT (R495). PERST# on H1 deasserting lets H1 leave reset and start link training, unless PERST0# holds the module in reset. -/
  | perst1Deassert
  /-- SWEEP_QUIESCE_TIMEOUT (R422). When the gangs of a paddock under sweep have not stopped at step boundaries within 10 ms, the sweep is skipped, settings restored, gangs resumed and SWEEP_SKIPPED logged. -/
  | sweepQuiesceTimeout
  /-- DYNAMIC_ADDRESS_ASSIGNMENT (R492). An I3C SETDASA or ENTDAA command gives the module its dynamic I3C address, from static address 0x30 plus I3C_SA[1:0] or by arbitration. -/
  | dynamicAddressAssignment (a : BitVec 7) (how : I3cAssign)
  deriving DecidableEq, Repr

end Sys2Proof
end

