-- ==== Sys2Proof/Decode.lean ====
section
/-! DEFINITION. The Yilac instruction words (R98, R99): the encoder and the decoder of the Yilac rows, and the command
that a table word spells. No row of spec/opcode_table.json gives bits, so a table word spells no command. -/

namespace Sys2Proof

/-- The formats of R98, each from its fields. -/
def encR (fn : BitVec 11) (rd ra rb : BitVec 5) : Word := (0x01#6 ++ rd ++ ra ++ rb ++ fn).cast rfl
/-- Format I; formats M and B hold their two registers in the same places, in the order given. -/
def encI (op : BitVec 6) (a b : BitVec 5) (imm : BitVec 16) : Word := (op ++ a ++ b ++ imm).cast rfl
/-- Format J. -/
def encJ (op : BitVec 6) (off : BitVec 26) : Word := (op ++ off).cast rfl
/-- Format L. -/
def encL (k : BitVec 2) (m : BitVec 1) (cnt : BitVec 11) (body : BitVec 12) : Word := (0x1D#6 ++ k ++ m ++ cnt ++ body).cast rfl
/-- Format Q. -/
def encQ (q : BitVec 3) (ra : BitVec 5) (tag : BitVec 16) : Word := (0x20#6 ++ q ++ 0#2 ++ ra ++ tag).cast rfl
/-- Format S. -/
def encS (op : BitVec 6) (imm : BitVec 16) : Word := (op ++ 0#10 ++ imm).cast rfl

/-- The word of a Yilac row (R98, R99); none for the rows that are no instruction. -/
def encodeYilac : Instr → Option Word
  | .add _ rd ra rb => some (encR 0x000 rd ra rb)
  | .sub _ rd ra rb => some (encR 0x001 rd ra rb)
  | .andR _ rd ra rb => some (encR 0x002 rd ra rb)
  | .orR _ rd ra rb => some (encR 0x003 rd ra rb)
  | .xorR _ rd ra rb => some (encR 0x004 rd ra rb)
  | .sll _ rd ra rb => some (encR 0x005 rd ra rb)
  | .srl _ rd ra rb => some (encR 0x006 rd ra rb)
  | .sra _ rd ra rb => some (encR 0x007 rd ra rb)
  | .slt _ rd ra rb => some (encR 0x008 rd ra rb)
  | .sltu _ rd ra rb => some (encR 0x009 rd ra rb)
  | .min _ rd ra rb => some (encR 0x00A rd ra rb)
  | .max _ rd ra rb => some (encR 0x00B rd ra rb)
  | .minu _ rd ra rb => some (encR 0x00C rd ra rb)
  | .maxu _ rd ra rb => some (encR 0x00D rd ra rb)
  | .mul _ rd ra rb => some (encR 0x00E rd ra rb)
  | .mulh _ rd ra rb => some (encR 0x00F rd ra rb)
  | .mulhu _ rd ra rb => some (encR 0x010 rd ra rb)
  | .clz _ rd ra => some (encR 0x011 rd ra 0)
  | .popc _ rd ra => some (encR 0x012 rd ra 0)
  | .addi _ rd ra imm => some (encI 0x02 rd ra imm)
  | .andi _ rd ra imm => some (encI 0x03 rd ra imm)
  | .ori _ rd ra imm => some (encI 0x04 rd ra imm)
  | .xori _ rd ra imm => some (encI 0x05 rd ra imm)
  | .slti _ rd ra imm => some (encI 0x06 rd ra imm)
  | .sltiu _ rd ra imm => some (encI 0x07 rd ra imm)
  | .slli _ rd ra sh => some (encI 0x08 rd ra (sh.zeroExtend 16))
  | .srli _ rd ra sh => some (encI 0x09 rd ra (sh.zeroExtend 16))
  | .srai _ rd ra sh => some (encI 0x0A rd ra (sh.zeroExtend 16))
  | .lui _ rd imm => some (encI 0x0B rd 0 imm)
  | .ldw _ rd ra imm _ => some (encI 0x0C rd ra imm)
  | .ldh _ rd ra imm _ => some (encI 0x0D rd ra imm)
  | .ldhu _ rd ra imm _ => some (encI 0x0E rd ra imm)
  | .ldb _ rd ra imm _ => some (encI 0x0F rd ra imm)
  | .ldbu _ rd ra imm _ => some (encI 0x10 rd ra imm)
  | .stw _ rb ra off => some (encI 0x11 rb ra off)
  | .sth _ rb ra off _ => some (encI 0x12 rb ra off)
  | .stb _ rb ra off _ => some (encI 0x13 rb ra off)
  | .beq _ ra rb off => some (encI 0x14 ra rb off)
  | .bne _ ra rb off => some (encI 0x15 ra rb off)
  | .blt _ ra rb off => some (encI 0x16 ra rb off)
  | .bge _ ra rb off => some (encI 0x17 ra rb off)
  | .bltu _ ra rb off => some (encI 0x18 ra rb off)
  | .bgeu _ ra rb off => some (encI 0x19 ra rb off)
  | .j _ off => some (encJ 0x1A off)
  | .jal _ off => some (encJ 0x1B off)
  | .jalr _ rd ra => some (encI 0x1C rd ra 0)
  | .loop _ k m cnt body => some (encL k m cnt body)
  | .mfts _ rd num => some (encI 0x1E rd 0 num)
  | .mtts _ ra num => some (encI 0x1F 0 ra num)
  | .enq _ q ra tag _ => some (encQ q ra tag)
  | .waitq _ mask => some (encS 0x21 (mask.zeroExtend 16))
  | .commit _ => some (encS 0x22 0)
  | .halt _ => some (encS 0x23 0)
  | .faultI _ imm => some (encS 0x24 imm)
  | .trace _ imm => some (encS 0x25 imm)
  | _ => none

/-- The R-format instruction of a function code (R99). -/
def decodeR (t : Nat) (fn : BitVec 11) (rd ra rb : BitVec 5) : Option Instr :=
  if fn = 0x000 then some (.add t rd ra rb)
  else if fn = 0x001 then some (.sub t rd ra rb)
  else if fn = 0x002 then some (.andR t rd ra rb)
  else if fn = 0x003 then some (.orR t rd ra rb)
  else if fn = 0x004 then some (.xorR t rd ra rb)
  else if fn = 0x005 then some (.sll t rd ra rb)
  else if fn = 0x006 then some (.srl t rd ra rb)
  else if fn = 0x007 then some (.sra t rd ra rb)
  else if fn = 0x008 then some (.slt t rd ra rb)
  else if fn = 0x009 then some (.sltu t rd ra rb)
  else if fn = 0x00A then some (.min t rd ra rb)
  else if fn = 0x00B then some (.max t rd ra rb)
  else if fn = 0x00C then some (.minu t rd ra rb)
  else if fn = 0x00D then some (.maxu t rd ra rb)
  else if fn = 0x00E then some (.mul t rd ra rb)
  else if fn = 0x00F then some (.mulh t rd ra rb)
  else if fn = 0x010 then some (.mulhu t rd ra rb)
  else if fn = 0x011 then (if rb = 0 then some (.clz t rd ra) else none)
  else if fn = 0x012 then (if rb = 0 then some (.popc t rd ra) else none)
  else none

/-- The instruction of tile `t` that a word spells, none where an opcode or function code is not listed or a field that
must be zero is not (R99). A load or store is read with no parity error found. -/
def decodeYilac (t : Nat) (w : Word) : Option Instr :=
  let op := w.extractLsb' 26 6
  let a := w.extractLsb' 21 5
  let b := w.extractLsb' 16 5
  let imm := w.extractLsb' 0 16
  if op = 0x01 then decodeR t (w.extractLsb' 0 11) a b (w.extractLsb' 11 5)
  else if op = 0x02 then some (.addi t a b imm)
  else if op = 0x03 then some (.andi t a b imm)
  else if op = 0x04 then some (.ori t a b imm)
  else if op = 0x05 then some (.xori t a b imm)
  else if op = 0x06 then some (.slti t a b imm)
  else if op = 0x07 then some (.sltiu t a b imm)
  else if op = 0x08 then (if w.extractLsb' 5 11 = 0 then some (.slli t a b (w.extractLsb' 0 5)) else none)
  else if op = 0x09 then (if w.extractLsb' 5 11 = 0 then some (.srli t a b (w.extractLsb' 0 5)) else none)
  else if op = 0x0A then (if w.extractLsb' 5 11 = 0 then some (.srai t a b (w.extractLsb' 0 5)) else none)
  else if op = 0x0B then (if b = 0 then some (.lui t a imm) else none)
  else if op = 0x0C then some (.ldw t a b imm false)
  else if op = 0x0D then some (.ldh t a b imm false)
  else if op = 0x0E then some (.ldhu t a b imm false)
  else if op = 0x0F then some (.ldb t a b imm false)
  else if op = 0x10 then some (.ldbu t a b imm false)
  else if op = 0x11 then some (.stw t a b imm)
  else if op = 0x12 then some (.sth t a b imm false)
  else if op = 0x13 then some (.stb t a b imm false)
  else if op = 0x14 then some (.beq t a b imm)
  else if op = 0x15 then some (.bne t a b imm)
  else if op = 0x16 then some (.blt t a b imm)
  else if op = 0x17 then some (.bge t a b imm)
  else if op = 0x18 then some (.bltu t a b imm)
  else if op = 0x19 then some (.bgeu t a b imm)
  else if op = 0x1A then some (.j t (w.extractLsb' 0 26))
  else if op = 0x1B then some (.jal t (w.extractLsb' 0 26))
  else if op = 0x1C then (if imm = 0 then some (.jalr t a b) else none)
  else if op = 0x1D then
    (if w.extractLsb' 23 1 = 0 ∧ w.extractLsb' 12 11 ≠ 0 then none
     else some (.loop t (w.extractLsb' 24 2) (w.extractLsb' 23 1) (w.extractLsb' 12 11) (w.extractLsb' 0 12)))
  else if op = 0x1E then (if b = 0 then some (.mfts t a imm) else none)
  else if op = 0x1F then (if a = 0 then some (.mtts t b imm) else none)
  else if op = 0x20 then (if w.extractLsb' 21 2 = 0 then some (.enq t (w.extractLsb' 23 3) b imm false) else none)
  else if w.extractLsb' 16 10 ≠ 0 then none
  else if op = 0x21 then (if w.extractLsb' 6 10 = 0 then some (.waitq t (w.extractLsb' 0 6)) else none)
  else if op = 0x22 then (if imm = 0 then some (.commit t) else none)
  else if op = 0x23 then (if imm = 0 then some (.halt t) else none)
  else if op = 0x24 then some (.faultI t imm)
  else if op = 0x25 then some (.trace t imm)
  else none

/-- The command that a table word spells: none, since no row of the table gives bits. -/
def decodeTableWord (_nbits _w : Nat) : Option Instr := none

end Sys2Proof
end

