-- ==== Sys2Proof/Config.lean ====
section
/-! DEFINITION. What the spec leaves open or to the part: opaque values with no body, so that every statement about
them holds whatever they are. -/

namespace Sys2Proof

/-- The `n`th free value of `w` bits: nothing constrains it. `State.fresh` counts the free values taken. -/
opaque Config.free (w n : Nat) : BitVec w

/-- The event log (0 informational, 1 warning, 2 failure, 3 fatal) that holds records of a kind (0 media, 1 module, 2
vendor): CXL 3.1 lets the device choose and the manual names none (R390). Taken modulo 4. (log 46: PRESUMED) -/
opaque Config.eventLog (kind : Nat) : Nat

/-- The device identifier that TAP IDCODE shifts out: the manual gives it no value (R448). (log 50: DESIGN CHOICE) -/
opaque Config.idcode : BitVec 32

/-- The signature of a check run that faulted, by fault code and PC: the manual does not lay out the bytes its CRC
covers (R404). (log 60: DESIGN CHOICE) -/
opaque Config.faultSig (code pc : Nat) : BitVec 64

/-- Where the hold keeps item `k` of a kind in the pillar of its place, as a codeword number taken modulo those of the pillar's
first 16 MiB: the manual does not lay the hold out (R398, R400, R401). Kinds: 0 registers, 1 instruction memory, 2 start lines, 3
own-pillar codewords, 4 data read, 5 results of waits, 6 staged lines, 7 addresses of barn codewords. (log 92: DESIGN CHOICE) -/
opaque Config.holdSlot (kind k : Nat) : Nat

/-- Where the rotating list of places starts, by the draw: the manual says only that the position is taken from it
(R399). (log 61: DESIGN CHOICE) -/
opaque Config.placeStart (z : BitVec 64) : Nat

/-- The bytes of the fuse image that M0 is extended with, from grade, stepping, serial number, MIN_SVN and MKEY_HASH:
the manual does not lay them out (R441). (log 11: DESIGN CHOICE) -/
opaque Config.fuseImage (grade stepping : Nat) (serial : BitVec 64) (minSvn : BitVec 32) (mkey : BitVec 512) :
    List (BitVec 8)

/-- What DETAIL of ERR_NEXT of the XP page records of a refused packet, by OP, DST and SRC: they do not fit its 15 bits, and the
manual gives it no fields for them (R345, R464). (log 86: DESIGN CHOICE) -/
opaque Config.unreachWord (op dst src : Nat) : BitVec 15

/-- The code that VOUT_COMMAND carries for a voltage in mV, by what VOUT_MODE reads: PMBus 1.3 defines the formats (R486). (log 82:
DESIGN CHOICE) -/
opaque Config.voutCode (mode mv : Nat) : BitVec 16

/-- The key that the PUF of the part yields with its helper data, and the 256-bit seed in the fuses that the identity key is derived
with (R445). (log 48: DESIGN CHOICE) -/
opaque Config.pufKey : BitVec 256
opaque Config.fuseSeed : BitVec 256

/-- What a word of the configuration space or of the component and device registers reads as, by its place, where the
manual gives it no value (R368, R371). (log 90: PRESUMED) -/
opaque Config.headWord (a : Nat) : BitVec 32

end Sys2Proof
end

