-- ==== Sys2Proof/Machine/Map.lean ====
section
/-! DEFINITION. Reading and writing the sparse maps, and the byte and bit helpers every unit shares. -/

namespace Sys2Proof.Machine

/-- What key `k` reads as, `d` where it is not listed. -/
def SMap.look {α : Type} (d : α) : SMap α → Nat → α
  | [], _ => d
  | c :: m, k => if c.1 = k then c.2 else SMap.look d m k

/-- Drop every entry of key `k`. -/
def SMap.drop {α : Type} : SMap α → Nat → SMap α
  | [], _ => []
  | c :: m, k => if c.1 = k then SMap.drop m k else c :: SMap.drop m k

/-- Insert before the first larger key. -/
def SMap.insert {α : Type} (k : Nat) (v : α) : SMap α → SMap α
  | [] => [(k, v)]
  | c :: m => if k < c.1 then (k, v) :: c :: m else c :: SMap.insert k v m

/-- Write `v` at `k`; writing the value an unlisted key reads as removes the entry. -/
def SMap.put {α : Type} [DecidableEq α] (d : α) (m : SMap α) (k : Nat) (v : α) : SMap α :=
  if v = d then SMap.drop m k else SMap.insert k v (SMap.drop m k)

/-- Change the value at `k` by `f`. -/
def SMap.modify {α : Type} [DecidableEq α] (d : α) (m : SMap α) (k : Nat) (f : α → α) : SMap α :=
  SMap.put d m k (f (SMap.look d m k))

/-- Keys strictly rise. -/
def SMap.sorted {α : Type} : SMap α → Bool
  | [] => true
  | [_] => true
  | a :: b :: m => decide (a.1 < b.1) && SMap.sorted (b :: m)

/-- The canonical form: keys strictly rise and no entry holds the default `d`. -/
def SMap.wf {α : Type} [DecidableEq α] (d : α) (m : SMap α) : Bool :=
  SMap.sorted m && m.all fun c => decide (c.2 ≠ d)

/-- Memories in canonical form over the default byte zero. -/
abbrev Memory.wf (m : SMap Byte) : Bool := SMap.wf (0 : Byte) m

/-- The `n` bytes from `a` up. -/
def readBytes (m : SMap Byte) (a : Nat) : Nat → List Byte
  | 0 => []
  | n + 1 => SMap.look 0 m a :: readBytes m (a + 1) n

/-- Store the bytes `bs` from `a` up. -/
def writeBytes (m : SMap Byte) (a : Nat) : List Byte → SMap Byte
  | [] => m
  | b :: bs => writeBytes (SMap.put 0 m a b) (a + 1) bs

/-- The little-endian value of a byte string (R13). -/
def leNat : List Byte → Nat
  | [] => 0
  | b :: bs => b.toNat + 256 * leNat bs

/-- The `n` little-endian bytes of a value (R13). -/
def leBytes : Nat → Nat → List Byte
  | 0, _ => []
  | n + 1, v => BitVec.ofNat 8 v :: leBytes n (v / 256)

/-- The `n` big-endian bytes of a value, most significant first. -/
def beBytes (n v : Nat) : List Byte := (leBytes n v).reverse

/-- The big-endian value of a byte string. -/
def beNat (bs : List Byte) : Nat := leNat bs.reverse

/-- Bits `[hi:lo]` of a natural number. -/
def bits (v hi lo : Nat) : Nat := (v >>> lo) % 2 ^ (hi + 1 - lo)

/-- One bit of a natural number. -/
def bit (v i : Nat) : Bool := v.testBit i

/-- A Boolean as a bit. -/
def b2n : Bool → Nat
  | true => 1
  | false => 0

/-- The signed value of the low `w` bits of `v`. -/
def sgn (w v : Nat) : Int :=
  let u := v % 2 ^ w
  if u < 2 ^ (w - 1) then (u : Int) else (u : Int) - (2 : Int) ^ w

/-- `n` zero bytes. -/
def zeros (n : Nat) : List Byte := List.replicate n 0

/-- Bytes `off` to `off + n - 1` of a byte string as a little-endian number; bytes past the end read zero. -/
def field (bs : List Byte) (off n : Nat) : Nat := leNat ((bs.drop off).take n)

/-- Pad or cut a byte string to `n` bytes. -/
def padTo (n : Nat) (bs : List Byte) : List Byte := (bs ++ zeros n).take n

/-- The longest byte string both sides share, ored with masks: byte `i` from `new` where `mask i`, else from `old`. -/
def mergeBytes (mask : Nat → Bool) (old new : List Byte) : List Byte :=
  (List.range old.length).map fun i => if mask i then new.getD i 0 else old.getD i 0

/-- A serial comparison of `n`-bit ordering counters (R52): `a` equals or is later than `b`. -/
def serialGE (n a b : Nat) : Bool :=
  let d := (a + 2 ^ n - b % 2 ^ n) % 2 ^ n
  d = 0 || d < 2 ^ (n - 1)

/-- `a` is later than `b` (R52). -/
def serialGT (n a b : Nat) : Bool :=
  let d := (a + 2 ^ n - b % 2 ^ n) % 2 ^ n
  d ≠ 0 && d < 2 ^ (n - 1)

/-- Advance a saturating counter of largest value `top` by one (R53). -/
def satInc (top v : Nat) : Nat := if v < top then v + 1 else v

/-- Run `f` on every element, left to right. -/
def foldEach {α σ : Type} (xs : List α) (s : σ) (f : α → σ → σ) : σ := xs.foldl (fun s x => f x s) s

/-- Replace the element at `i`. -/
def setAt {α : Type} : List α → Nat → α → List α
  | [], _, _ => []
  | _ :: xs, 0, v => v :: xs
  | x :: xs, i + 1, v => x :: setAt xs i v

end Sys2Proof.Machine
end

