-- ==== Sys2Proof/Machine/Ecc.lean ====
section
/-! DEFINITION. The RS(72,64) codeword of field and barn memory: arithmetic of GF(2^8), the encoder, the blight
pattern and the classification of a codeword on reading (R60 to R64, R297). A codeword is written as the list of its
coefficients from c71 down to c0: the 64 data bytes in address order, then check bytes 0 to 7. -/

namespace Sys2Proof.Machine

/-- Multiply by α = 0x02 modulo x^8 + x^4 + x^3 + x^2 + 1 (R60). -/
def gfTwice (a : Nat) : Nat := if a < 128 then 2 * a else (2 * a) ^^^ 0x11D

/-- The bit-serial product; the first argument counts the bits of `b` still to take. -/
def gfMulAux : Nat → Nat → Nat → Nat → Nat
  | 0, _, _, acc => acc
  | n + 1, a, b, acc => gfMulAux n (gfTwice a) (b / 2) (if b % 2 = 1 then acc ^^^ a else acc)

/-- The product in GF(2^8). -/
def gfMul (a b : Nat) : Nat := if a = 0 ∨ b = 0 then 0 else gfMulAux 8 a b 0

/-- The `n`th power in GF(2^8). -/
def gfPow (a : Nat) : Nat → Nat
  | 0 => 1
  | n + 1 => gfMul a (gfPow a n)

/-- α^i. -/
def gfAlpha : Nat → Nat
  | 0 => 1
  | n + 1 => gfTwice (gfAlpha n)

/-- Seven square-and-multiply rounds: a^254, the inverse of a non-zero element. -/
def gfInv (a : Nat) : Nat :=
  let a2 := gfMul a a
  let a4 := gfMul a2 a2
  let a8 := gfMul a4 a4
  let a16 := gfMul a8 a8
  let a32 := gfMul a16 a16
  let a64 := gfMul a32 a32
  let a128 := gfMul a64 a64
  gfMul a2 (gfMul a4 (gfMul a8 (gfMul a16 (gfMul a32 (gfMul a64 a128)))))

/-- The coefficients of x^7 down to x^0 of g(x) = (x + α^0) … (x + α^7) (R60). -/
def rsGen : List Nat := [255, 11, 81, 54, 239, 173, 200, 24]

/-- One step of the division by g(x): `r` is the remainder so far, highest coefficient first. -/
def rsStep (r : List Nat) (d : Nat) : List Nat :=
  let fb := d ^^^ r.headD 0
  let shifted := r.tail ++ [0]
  if fb = 0 then shifted else List.zipWith (fun x g => x ^^^ gfMul fb g) shifted rsGen

/-- Check bytes 0 to 7 of 64 data bytes: the coefficients of (D(x) · x^8) mod g(x) (R61). -/
def rsCheck (data : List Byte) : List Byte :=
  (data.foldl (fun r d => rsStep r d.toNat) [0, 0, 0, 0, 0, 0, 0, 0]).map (BitVec.ofNat 8)

/-- The blight constant B (R63). -/
def blightB : List Byte := [0x5A, 0xC3, 0x96, 0x3C, 0xA5, 0x69, 0xE1, 0x0F]

/-- The check bytes stored for `data`: the code's own, or those XORed with B when the codeword is blighted (R63). -/
def storedCheck (data : List Byte) (blight : Bool) : List Byte :=
  if blight then List.zipWith (· ^^^ ·) (rsCheck data) blightB else rsCheck data

/-- The value at `x` of the polynomial whose coefficients are listed highest first. -/
def polyAt (cs : List Nat) (x : Nat) : Nat := cs.foldl (fun v c => gfMul v x ^^^ c) 0

/-- The syndromes S0 to S7 (R61). -/
def syndromes (cw : List Nat) : List Nat := (List.range 8).map fun i => polyAt cw (gfAlpha i)

/-- SB, the syndromes of B in the check positions (R63). -/
def syndromesOfB : List Nat := syndromes (blightB.map (·.toNat))

/-- Add two polynomials, lowest coefficient first. -/
def polyAdd : List Nat → List Nat → List Nat
  | [], q => q
  | p, [] => p
  | a :: p, b :: q => (a ^^^ b) :: polyAdd p q

/-- Scale a polynomial. -/
def polyScale (k : Nat) (p : List Nat) : List Nat := p.map (gfMul k)

/-- The state of the Berlekamp-Massey iteration. -/
structure BmState where
  lam : List Nat
  b : List Nat
  l : Nat
  gap : Nat
  bd : Nat

/-- One round of Berlekamp-Massey on syndrome `n`. -/
def bmRound (s : List Nat) (n : Nat) (st : BmState) : BmState :=
  let d := (List.range (st.l + 1)).foldl (fun v i => v ^^^ gfMul (st.lam.getD i 0) (s.getD (n - i) 0)) 0
  if d = 0 then { st with gap := st.gap + 1 }
  else
    let fix := List.replicate st.gap 0 ++ polyScale (gfMul d (gfInv st.bd)) st.b
    if 2 * st.l ≤ n then
      { lam := polyAdd st.lam fix, b := st.lam, l := n + 1 - st.l, gap := 1, bd := d }
    else { st with lam := polyAdd st.lam fix, gap := st.gap + 1 }

/-- The error locator of a syndrome vector and its degree. -/
def bmLocator (s : List Nat) : List Nat × Nat :=
  let st := (List.range 8).foldl (fun st n => bmRound s n st) { lam := [1], b := [1], l := 0, gap := 1, bd := 1 }
  (st.lam, st.l)

/-- The value at `x` of a polynomial written lowest coefficient first. -/
def polyLowAt (p : List Nat) (x : Nat) : Nat := polyAt p.reverse x

/-- The error value at locator `x` (Forney's formula for the generator roots α^0 to α^7). -/
def errorValue (s lam : List Nat) (x : Nat) : Nat :=
  let xi := gfInv x
  let omega := (List.range 8).map fun k =>
    (List.range (k + 1)).foldl (fun v i => v ^^^ gfMul (lam.getD i 0) (s.getD (k - i) 0)) 0
  let odd := (List.range 4).map fun k => lam.getD (2 * k + 1) 0
  let deriv := (List.range 4).foldl (fun v k => v ^^^ gfMul (odd.getD k 0) (gfPow xi (2 * k))) 0
  gfMul x (gfMul (polyLowAt omega xi) (gfInv deriv))

/-- The error pattern (symbol index from c71, value) of at most `most` symbols that has the syndromes `s`, if there is
one. The code's distance is 9, so for `most ≤ 4` there is at most one; the pattern found is checked against `s`. -/
def findErrors (most : Nat) (s : List Nat) : Option (List (Nat × Nat)) :=
  let (lam, l) := bmLocator s
  if most < l then none
  else
    let hits := (List.range 72).filter fun j => polyLowAt lam (gfInv (gfAlpha j)) = 0
    let errs := hits.map fun j => (71 - j, errorValue s lam (gfAlpha j))
    let pattern := (List.range 72).map fun i => (errs.find? (fun e => e.1 = i)).elim 0 (·.2)
    if hits.length ≤ most ∧ syndromes pattern = s then some errs else none

/-- Apply an error pattern to the coefficients. -/
def applyErrors (cw : List Nat) (errs : List (Nat × Nat)) : List Nat :=
  errs.foldl (fun cw e => setAt cw e.1 (cw.getD e.1 0 ^^^ e.2)) cw

/-- The class of a codeword on reading (R64). -/
inductive CwClass where
  /-- All syndromes zero. -/
  | clean
  /-- The syndromes equal SB. -/
  | blighted
  /-- At most four symbols in error; corrected. -/
  | corrected
  /-- A blight pattern with at most two symbols in error; corrected and still blighted. -/
  | blightCorrected
  /-- Anything else. -/
  | uncorrectable
  deriving DecidableEq, Repr

/-- What a read of a codeword delivers. -/
structure CwRead where
  /-- The 64 data bytes delivered. -/
  data : List Byte
  /-- The class found (R64). -/
  cls : CwClass
  deriving DecidableEq, Repr

/-- Is the data delivered marked blighted (R64)? -/
def CwClass.marked : CwClass → Bool
  | .clean => false
  | .corrected => false
  | .blighted => true
  | .blightCorrected => true
  | .uncorrectable => true

/-- Classify the 64 data bytes and 8 check bytes read, in the order of R64. -/
def classify (data check : List Byte) : CwRead :=
  let cw := (data ++ check).map (·.toNat)
  let s := syndromes cw
  let fixed := fun errs => ((applyErrors cw errs).take 64).map (BitVec.ofNat 8)
  if s = [0, 0, 0, 0, 0, 0, 0, 0] then ⟨data, .clean⟩
  else if s = syndromesOfB then ⟨data, .blighted⟩
  else
    match findErrors 4 s with
    | some errs => ⟨fixed errs, .corrected⟩
    | none =>
      match findErrors 2 (List.zipWith (· ^^^ ·) s syndromesOfB) with
      | some errs => ⟨fixed errs, .blightCorrected⟩
      | none => ⟨data, .uncorrectable⟩

end Sys2Proof.Machine
end

