-- ==== Sys2Proof/Machine/RegTable.lean ====
section
/-! DEFINITION. The page map of BAR0 and the register tables of every page (R461, R464 and the register tables of the
chapters), as data. A field that no list names is read-only or reserved: a write leaves it alone (R15). -/

namespace Sys2Proof.Machine

/-- The kinds of page (R461). -/
inductive Page where
  | global | steward | fuse | tithe | fence | dispatch | trace
  | clock (k : Nat) | host (h : Nat) | ridge (p : Nat) | paddock (p : Nat)
  /-- `tally 16` is the apex page, `tally p` that of paddock `p`. -/
  | tally (p : Nat)
  | barn (c : Nat) | doorbell (q : Nat) | tile (n : Nat)
  deriving DecidableEq, Repr

/-- The BAR0 offset of a page (R461). -/
def Page.base : Page → Nat
  | .global => 0x0000
  | .steward => 0x1000
  | .fuse => 0x2000
  | .tithe => 0x3000
  | .fence => 0x4000
  | .dispatch => 0x5000
  | .trace => 0x6000
  | .clock k => 0x10000 + k * 0x1000
  | .host h => 0x40000 + h * 0x1000
  | .ridge p => 0x48000 + p * 0x1000
  | .paddock p => 0x50000 + p * 0x1000
  | .tally p => if p = 16 then 0x60000 else 0x61000 + p * 0x1000
  | .barn c => 0x80000 + c * 0x1000
  | .doorbell q => 0x100000 + q * 0x1000
  | .tile n => 0x1000000 + n * 0x1000

/-- The type code and instance PAGE_ID reports (R461, R464). -/
def Page.ident : Page → Nat × Nat
  | .global => (0x01, 0)
  | .steward => (0x02, 0)
  | .fuse => (0x03, 0)
  | .tithe => (0x04, 0)
  | .fence => (0x05, 0)
  | .dispatch => (0x06, 0)
  | .trace => (0x07, 0)
  | .clock k => (0x08, k)
  | .host h => (0x0A, h)
  | .ridge p => (0x0B, p)
  | .paddock p => (0x0C, p)
  | .tally p => (0x0D, if p = 16 then 0xFFFF else p)
  | .barn c => (0x0E, c)
  | .doorbell q => (0x0F, q)
  | .tile n => (0x10, n)

/-- The page that holds BAR0 offset `a`, if one does; the CXL range 0x0003_8000 to 0x0003_FFFF is none (R461). -/
def pageAt (a : Nat) : Option Page :=
  let n := a / 0x1000
  if n = 0 then some .global
  else if n = 1 then some .steward
  else if n = 2 then some .fuse
  else if n = 3 then some .tithe
  else if n = 4 then some .fence
  else if n = 5 then some .dispatch
  else if n = 6 then some .trace
  else if 0x10 ≤ n ∧ n < 0x38 then some (.clock (n - 0x10))
  else if n = 0x40 ∨ n = 0x41 then some (.host (n - 0x40))
  else if 0x48 ≤ n ∧ n < 0x4E then some (.ridge (n - 0x48))
  else if 0x50 ≤ n ∧ n < 0x60 then some (.paddock (n - 0x50))
  else if n = 0x60 then some (.tally 16)
  else if 0x61 ≤ n ∧ n < 0x71 then some (.tally (n - 0x61))
  else if 0x80 ≤ n ∧ n < 0xC0 then some (.barn (n - 0x80))
  else if 0x100 ≤ n ∧ n < 0x140 then some (.doorbell (n - 0x100))
  else if 0x1000 ≤ n ∧ n < 0x1000 + 4352 then some (.tile (n - 0x1000))
  else none

/-- The access codes of R15; `cnt` is a counter or high-water field that only a write of all ones clears (R469), `cntS`
one that also keeps its value through a warm reset (RWS). -/
inductive Acc where
  | rw | rw1c | rw1s | wo | rwl | cnt | cntS
  deriving DecidableEq, Repr

/-- One writable field: lowest bit, width, access. -/
structure Fld where
  lo : Nat
  width : Nat
  acc : Acc
  deriving DecidableEq, Repr

/-- One register table: offset in the page, stride and count of an array, width in bits, reset value, fields. -/
structure RegDesc where
  off : Nat
  stride : Nat
  count : Nat
  width : Nat
  reset : Nat
  fields : List Fld
  deriving DecidableEq, Repr

/-- The common header (R464). PAGE_ID and PAGE_CAPS are per page and are formed where the page is read. -/
def headerRegs : List RegDesc := [
  ⟨0x000, 4, 1, 32, 0x0, []⟩,
  ⟨0x004, 4, 1, 32, 0xB001, []⟩,
  ⟨0x008, 4, 1, 32, 0x0, []⟩,
  ⟨0x00C, 4, 1, 32, 0x1, [⟨0, 1, .rw⟩, ⟨1, 1, .rw⟩, ⟨2, 1, .rw1s⟩]⟩,
  ⟨0x010, 4, 1, 32, 0x0, []⟩,
  ⟨0x014, 4, 1, 32, 0x0, [⟨31, 1, .rw1c⟩]⟩,
  ⟨0x018, 4, 1, 32, 0x0, [⟨31, 1, .rw1c⟩]⟩,
  ⟨0x01C, 4, 1, 32, 0x0, [⟨0, 32, .rw⟩]⟩,
  ⟨0x020, 4, 1, 32, 0x0, [⟨0, 8, .wo⟩, ⟨31, 1, .wo⟩]⟩,
  ⟨0x024, 4, 1, 32, 0x0, [⟨0, 16, .cnt⟩]⟩]

/-- The registers of a PADDOCK page (R76, R85, R88, R89). -/
def paddockRegs : List RegDesc := [
  ⟨0x040, 4, 1, 32, 0x0, [⟨0, 1, .rw⟩]⟩,
  ⟨0x044, 4, 1, 32, 0x0, []⟩,
  ⟨0x048, 4, 1, 32, 0x0, [⟨0, 4, .cnt⟩]⟩,
  ⟨0x050, 4, 1, 64, 0x0, [⟨0, 64, .cnt⟩]⟩,
  ⟨0x058, 4, 1, 32, 0x1, [⟨0, 1, .rw⟩, ⟨1, 1, .rw1c⟩]⟩,
  ⟨0x05C, 4, 1, 32, 0x8000000, [⟨0, 32, .rw⟩]⟩,
  ⟨0x060, 4, 1, 32, 0x0, [⟨0, 16, .cnt⟩]⟩,
  ⟨0x064, 4, 1, 32, 0x0, []⟩]

/-- The registers of a TILE page (R136, R208, R239, R265, R414, R477). -/
def tileRegs : List RegDesc := [
  ⟨0x040, 4, 1, 32, 0x0, [⟨0, 1, .wo⟩]⟩,
  ⟨0x044, 4, 1, 32, 0x0, []⟩,
  ⟨0x048, 4, 1, 64, 0x0, [⟨0, 64, .cnt⟩]⟩,
  ⟨0x050, 4, 1, 64, 0x0, [⟨0, 64, .cnt⟩]⟩,
  ⟨0x058, 4, 1, 64, 0x0, [⟨0, 64, .cnt⟩]⟩,
  ⟨0x060, 4, 1, 64, 0x0, [⟨0, 64, .cnt⟩]⟩,
  ⟨0x068, 4, 1, 64, 0x0, [⟨0, 64, .cnt⟩]⟩,
  ⟨0x070, 4, 1, 64, 0x0, [⟨0, 64, .cnt⟩]⟩,
  ⟨0x078, 4, 1, 64, 0x0, [⟨0, 64, .cnt⟩]⟩,
  ⟨0x080, 4, 1, 64, 0x0, [⟨0, 64, .cnt⟩]⟩,
  ⟨0x088, 4, 1, 64, 0x0, [⟨0, 64, .cnt⟩]⟩,
  ⟨0x090, 4, 1, 64, 0x0, [⟨0, 64, .cnt⟩]⟩,
  ⟨0x098, 4, 1, 32, 0x0, [⟨16, 11, .cnt⟩]⟩,
  ⟨0x0A0, 4, 1, 32, 0x0, [⟨0, 16, .cntS⟩, ⟨16, 16, .cntS⟩]⟩,
  ⟨0x0A4, 4, 1, 32, 0x0, [⟨0, 1, .rw1c⟩]⟩,
  ⟨0x0A8, 4, 1, 32, 0x0, []⟩]

/-- The registers of a DOORBELL page (R144). -/
def doorbellRegs : List RegDesc := [
  ⟨0x040, 4, 1, 32, 0x4404, [⟨0, 1, .rw⟩, ⟨1, 1, .wo⟩, ⟨2, 1, .rw⟩, ⟨8, 4, .rw⟩, ⟨12, 4, .rw⟩, ⟨16, 6, .rw⟩]⟩,
  ⟨0x048, 4, 1, 64, 0x0, [⟨0, 39, .rw⟩]⟩,
  ⟨0x050, 4, 1, 64, 0x0, [⟨0, 39, .rw⟩]⟩,
  ⟨0x058, 4, 1, 64, 0x0, [⟨0, 39, .rw⟩]⟩,
  ⟨0x060, 4, 1, 32, 0x0, [⟨0, 32, .rw⟩]⟩,
  ⟨0x064, 4, 1, 32, 0x0, []⟩,
  ⟨0x068, 4, 1, 32, 0x0, []⟩,
  ⟨0x06C, 4, 1, 32, 0x0, [⟨0, 32, .rw⟩]⟩]

/-- The registers of a DISPATCH page (R176). -/
def dispatchRegs : List RegDesc := [
  ⟨0x040, 4, 1, 32, 0x0, [⟨0, 2, .rw⟩]⟩,
  ⟨0x044, 4, 1, 32, 0x0, [⟨0, 8, .wo⟩, ⟨8, 1, .wo⟩]⟩,
  ⟨0x048, 4, 1, 64, 0x0, [⟨0, 39, .rw⟩]⟩,
  ⟨0x050, 4, 1, 32, 0x400, [⟨0, 1, .rw⟩, ⟨8, 4, .rw⟩]⟩,
  ⟨0x054, 4, 1, 32, 0x0, []⟩,
  ⟨0x058, 4, 1, 32, 0x0, [⟨0, 32, .rw⟩]⟩,
  ⟨0x060, 4, 1, 64, 0x0, [⟨0, 64, .cnt⟩]⟩,
  ⟨0x080, 4, 8, 32, 0x0, []⟩,
  ⟨0x0A0, 4, 8, 32, 0x0, []⟩]

/-- The registers of a TALLY page (R270, R284, R291). -/
def tallyRegs : List RegDesc := [
  ⟨0x100, 4, 64, 32, 0x0, [⟨0, 8, .rw⟩, ⟨8, 1, .rw⟩]⟩,
  ⟨0x200, 8, 64, 64, 0x0, []⟩,
  ⟨0x400, 8, 64, 64, 0x0, [⟨0, 16, .rw⟩, ⟨16, 8, .rw⟩, ⟨24, 1, .rw⟩, ⟨25, 2, .rw⟩, ⟨27, 1, .rw⟩, ⟨32, 6, .rw⟩, ⟨40, 6, .rw⟩, ⟨48, 6, .rw⟩]⟩,
  ⟨0x600, 8, 64, 64, 0x0, [⟨32, 32, .rw⟩]⟩,
  ⟨0x800, 8, 128, 64, 0x0, [⟨0, 64, .rw⟩]⟩,
  ⟨0xC00, 4, 128, 32, 0x0, [⟨0, 16, .rw⟩, ⟨16, 2, .rw⟩]⟩]

/-- The registers of a BARN page (R324). -/
def barnRegs : List RegDesc := [
  ⟨0x040, 4, 1, 32, 0x8, [⟨0, 1, .rw1s⟩, ⟨1, 1, .rw⟩, ⟨2, 1, .rw⟩, ⟨3, 1, .rw⟩]⟩,
  ⟨0x044, 4, 5, 32, 0x10800, [⟨0, 30, .rwl⟩]⟩,
  ⟨0x058, 4, 1, 32, 0x7D0, [⟨0, 32, .rw⟩]⟩,
  ⟨0x05C, 4, 1, 32, 0x818, [⟨0, 6, .rw⟩, ⟨8, 6, .rw⟩]⟩,
  ⟨0x060, 4, 1, 32, 0x0, [⟨24, 4, .cnt⟩]⟩,
  ⟨0x064, 4, 1, 32, 0x4000, [⟨0, 1, .wo⟩, ⟨2, 1, .rw1c⟩, ⟨8, 16, .rw⟩]⟩,
  ⟨0x068, 4, 1, 32, 0x0, [⟨0, 16, .cnt⟩]⟩,
  ⟨0x070, 4, 1, 64, 0x0, []⟩,
  ⟨0x078, 4, 1, 32, 0x4000, [⟨0, 32, .rw⟩]⟩,
  ⟨0x080, 4, 1, 64, 0x0, [⟨0, 64, .cnt⟩]⟩,
  ⟨0x088, 4, 1, 64, 0x0, [⟨0, 64, .cnt⟩]⟩,
  ⟨0x090, 4, 1, 64, 0x0, [⟨0, 64, .cnt⟩]⟩]

/-- The registers of a RIDGE page (R366). -/
def ridgeRegs : List RegDesc := [
  ⟨0x040, 4, 1, 32, 0x1, [⟨0, 1, .rw⟩, ⟨1, 1, .wo⟩]⟩,
  ⟨0x044, 4, 1, 32, 0x0, []⟩,
  ⟨0x048, 4, 1, 32, 0x0, []⟩,
  ⟨0x04C, 4, 1, 32, 0x1000180, [⟨0, 10, .rw⟩, ⟨16, 10, .rw⟩]⟩,
  ⟨0x050, 4, 1, 32, 0x0, [⟨0, 16, .cnt⟩, ⟨16, 16, .cnt⟩]⟩,
  ⟨0x058, 4, 1, 64, 0x0, [⟨0, 64, .cnt⟩]⟩,
  ⟨0x060, 4, 1, 64, 0x0, [⟨0, 64, .cnt⟩]⟩,
  ⟨0x100, 4, 1, 32, 0x0, []⟩,
  ⟨0x104, 4, 1, 32, 0x0, []⟩,
  ⟨0x108, 4, 1, 64, 0x0, []⟩,
  ⟨0x110, 4, 1, 32, 0x0, [⟨0, 15, .rw⟩, ⟨16, 5, .rw⟩, ⟨21, 5, .rw⟩, ⟨26, 5, .rw⟩, ⟨31, 1, .wo⟩]⟩,
  ⟨0x114, 4, 1, 32, 0x2, [⟨0, 4, .rw⟩]⟩,
  ⟨0x118, 4, 1, 32, 0x0, [⟨0, 15, .wo⟩, ⟨15, 1, .wo⟩]⟩,
  ⟨0x11C, 4, 1, 32, 0x0, [⟨16, 15, .cnt⟩]⟩]

/-- The registers of a HOST page (R395). -/
def hostRegs : List RegDesc := [
  ⟨0x040, 4, 1, 32, 0x0, []⟩,
  ⟨0x044, 4, 1, 32, 0x180, [⟨0, 10, .rw⟩]⟩,
  ⟨0x048, 4, 1, 32, 0x80, [⟨0, 10, .rw⟩]⟩,
  ⟨0x04C, 4, 1, 32, 0x0, [⟨16, 10, .cnt⟩]⟩,
  ⟨0x050, 4, 1, 64, 0x0, [⟨0, 64, .cnt⟩]⟩,
  ⟨0x058, 4, 1, 64, 0x0, [⟨0, 64, .cnt⟩]⟩,
  ⟨0x060, 4, 1, 32, 0x0, [⟨0, 16, .cnt⟩, ⟨16, 16, .cnt⟩]⟩,
  ⟨0x068, 4, 1, 64, 0x0, [⟨0, 64, .cnt⟩]⟩]

/-- The registers of a FENCE page (R418). -/
def fenceRegs : List RegDesc := [
  ⟨0x040, 4, 1, 32, 0x0, [⟨0, 13, .wo⟩, ⟨13, 1, .wo⟩, ⟨31, 1, .wo⟩]⟩,
  ⟨0x044, 4, 1, 32, 0x0, [⟨1, 1, .rw1c⟩, ⟨2, 1, .rw1c⟩]⟩,
  ⟨0x048, 4, 1, 32, 0x0, []⟩,
  ⟨0x04C, 4, 1, 32, 0x10, [⟨0, 16, .rw⟩]⟩,
  ⟨0x050, 4, 4, 32, 0x10101010, []⟩]

/-- The registers of a TITHE page (R433). -/
def titheRegs : List RegDesc := [
  ⟨0x040, 4, 1, 32, 0x801, [⟨0, 1, .rw⟩, ⟨8, 8, .rw⟩]⟩,
  ⟨0x044, 4, 1, 32, 0x0, [⟨0, 16, .rw⟩]⟩,
  ⟨0x048, 4, 1, 64, 0x0, [⟨0, 64, .rw⟩]⟩,
  ⟨0x050, 4, 1, 32, 0x0, [⟨0, 8, .wo⟩, ⟨8, 2, .wo⟩, ⟨10, 1, .wo⟩, ⟨16, 16, .rw⟩]⟩,
  ⟨0x054, 4, 1, 32, 0x1, [⟨0, 1, .rw⟩, ⟨1, 4, .wo⟩, ⟨5, 1, .wo⟩, ⟨11, 1, .rw1c⟩]⟩,
  ⟨0x058, 4, 1, 64, 0x1F6EA0860000, [⟨0, 64, .rw⟩]⟩,
  ⟨0x060, 4, 1, 64, 0x0, [⟨0, 39, .rw⟩]⟩,
  ⟨0x068, 4, 1, 32, 0x400, [⟨0, 1, .rw⟩, ⟨8, 4, .rw⟩, ⟨16, 16, .cnt⟩]⟩,
  ⟨0x06C, 4, 1, 32, 0x0, []⟩,
  ⟨0x070, 4, 1, 32, 0x0, [⟨0, 32, .rw⟩]⟩,
  ⟨0x078, 4, 1, 64, 0x0, [⟨0, 64, .cnt⟩]⟩,
  ⟨0x080, 4, 1, 64, 0x0, [⟨0, 64, .cnt⟩]⟩,
  ⟨0x088, 4, 1, 64, 0x0, [⟨0, 64, .cnt⟩]⟩]

/-- The registers of a GLOBAL page (R460, R471, R472). -/
def globalRegs : List RegDesc := [
  ⟨0x040, 4, 1, 32, 0x0, [⟨0, 2, .wo⟩, ⟨4, 4, .wo⟩, ⟨31, 1, .wo⟩]⟩,
  ⟨0x044, 4, 1, 32, 0x0, []⟩,
  ⟨0x050, 4, 1, 32, 0x0, [⟨0, 8, .rw⟩, ⟨8, 8, .rw⟩]⟩,
  ⟨0x058, 4, 1, 32, 0xFF, [⟨0, 8, .rw⟩]⟩,
  ⟨0x080, 4, 1, 64, 0x0, []⟩,
  ⟨0x088, 8, 1, 64, 0x0, []⟩,
  ⟨0x090, 8, 1, 64, 0x0, []⟩,
  ⟨0x098, 8, 1, 64, 0x0, []⟩,
  ⟨0x0A0, 4, 1, 32, 0x0, []⟩,
  ⟨0x400, 4, 256, 32, 0x0, []⟩]

/-- The registers of a STEWARD page (R460). -/
def stewardRegs : List RegDesc := [
  ⟨0x040, 4, 1, 32, 0x0, [⟨16, 16, .cntS⟩]⟩,
  ⟨0x044, 4, 1, 32, 0x0, []⟩,
  ⟨0x048, 4, 1, 32, 0x0, [⟨0, 3, .wo⟩, ⟨31, 1, .wo⟩]⟩,
  ⟨0x050, 4, 1, 64, 0x0, [⟨0, 64, .rw⟩]⟩,
  ⟨0x058, 4, 1, 32, 0x0, [⟨12, 1, .rw1c⟩]⟩,
  ⟨0x05C, 4, 1, 32, 0x0, [⟨24, 8, .cnt⟩]⟩,
  ⟨0x100, 4, 128, 32, 0x0, []⟩]

/-- The registers of a FUSE page (R474). -/
def fuseRegs : List RegDesc := [
  ⟨0x040, 4, 1, 32, 0x0, []⟩,
  ⟨0x048, 4, 1, 64, 0x0, []⟩,
  ⟨0x050, 4, 1, 32, 0x0, []⟩,
  ⟨0x100, 4, 16, 32, 0x0, []⟩,
  ⟨0x140, 4, 16, 32, 0x0, []⟩,
  ⟨0x200, 4, 128, 32, 0x0, []⟩,
  ⟨0x400, 4, 136, 32, 0x0, []⟩]

/-- The registers of a TRACE page (R475). -/
def traceRegs : List RegDesc := [
  ⟨0x040, 4, 1, 64, 0x0, [⟨0, 39, .rw⟩]⟩,
  ⟨0x048, 4, 1, 32, 0x400, [⟨0, 1, .rw⟩, ⟨1, 1, .wo⟩, ⟨8, 4, .rw⟩]⟩,
  ⟨0x04C, 4, 1, 32, 0x0, []⟩,
  ⟨0x050, 4, 1, 32, 0x0, [⟨0, 32, .rw⟩]⟩,
  ⟨0x058, 4, 1, 64, 0x0, [⟨0, 64, .cnt⟩]⟩,
  ⟨0x060, 4, 1, 32, 0x0, [⟨0, 1, .rwl⟩]⟩]

/-- The registers of a CLOCK page (R476). -/
def clockRegs : List RegDesc := [
  ⟨0x040, 4, 1, 32, 0x0, [⟨17, 1, .rw1c⟩]⟩,
  ⟨0x044, 4, 1, 32, 0x0, [⟨0, 16, .rwl⟩]⟩,
  ⟨0x048, 4, 1, 32, 0x0, [⟨0, 16, .cnt⟩]⟩]

/-- The MSI-X table (72 entries of four words, vector control masked at reset) and the pending bit array of a HOST
page (R393). R393 and R395 give the words of the pending bit array no width: the model takes them as two registers of 64 bits, as PCI
Express lays the array out, although R17 has 32 bits where none is declared. (log 14: DESIGN CHOICE) -/
def msixRegs : List RegDesc := [
  ⟨0x800, 4, 288, 32, 0x0, [⟨0, 32, .rw⟩]⟩,
  ⟨0xC80, 8, 2, 64, 0x0, []⟩]

/-- The registers of a page beyond its header. -/
def Page.regs : Page → List RegDesc
  | .global => globalRegs
  | .steward => stewardRegs
  | .fuse => fuseRegs
  | .tithe => titheRegs
  | .fence => fenceRegs
  | .dispatch => dispatchRegs
  | .trace => traceRegs
  | .clock _ => clockRegs
  | .host _ => hostRegs ++ msixRegs
  | .ridge p => if p = 0 then ridgeRegs else ridgeRegs.filter fun r => r.off < 0x100
  | .paddock _ => paddockRegs
  | .tally p => if p = 16 then tallyRegs else tallyRegs.filter fun r => r.off < 0x400
  | .barn _ => barnRegs
  | .doorbell _ => doorbellRegs
  | .tile _ => tileRegs

/-- Is `off` inside the array of `r`, at any byte of one of its registers? -/
def RegDesc.covers (r : RegDesc) (off : Nat) : Bool :=
  r.off ≤ off && (off - r.off) / (if r.count = 1 then r.width / 8 else r.stride) < r.count &&
    (off - r.off) % (if r.count = 1 then r.width / 8 else r.stride) < r.width / 8

/-- The start, within the page, of the register that covers `off`. -/
def RegDesc.start (r : RegDesc) (off : Nat) : Nat :=
  if r.count = 1 then r.off else r.off + (off - r.off) / r.stride * r.stride

/-- `GLOBAL.ERRSUM_TILE` leaves words 9 to 15 of each 0x40 block reserved (R472). -/
def holeIn (p : Page) (off : Nat) : Bool := p = .global && 0x400 ≤ off && off < 0x800 && 9 ≤ off % 0x40 / 4

/-- The register of page `p` at offset `off`: its table and its start. -/
def regAt (p : Page) (off : Nat) : Option (RegDesc × Nat) :=
  if holeIn p off then none
  else ((headerRegs ++ p.regs).find? fun r => r.covers off).map fun r => (r, r.start off)

/-- The value a register resets to (register tables; BANKHASHi resets to 0x0001_0800 × 2^i, an MSI-X vector control
word to masked). -/
def regReset (a : Nat) : Reg :=
  match pageAt a with
  | none => 0
  | some p =>
    match regAt p (a - p.base) with
    | none => 0
    | some (r, start) =>
      match p with
      | .barn _ =>
        if 0x044 ≤ start ∧ start < 0x058 then BitVec.ofNat 64 (0x10800 * 2 ^ ((start - 0x044) / 4))
        else BitVec.ofNat 64 r.reset
      | .host _ =>
        if 0x800 ≤ start ∧ start < 0xC80 ∧ start % 16 = 12 then 1 else BitVec.ofNat 64 r.reset
      | _ => BitVec.ofNat 64 r.reset

end Sys2Proof.Machine
end

