-- ==== Sys2Proof/Machine/Flags.lean ====
section
/-! DEFINITION. The status flags of the block: the causes every page logs, with code, mask bit and error vector (R466),
and the result flags of the sync queue and of dispatch. -/

namespace Sys2Proof.Machine

/-- The page causes of R466. -/
inductive Cause where
  | accessWidth | unmapped | notBooted
  | manifestApply | upkeepBusy | resetBusy | thermtrip | manifestInvalid
  | titheStall | granaryInvalid | sweepSkipped | cperConfig
  | fenceBusy | fenceRange
  | gangAbsent | flogConfig | traceConfig | pllUnlock
  | linkDegraded | notReady | decodeConfig | decodeMiss | cxlProto
  | linkDown | linkProto | miscabled | packetBad | unreach | noOrigin | twoOrigins | ringLong | coordMismatch | stageOrphan
  | parityIn | modeBusy | fieldUe
  | tallyConfig | tallyBusy | tallyStray | flagStray
  | bankHash | barnUe | trainFail
  | doorbellRange | queueConfig | queueBusy
  | tileBusy | binParity | streamParity
  deriving DecidableEq, Repr

/-- Code, mask bit and error vector (0: none) of a cause (R466). -/
def Cause.row : Cause → Nat × Nat × Nat
  | .accessWidth => (0x80, 0, 0)
  | .unmapped => (0x81, 1, 0)
  | .notBooted => (0x82, 2, 0)
  | .manifestApply => (0xB0, 0, 0)
  | .upkeepBusy => (0xB1, 1, 0)
  | .resetBusy => (0xB2, 2, 0)
  | .thermtrip => (0xB3, 3, 71)
  | .manifestInvalid => (0xB4, 4, 0)
  | .titheStall => (0xAC, 0, 0)
  | .granaryInvalid => (0xAD, 1, 0)
  | .sweepSkipped => (0xAE, 2, 0)
  | .cperConfig => (0xAB, 3, 0)
  | .fenceBusy => (0xAF, 0, 0)
  | .fenceRange => (0xA9, 1, 0)
  | .gangAbsent => (0x42, 0, 0)
  | .flogConfig => (0xAA, 1, 0)
  | .traceConfig => (0xBC, 0, 0)
  | .pllUnlock => (0xB8, 0, 0)
  | .linkDegraded => (0xA4, 0, 71)
  | .notReady => (0xA5, 1, 0)
  | .decodeConfig => (0xA6, 2, 0)
  | .decodeMiss => (0xA7, 3, 0)
  | .cxlProto => (0xA8, 4, 0)
  | .linkDown => (0x98, 0, 68)
  | .linkProto => (0x99, 1, 0)
  | .miscabled => (0x9A, 2, 68)
  | .packetBad => (0x9B, 3, 0)
  | .unreach => (0x9C, 4, 0)
  | .noOrigin => (0x9D, 5, 68)
  | .twoOrigins => (0x9E, 6, 68)
  | .ringLong => (0x9F, 7, 68)
  | .coordMismatch => (0xA0, 8, 68)
  | .stageOrphan => (0xA1, 9, 68)
  | .parityIn => (0x84, 0, 0)
  | .modeBusy => (0x85, 1, 0)
  | .fieldUe => (0x86, 2, 64)
  | .tallyConfig => (0x90, 0, 0)
  | .tallyBusy => (0x91, 1, 0)
  | .tallyStray => (0x92, 2, 0)
  | .flagStray => (0x93, 3, 0)
  | .bankHash => (0x94, 1, 0)
  | .barnUe => (0x95, 2, 64)
  | .trainFail => (0x96, 3, 64)
  | .doorbellRange => (0x8C, 0, 0)
  | .queueConfig => (0x8D, 1, 0)
  | .queueBusy => (0x8E, 2, 0)
  | .tileBusy => (0x88, 0, 0)
  | .binParity => (0x89, 1, 0)
  | .streamParity => (0x8A, 2, 0)

/-- The causes a page logs, for ERR_INJECT and NCAUSE (R465, R466). -/
def Page.causes : Page → List Cause
  | .global => [.accessWidth, .unmapped, .notBooted]
  | .steward => [.manifestApply, .upkeepBusy, .resetBusy, .thermtrip, .manifestInvalid]
  | .fuse => []
  | .tithe => [.titheStall, .granaryInvalid, .sweepSkipped, .cperConfig]
  | .fence => [.fenceBusy, .fenceRange]
  | .dispatch => [.gangAbsent, .flogConfig]
  | .trace => [.traceConfig]
  | .clock _ => [.pllUnlock]
  | .host _ => [.linkDegraded, .notReady, .decodeConfig, .decodeMiss, .cxlProto]
  | .ridge _ => [.linkDown, .linkProto, .miscabled, .packetBad, .unreach, .noOrigin, .twoOrigins, .ringLong,
      .coordMismatch, .stageOrphan]
  | .paddock _ => [.parityIn, .modeBusy, .fieldUe]
  | .tally _ => [.tallyConfig, .tallyBusy, .tallyStray, .flagStray]
  | .barn _ => [.parityIn, .bankHash, .barnUe, .trainFail]
  | .doorbell _ => [.doorbellRange, .queueConfig, .queueBusy]
  | .tile _ => [.tileBusy, .binParity, .streamParity]

/-- LOCKABLE, QUIESCE and FENCEABLE of a page type (R464). -/
def Page.caps : Page → Bool × Bool × Bool
  | .barn _ => (true, true, true)
  | .clock _ => (true, false, false)
  | .trace => (true, false, false)
  | .paddock _ => (false, true, false)
  | .doorbell _ => (false, true, false)
  | .tile _ => (false, false, true)
  | _ => (false, false, false)

end Sys2Proof.Machine
end

