-- ==== Sys2Proof/Machine/State.lean ====
section
/-! DEFINITION. The state of the CM384 block: plain data, every register, memory, queue, counter and mode the spec
names, the model's own free-value counter and the queue of waiting commands. -/

namespace Sys2Proof.Machine

/-- Reasons a command stops the model. -/
inductive Fault where
  /-- Raised by every meaning whose operands name a unit the module does not have (R18, R20): a physical tile above
  4,351, a logical tile above 4,095, a port, channel, queue, page or bank out of range. Safe: no such unit exists. -/
  | noSuchUnit
  deriving DecidableEq, Repr

/-- Reasons a command has no meaning. -/
inductive Refusal where
  /-- A row of the table that the model does not give a meaning; raised by Dispatch.lean only. Safe. -/
  | notModelled (mnemonic : String)
  deriving DecidableEq, Repr

/-- A 64-byte line or codeword as delivered: its bytes and its blight mark (R31, R64). -/
structure Line where
  data : List Byte
  blight : Bool
  deriving DecidableEq, Repr

/-! ### Memory requests -/

/-- The sender of a remote write: a tile of this module, or a tile of another module by node address (R252, R348). -/
inductive Sender where
  | tile (pt : Nat)
  | remote (node tile : Nat)
  deriving DecidableEq, Repr

/-- A commit or abort message on its way to a receiver (R253). -/
structure CommitMsg where
  src : Sender
  epoch : BitVec 32
  abort : Bool
  deriving DecidableEq, Repr

/-- Who waits for a host or mesh access (R69, R302). -/
inductive ReqSrc where
  /-- A CXL.mem request of head `h` (R379). -/
  | host (h tag : Nat)
  /-- Line `line` of the remote read `id` of another module (R351). -/
  | ridge (id line : Nat)
  /-- A host request whose head has been reset since: no answer is sent (R373). -/
  | dropped
  /-- A read or write of entry `id` of tile `t` (R242, R258). -/
  | entry (t id : Nat)
  /-- A staged line that receiver `t` applies on commit message `m` (R253, R349). -/
  | staged (t : Nat) (m : CommitMsg)
  /-- Read `id` of the dispatcher (R149). -/
  | disp (id : Nat)
  /-- A record written for host software; the vector is raised once it is accepted (R171, R432). -/
  | post (vector : Option Nat)
  /-- The completion record and the status line of queue `q` (R29). -/
  | record (q : Nat)
  | status (q : Nat)
  /-- The header read or a line of the snapshot of gang `g` (R428). -/
  | snap (g : Nat)
  /-- Line `k` of the bin, or from 4,096 on of the crib, that a RESTORE gives tile `t` of gang `g` (R429). -/
  | restore (g t k : Nat)
  /-- The granary header that a RESTORE of gang `g` reads (R429). -/
  | restoreHead (g : Nat)
  /-- Line `k` of the manifest image that MANIFEST_STAGE reads (R456). -/
  | image (k : Nat)
  /-- Inject Poison or Clear Poison of head `h`'s mailbox (R389). -/
  | mail (h : Nat)
  deriving DecidableEq, Repr

/-- What a memory access does to its codeword (R66). -/
inductive MemOp where
  | read
  /-- A whole-codeword write; `poison` leaves it blighted (R33, R385), `bad` is a word received with bad parity (R65). -/
  | write (data : List Byte) (poison bad : Bool)
  /-- A write of the bytes whose bit of `be` is set (R66). -/
  | partialWrite (data : List Byte) (be : Nat) (poison bad : Bool)
  /-- A rewrite as a clean blight pattern over the data as they are (R63, R389, R412). -/
  | mark
  deriving DecidableEq, Repr

/-- A waiting or admitted access of one codeword, named by its DPA. -/
structure MemReq where
  src : ReqSrc
  op : MemOp
  dpa : Nat
  /-- Has waited 1 µs and is a panic request (R310). -/
  aged : Bool
  deriving DecidableEq, Repr

/-! ### The tile -/

/-- What the Yilac core is doing (R136). -/
inductive CoreState where
  | idle
  | running
  /-- Waiting at WAITQ for the queues of the mask (R99). -/
  | waitq (mask : Nat)
  /-- Stalled at ENQ on a full queue (R113). -/
  | stalled
  /-- At COMMIT, waiting for every queue to drain (R101). -/
  | draining
  /-- At COMMIT, the step presented to the commit gate (R39). -/
  | atGate
  | halted
  | faulted
  | inReset
  deriving DecidableEq, Repr

/-- An armed hardware loop unit: its index, the addresses of the first and last instruction of the body, the iterations
remaining (R103 to R106). -/
structure ArmedLoop where
  k : Nat
  first : Nat
  last : Nat
  live : Nat
  deriving DecidableEq, Repr

/-- A codeword in a sink's read-ahead buffer, with the pillar offset it came from (R118, R187). -/
structure SinkWord where
  off : Nat
  line : Line
  deriving DecidableEq, Repr

/-- One byte, or the unit that begins there, of a bin, a pillar or barn memory as a tile's copy engine or cart names it
(R242, R258). -/
inductive Place where
  | bin (a : Nat)
  | own (off : Nat)
  | pillar (l off : Nat)
  | tbin (l a : Nat)
  | barn (dpa : Nat)
  /-- A byte of the module at a node address, in the 40-bit ADDR of R339. -/
  | ridge (node addr : Nat)
  deriving DecidableEq, Repr

/-- A write that a copy or cart entry has still to make beyond its bin (R120, R256, R261). -/
inductive OutWrite where
  /-- One unit of 64 bytes, with its byte mask. -/
  | unit (p : Place) (mask : Nat) (line : Line)
  /-- Bytes for another module, within one block of 256, and which of its lines are blighted (R339). -/
  | piece (node addr : Nat) (bytes : List Byte) (blight : Nat)
  deriving DecidableEq, Repr

/-- One activation row's elements of one K-tile in the activation store, with their scales and blight (R178, R202). -/
structure ActRow where
  bytes : List Byte
  scales : List Byte
  blight : Bool
  deriving DecidableEq, Repr

/-- One entry of an engine queue (R113, R114). -/
structure Entry where
  /-- The order of issue within the tile. -/
  id : Nat
  q : Nat
  desc : List Byte
  tag : BitVec 16
  pc : Nat
  /-- Entries issued to the same queue earlier in the same step (R114). -/
  qindex : Nat
  started : Bool
  /-- Its reads and its own writes have been performed. -/
  performed : Bool
  /-- Codewords a stream entry has read, or elements or lines an engine has taken from its sink. -/
  progress : Nat
  /-- Codewords taken from the sink by a tensor or vector entry (R118). -/
  taken : List SinkWord
  /-- The cart's index buffer: the entries as they were copied when the entry started (R259). -/
  index : List Nat
  /-- DPAs that the entry has asked for over the mesh and that are not answered (R242). -/
  asked : List Nat
  /-- Remote lines sent and not yet placed in a staging area, and barn writes not yet accepted (R114, R252). -/
  unplaced : Nat
  /-- Remote reads sent and not yet answered, by tag (R351, R353). -/
  unanswered : List Nat
  /-- Lines that have arrived: node, address, line (R351); this module's own memory counts as node 32,768, and its tiles'
  bins as node 32,769, and the tile's own pillar by offset as node 32,770. -/
  got : List (Nat × Nat × Line)
  /-- Units of the own pillar that a copy or cart entry has still to read; none until it has begun (R120). -/
  own : Option (List Nat)
  /-- It has read all its sources and made its writes to the bin; the others that are left, in order (R120, R256, R261). -/
  moved : Bool
  outs : List OutWrite
  /-- The K-tiles whose activations a stream-mode tensor entry has loaded, in order, each row by row, and the initial values
  of its accumulators with their blight, once read (R178, R201). -/
  acts : List (List ActRow)
  inits : Option (List (List (Nat × Bool)))
  deriving DecidableEq, Repr

/-- An item the commit gate holds (R39). -/
inductive HeldItem where
  /-- An arrival at a tally (R271). -/
  | arrival (id : Nat) (epoch : BitVec 32)
  /-- A flag update; `node` is the destination of an OFFMOD update (R283). -/
  | flagAdd (f : Nat) (v : BitVec 64) (node : Option Nat)
  deriving DecidableEq, Repr

/-- A receiver of remote writes: a tile's staging area, this module's barn staging, or those of another module (R252,
R348). -/
inductive Receiver where
  | tile (pt : Nat)
  | barn
  | remote (node tile : Nat)
  deriving DecidableEq, Repr

/-- Where the gate of a tile stands (R39, R253). -/
inductive GatePhase where
  | closed
  /-- The commit messages are out and acknowledgements are awaited (R253). -/
  | acking
  /-- The step is released and its gang is held at step boundaries: the next step has not started (R37, R42). -/
  | boundary
  deriving DecidableEq, Repr

/-- The step commit gate (R39 to R42, R253). -/
structure Gate where
  phase : GatePhase
  /-- Arrivals and flag updates of the step, in issue order. -/
  held : List HeldItem
  /-- Receivers at which the step staged lines. -/
  receivers : List Receiver
  /-- Receivers whose acknowledgement has not come. -/
  awaiting : List Receiver
  deriving DecidableEq, Repr

/-- A release whose acknowledgements had not all come when its tile was reset: the step stands (R41). -/
structure Release where
  held : List HeldItem
  awaiting : List Receiver
  epoch : BitVec 32
  /-- The gang whose step it was, and its crew (R283). -/
  gang : Option Nat
  crew : Nat
  deriving DecidableEq, Repr

/-- Where a staged line goes (R252): the bin of the receiving tile, its pillar, or barn memory. -/
inductive LineDest where
  | bin (a : Nat)
  | pillar (off : Nat)
  | barn (dpa : Nat)
  deriving DecidableEq, Repr

/-- A remote write line (R252): its sender and step, the sending entry's queue, where it goes, which bytes, the data and
the blight mark. -/
structure StageLine where
  src : Sender
  epoch : BitVec 32
  q : Nat
  dest : LineDest
  mask : Nat
  line : Line
  deriving DecidableEq, Repr

/-- The tile leaf's copy of one tally (R266, R271). -/
structure Leaf where
  arrival : BitVec 32
  released : BitVec 32
  deriving DecidableEq, Repr

/-- One physical tile (R94). -/
structure Tile where
  /-- g1 to g31 (R95). -/
  g : SMap Word
  pc : Nat
  core : CoreState
  /-- Last fault code the tile raised itself (R136). -/
  fcode : Nat
  /-- Armed loop units, the most recently armed first (R107). -/
  loops : List ArmedLoop
  /-- LC0 to LC3 (R103). -/
  lc : SMap Word
  cycle : BitVec 64
  /-- What the last reads of CYCLE_LO and BEAT_LO latched (R127). -/
  cycleHi : Word
  beatHi : Word
  imem : SMap Word
  bin : SMap Byte
  /-- Blight bit of each bin line (R125). -/
  binBlight : SMap Bool
  crib : SMap Byte
  /-- Blight mark of each crib line (R498). -/
  cribBlight : SMap Bool
  /-- Has an ENQ or a bin store executed since the last COMMIT (R101)? -/
  dirty : Bool
  /-- The incomplete entries of the six queues, in issue order (R109, R113). -/
  queue : List Entry
  /-- The entry a stalled ENQ holds (R113). -/
  stalledEntry : Option Entry
  /-- Entries issued this step, per queue (R114). -/
  issued : SMap Nat
  nextId : Nat
  /-- Read-ahead buffers of sinks 0 and 1 (R118). -/
  sink0 : List SinkWord
  sink1 : List SinkWord
  /-- The source of own-pillar accesses that the tile port served last: 0 stream, 1 copy engine, 2 cart (R120). -/
  port : Nat
  /-- The queue whose entry owns the lattice (R195, R251). -/
  lattice : Option Nat
  /-- The lattice: 32 rows of 64 bytes (R250). -/
  latticeData : SMap Byte
  /-- The gang the tile belongs to, its rank and the gang's size (R127). -/
  gang : Option Nat
  gangId : Nat
  rank : Nat
  gsize : Nat
  epoch : BitVec 32
  /-- Steps released in this sheaf (R158). -/
  stepsDone : Nat
  gate : Gate
  /-- Releases of steps of gangs that have been reset since, oldest first (R41). -/
  released : List Release
  leaves : SMap Leaf
  /-- Tallies named by an ARRIVE of this step (R274). -/
  arrived : List Nat
  /-- The staging area, lines on their way to it and lines waiting for room (R252, R255). -/
  staging : List StageLine
  inflight : List StageLine
  stageWait : List StageLine
  /-- Commit and abort messages on their way to this receiver, and acknowledgements on their way to this sender (R253). -/
  commits : List CommitMsg
  acks : List Receiver
  /-- Receivers of other modules that have been sent an ABORT of a step and have not acknowledged it (R353). -/
  aborts : List (Receiver × BitVec 32)
  /-- Commit messages whose lines are being written to memory, and how many have not been (R253). -/
  applying : List (CommitMsg × Nat)
  deriving DecidableEq, Repr

/-- A tile as power-on reset leaves it (R134). -/
def Tile.reset : Tile :=
  { g := [], pc := 0, core := .idle, fcode := 0, loops := [], lc := [], cycle := 0, cycleHi := 0, beatHi := 0,
    imem := [], bin := [], binBlight := [], crib := [], cribBlight := [], dirty := false, queue := [],
    stalledEntry := none, issued := [], nextId := 0, sink0 := [], sink1 := [], port := 2, lattice := none,
    latticeData := [], gang := none, gangId := 0, rank := 0, gsize := 0, epoch := 0, stepsDone := 0,
    gate := { phase := .closed, held := [], receivers := [], awaiting := [] },
    released := [], leaves := [], arrived := [], staging := [], inflight := [], stageWait := [], commits := [], acks := [],
    aborts := [], applying := [] }

/-! ### Pillars and barn channels -/

/-- One pillar controller (R68 to R88). -/
structure Pillar where
  /-- The host and mesh queue, oldest first, at most 16 (R69). -/
  queue : List MemReq
  /-- Admitted accesses, oldest first (R79). -/
  admitted : List MemReq
  beat : BitVec 48
  /-- Refreshes owed, per bank (R82). -/
  owed : SMap Nat
  /-- The row, 0 to 32,767 in pillar offset order, of the next gleaner visit (R86). -/
  gleanRow : Nat
  /-- Has completed a pass since PASS_DONE was last cleared (R88). -/
  gleaned : Bool
  /-- A due visit runs as an admitted access behind this many that were admitted before it (R87). -/
  gleanAdmitted : Option Nat
  /-- Uncorrectable codewords found since the count was last cleared (R418). -/
  ues : Nat
  deriving DecidableEq, Repr

/-- A pillar controller after reset. -/
def Pillar.reset : Pillar :=
  { queue := [], admitted := [], beat := 0, owed := [], gleanRow := 0, gleaned := false, gleanAdmitted := none,
    ues := 0 }

/-- A write-queue entry of a barn channel (R305). -/
structure WqEntry where
  dpa : Nat
  line : Line
  /-- Bytes given so far. -/
  mask : Nat
  poison : Bool
  /-- The entry holds the whole codeword: written whole, or its merge read has completed. -/
  merged : Bool
  /-- The place of its last write in the order of acceptance (R303, R307). -/
  seq : Nat
  /-- Panic reads that have passed its merge read in its bank (R309). -/
  passed : Nat
  deriving DecidableEq, Repr

/-- An accepted read of a barn channel (R304, R306, R309). -/
structure BarnRead where
  req : MemReq
  /-- The write-queue entry of the codeword as it stood when the read was accepted, merged since if it was pending merge
  (R306). -/
  fwd : Option WqEntry
  /-- The codeword as it was read when a write that passes the write queue reached the DRAM first (R307). -/
  kept : Option Line
  /-- Its place in the order of acceptance (R303). -/
  seq : Nat
  /-- Panic requests that have passed it in its bank (R309). -/
  passed : Nat
  deriving DecidableEq, Repr

/-- One barn channel and its controller (R302 to R323). -/
structure Channel where
  /-- Lanes 0 host, 1 ridge, 2 mesh; at most 16 entries each (R302). -/
  lane0 : List MemReq
  lane1 : List MemReq
  lane2 : List MemReq
  /-- The lane served last (R303). -/
  lastLane : Nat
  /-- Accepted reads in order of acceptance, each in its bank's queue of at most 8 (R304). -/
  reads : List BarnRead
  /-- The write queue, oldest first, at most 32 (R305). -/
  writes : List WqEntry
  draining : Bool
  /-- Accesses accepted so far, which orders them (R303). -/
  accepted : Nat
  /-- The bank picked last (R311). -/
  lastBank : Nat
  /-- Refreshes owed per bank; key 32 is the all-bank count, key 33 the per-bank refreshes that make up no whole all-bank
  one (R314, R315). -/
  owed : SMap Nat
  /-- All-bank refresh is in force; the hot intervals are to apply from the next due time on (R314). -/
  allBank : Bool
  hotNext : Bool
  selfRefresh : Bool
  training : Bool
  dead : Bool
  /-- Corrected codewords in the current window (R321). -/
  window : Nat
  /-- The offset, in codewords of the channel, of the next patrol read (R317). -/
  scrub : Nat
  deriving DecidableEq, Repr

/-- A barn channel after reset. -/
def Channel.reset : Channel :=
  { lane0 := [], lane1 := [], lane2 := [], lastLane := 2, reads := [], writes := [], draining := true,
    accepted := 0, lastBank := 31, owed := [], allBank := false, hotNext := false,
    selfRefresh := false, training := false, dead := false, window := 0, scrub := 0 }

/-! ### Dispatch -/

/-- One entry of a declared range table (R148). -/
structure Range where
  base : Nat
  lines : Nat
  output : Bool
  deriving DecidableEq, Repr

/-- The sheaf a gang is running (R151, R165). -/
structure Sheaf where
  q : Nat
  index : Nat
  cookie : Nat
  steps : Nat
  dissolve : Bool
  trace : Bool
  ranges : List Range
  fmapGen : Nat
  /-- Tiles that reported a fault; code, sequence number and loss of the first record (R165, R170). -/
  nfault : Nat
  code : Nat
  fseq : Nat
  flost : Bool
  deriving DecidableEq, Repr

/-- How far the snapshot of a gang is (R428). -/
inductive SnapPhase where
  | none
  /-- The header is being read; it has been read. -/
  | asked
  | header (l : Line)
  /-- Lines still to be accepted, and the header to be written after them. -/
  | lines (left : Nat) (newHeader : List Byte)
  /-- The header is being written; the snapshot is taken. -/
  | closing
  | taken
  deriving DecidableEq, Repr

/-- What a completion record says (R165). -/
structure Completion where
  cookie : Nat
  status : Nat
  code : Nat
  gang : Nat
  flost : Bool
  index : Nat
  stepsDone : Nat
  epoch : Nat
  fseq : Nat
  nfault : Nat
  deriving DecidableEq, Repr

/-- A gang (R154). -/
structure Gang where
  live : Bool
  faulted : Bool
  /-- Its logical tiles, in rank order (R147). -/
  tiles : List Nat
  checkpoint : Bool
  /-- TITHE code 0 to 4 (R145). -/
  tithe : Nat
  /-- Trace mode in force (R174). -/
  tmode : Nat
  granary : Nat
  crew : Nat
  /-- The tithe seed latched at formation (R397). -/
  seed : BitVec 64
  sheaf : Option Sheaf
  /-- It has been reset, and this completion of its sheaf waits for room in the trace ring (R172, R174). -/
  ending : Option Completion
  /-- Fault records written for a fault without a sheaf (R170). -/
  loose : Nat
  /-- Snapshots: sheaves since the last one, a snapshot requested, how far the one being taken is (R428). -/
  sinceSnap : Nat
  snapWanted : Bool
  snap : SnapPhase
  /-- Lines of a RESTORE still to be read (R429). -/
  restoring : Nat
  deriving DecidableEq, Repr

/-- A gang ID not in use. -/
def Gang.reset : Gang :=
  { live := false, faulted := false, tiles := [], checkpoint := false, tithe := 0, tmode := 0, granary := 0, crew := 0,
    seed := 0, sheaf := none, ending := none, loose := 0, sinceSnap := 0, snapWanted := false, snap := .none, restoring := 0 }

/-- The reads that the dispatcher makes for one purpose: those under way, by number and DPA, and the lines that have
come. -/
structure Fetch where
  asked : List (Nat × Nat)
  got : List (Nat × Line)
  deriving DecidableEq, Repr

/-- Nothing read. -/
def Fetch.reset : Fetch := { asked := [], got := [] }

/-- The sheaf that the dispatcher checks (R149, R152): its queue and index, its bytes, and what it reads for the checks. -/
structure Taking where
  q : Nat
  index : Nat
  bytes : List Byte
  fetch : Fetch
  deriving DecidableEq, Repr

/-- The dispatcher's own work (R141, R149, R152, R173, R29). -/
structure Dispatch where
  /-- The head sheaf of each queue, being read or read. -/
  heads : SMap Fetch
  taking : Option Taking
  /-- Gang resets that wait for the sheaf being taken (R173). -/
  resets : List Nat
  /-- Completions not yet made, by queue, oldest first; `true` once the record has been sent. -/
  completions : List (Nat × Completion × Bool)
  nextRead : Nat
  deriving DecidableEq, Repr

/-- A dispatcher with nothing to do. -/
def Dispatch.reset : Dispatch := { heads := [], taking := none, resets := [], completions := [], nextRead := 0 }

/-! ### Tallies and flags -/

/-- One part of one tally (R266): binding, counts and epoch; `counted` names the children counted in the pending
epoch. -/
structure TallyNode where
  bound : Bool
  gang : Nat
  lost : Bool
  expected : Nat
  counted : List Nat
  epoch : BitVec 32
  deriving DecidableEq, Repr

/-- An unbound part. -/
def TallyNode.reset : TallyNode := { bound := false, gang := 0, lost := false, expected := 0, counted := [], epoch := 0 }

/-- A crew tally on this module (R289 to R291): its configuration, device part and apex parts. -/
structure Crew where
  crew : Nat
  gang : Nat
  isLocal : Bool
  level : Nat
  bound : Bool
  lost : Bool
  expRow : Nat
  expAcre : Nat
  expEst : Nat
  epoch : BitVec 32
  /-- Tiles of the local gang, and how many are expected. -/
  localCount : List Nat
  localExpected : Nat
  /-- Children counted at the row, acre and estate parts, by node address. -/
  rowCount : List Nat
  acreCount : List Nat
  estCount : List Nat
  deriving DecidableEq, Repr

/-- An unbound crew tally. -/
def Crew.reset : Crew :=
  { crew := 0, gang := 0, isLocal := false, level := 0, bound := false, lost := false, expRow := 0, expAcre := 0,
    expEst := 0, epoch := 0, localCount := [], localExpected := 0, rowCount := [], acreCount := [], estCount := [] }

/-- A flag and its owner (R282). -/
structure Flag where
  value : BitVec 64
  ownerId : Nat
  kind : Nat
  frozen : Bool
  deriving DecidableEq, Repr

/-- A flag after reset. -/
def Flag.reset : Flag := { value := 0, ownerId := 0, kind := 0, frozen := false }

/-- A message of the tally tree on its way (R271, R272, R285). -/
inductive TallyMsg where
  /-- Arrival at a part from child `src`. -/
  | arrival (at_ : TallyPart) (id : Nat) (src : Nat) (epoch : BitVec 32)
  /-- Release to a part or leaf. -/
  | release (at_ : TallyPart) (id : Nat) (epoch : BitVec 32)
  /-- Withdrawal of the participation of physical tile `src`. -/
  | withdrawal (at_ : TallyPart) (id : Nat) (src : Nat)
  deriving DecidableEq, Repr

/-- A flag update on its way to the flag memory (R283): its sender, of another module the node, flag, amount, and the
sender's gang and crew. -/
structure FlagMsg where
  src : Sender
  f : Nat
  v : BitVec 64
  gang : Option Nat
  crew : Nat
  deriving DecidableEq, Repr

/-- The tallies and flags of the module. -/
structure TallyNet where
  /-- Paddock tallies, key 64 × paddock + index. -/
  pad : SMap TallyNode
  /-- Combining parts of device tallies, key 64 × paddock + index. -/
  padDev : SMap TallyNode
  /-- Combining parts of crew tallies, key 64 × paddock + index. -/
  padCrew : SMap TallyNode
  /-- Device tallies at the apex. -/
  dev : SMap TallyNode
  crew : SMap Crew
  flags : SMap Flag
  msgs : List TallyMsg
  flagMsgs : List FlagMsg
  deriving DecidableEq, Repr

/-- All tallies unbound. -/
def TallyNet.reset : TallyNet :=
  { pad := [], padDev := [], padCrew := [], dev := [], crew := [], flags := [], msgs := [], flagMsgs := [] }

/-! ### Host ports -/

/-- One HDM decoder (R381 to R383). -/
structure HdmDecoder where
  committed : Bool
  /-- Error Not Committed. -/
  err : Bool
  cfg : HdmRequest
  deriving DecidableEq, Repr

/-- A decoder after reset. -/
def HdmDecoder.reset : HdmDecoder :=
  { committed := false, err := false, cfg := { base := 0, size := 0, skip := 0, iw := 0, ig := 0, lockOnCommit := false } }

/-- What a host memory access answers (R379, R386). -/
inductive MemAnswer where
  | memData (line : Line)
  | cmp
  deriving DecidableEq, Repr

/-- One entry of an ingress buffer (R376, R379): a memory access, or a request that is answered, dropped or refused once it
reaches the front. -/
inductive Waiting where
  | access (r : MemReq)
  | reply (tag : Nat) (a : MemAnswer)
  | dropped
  | unsupported (tag : Nat)
  deriving DecidableEq, Repr

/-- The MetaField of a response (R379). -/
inductive MetaField where
  | noOp | meta0
  deriving DecidableEq, Repr

/-- One host port (R368 to R395). Its registers are those of the HOST page. -/
structure HostPort where
  /-- The ingress buffer, oldest first, at most 512 (R376). -/
  ingress : List Waiting
  /-- Completed accesses whose response is not sent: tag and answer. -/
  responses : List (Nat × MemAnswer)
  hdm0 : HdmDecoder
  hdm1 : HdmDecoder
  /-- MSI-X Enable and Function Mask of the configuration space (R394). -/
  msixEnable : Bool
  functionMask : Bool
  /-- Vectors whose pending bit is set (R394). -/
  msixPending : List Nat
  /-- A 64-bit register's lower half held pending: its offset and value (R17). -/
  pendingLow : Option (Nat × BitVec 32)
  /-- The upper half that a read of a lower half latched: the lower half's offset and the value (R17). -/
  readLatch : Option (Nat × BitVec 32)
  /-- Event interrupt policy: one byte per log (R389). -/
  policy : List Byte
  /-- The mailbox: its doorbell interrupt is enabled (R472), the return code and the payload it shows (R389). -/
  mailboxIrq : Bool
  /-- It works on a poison command (R389). -/
  mailBusy : Bool
  mailCode : Nat
  mailPayload : List Byte
  /-- Words of the configuration space and of the component and device registers that software has written, by pseudo
  address (R371). -/
  headRegs : SMap (BitVec 32)
  deriving DecidableEq, Repr

/-- A host port after reset. -/
def HostPort.reset : HostPort :=
  { ingress := [], responses := [], hdm0 := .reset, hdm1 := .reset, msixEnable := false, functionMask := false,
    msixPending := [], pendingLow := none, readLatch := none, policy := [0, 0, 0, 0], mailboxIrq := false,
    mailBusy := false, mailCode := 0, mailPayload := [], headRegs := [] }

/-- The body of an event record (R390). -/
inductive EventBody where
  | media (dpa : Nat)
  | thermal (celsius : Nat)
  | vendor (cper : List Byte)
  deriving DecidableEq, Repr

/-- One record of an event log (R390). -/
structure EventRec where
  handle : Nat
  body : EventBody
  deriving DecidableEq, Repr

/-- The event logs both heads share (R390): records per log 0 to 3, records lost to overflow, the next handle. -/
structure EventLogs where
  recs : SMap (List EventRec)
  overflow : SMap Nat
  nextHandle : Nat
  deriving DecidableEq, Repr

/-- What the block sends to the world outside it, in the order sent. -/
inductive Output where
  /-- A CXL.mem response through head `h` (R379). -/
  | mem (h tag : Nat) (a : MemAnswer) (metaField : MetaField)
  /-- The response CXL 3.1 requires to an unsupported request (R379). -/
  | cxlUnsupported (h tag : Nat)
  /-- An MSI-X message (R394). -/
  | msix (h vector : Nat)
  /-- A mailbox completion: return code and payload (R389). -/
  | mailbox (h code : Nat) (payload : List Byte)
  /-- A DOE or SPDM response (R391, R446). -/
  | doe (h : Nat) (payload : List Byte)
  | spdm (tr : Transport) (payload : List Byte)
  /-- A BAR0 read's value (R462). -/
  | bar0 (h : Nat) (v : BitVec 64)
  /-- A configuration read's value; Request Retry Status (R371, R374). -/
  | config (h : Nat) (v : BitVec 32)
  | configRetry (h : Nat)
  /-- Bits shifted out of the TAP (R448). -/
  | tap (bits : List Bool)
  /-- A trace record on the shared balls (R475). -/
  | tracePort (bytes : List Byte)
  /-- A flit sent on ridge port `p` (R327). -/
  | flit (p : Nat) (bytes : List Byte)
  /-- A transaction on the regulator bus: 7-bit address, command, and the bytes written, the packet error code last; a read has
  none (R486). -/
  | pmbus (addr cmd : Nat) (bytes : List Byte)
  deriving DecidableEq, Repr

/-! ### The ridge network -/

/-- A ridge packet (R338): header fields, ARGS bytes and data. -/
structure Packet where
  op : Nat
  cls : Nat
  vcd : Nat
  zdir : Nat
  zset : Nat
  dst : Nat
  src : Nat
  len : Nat
  blight : Nat
  args : List Byte
  data : List Byte
  deriving DecidableEq, Repr

/-- A DATA flit kept until it is acknowledged, and the packets with a byte in it (R329, R361). -/
structure SentFlit where
  seq : BitVec 12
  bytes : List Byte
  packets : List Packet
  deriving DecidableEq, Repr

/-- One ridge port (R325 to R337). -/
structure RidgePort where
  /-- Whole packets in the receive buffer, oldest first. -/
  rx : List Packet
  /-- Bytes of a packet whose end has not arrived. -/
  part : List Byte
  /-- Whole packets of an earlier session of the link, out of the buffer and not yet handled (R360). -/
  emptied : List Packet
  /-- Packets waiting to be sent, oldest first, each with its crossbar input: a port, or 6 for the mesh (R336). -/
  txq : List (Nat × Packet)
  /-- A packet begun in the last flit, and its bytes still to be sent (R329). -/
  tailPkt : Option Packet
  tail : List Byte
  /-- The crossbar input served last, and the picks for which a REQ packet has waited (R25, R336). -/
  lastInput : Nat
  reqWait : Nat
  /-- The link is being taken down as RIDGE.CTRL.EN asks (R366). -/
  closing : Bool
  txSeq : BitVec 12
  rxSeq : BitVec 12
  sent : List SentFlit
  /-- Discarding until the expected flit comes; a NAK to be sent in the next flit (R330, R332). -/
  nakState : Bool
  nakOwed : Bool
  /-- DATA flits accepted since the last ACK (R332). -/
  unacked : Nat
  /-- Cells owed to the peer and credits held, per VC (R334, R335). -/
  owedCells : SMap Nat
  usedCells : SMap Nat
  /-- Consecutive replays that began at the same number (R333). -/
  replayFrom : BitVec 12
  replays : Nat
  /-- The port carries no traffic (R326), or MGMT only (R358). -/
  miscabled : Bool
  mgmtOnly : Bool
  /-- Packets kept for the bounce of R361 until RXSEQ comes or 20 µs pass. -/
  bounce : List SentFlit
  awaitingRxseq : Bool
  /-- The RXSEQ of the peer, where it came before this end has declared the link down (R361). -/
  told : Option (BitVec 12)
  deriving DecidableEq, Repr

/-- A port after reset. -/
def RidgePort.reset : RidgePort :=
  { rx := [], part := [], emptied := [], txq := [], tailPkt := none, tail := [], lastInput := 6, reqWait := 0,
    closing := false, txSeq := 0, rxSeq := 0, sent := [], nakState := false, nakOwed := false, unacked := 0, owedCells := [],
    usedCells := [], replayFrom := 0, replays := 0, miscabled := false, mgmtOnly := false, bounce := [],
    awaitingRxseq := false, told := none }

/-- The furrow walk of one dimension (R354 to R357). -/
structure Walk where
  begun : Bool
  ended : Bool
  /-- Were the P and the N port UP, and so present, when it began (R354)? -/
  upP : Bool
  upN : Bool
  /-- A P-token has been taken. -/
  token : Bool
  /-- COUNT of the P-end and N-end reports at an origin (R356). -/
  pEnd : Option Nat
  /-- The provisional coordinate: this module's COUNT, signed. -/
  count : Int
  /-- FURROW packets that came before the walk began, with their port (R354). -/
  early : List (Nat × Packet)
  deriving DecidableEq, Repr

/-- A walk not begun. -/
def Walk.reset : Walk :=
  { begun := false, ended := false, upP := false, upN := false, token := false, pEnd := none, count := 0, early := [] }

/-- A remote read of another module in progress here (R351). -/
structure RemoteRead where
  id : Nat
  src : Nat
  rtile : Nat
  rtag : Nat
  addr : Nat
  len : Nat
  /-- Lines read so far, by line number. -/
  lines : List (Nat × Line)
  need : Nat
  deriving DecidableEq, Repr

/-- A class of packets that waits on one ring for a SEAL to return: the dimension, the class and the coordinates whose
direction has changed (R363). -/
structure Sealing where
  dim : Nat
  cls : Nat
  dsts : List Nat
  deriving DecidableEq, Repr

/-- The ridge block. Node address, rings and breaks are registers of RIDGE page 0 (R366). -/
structure Ridge where
  ports : SMap RidgePort
  /-- Breaks beyond the two of a ring that RIDGE.BREAK has room for, by dimension (R360, R365). -/
  cut : List (Nat × Nat)
  walks : SMap Walk
  /-- Packets held until their SEAL returns, each with its dimension and crossbar input, and what is sealed (R363). -/
  held : List (Nat × Nat × Packet)
  sealing : List Sealing
  /-- The barn staging area, as a tile's (R349). -/
  staging : List StageLine
  inflight : List StageLine
  stageWait : List StageLine
  commits : List CommitMsg
  applying : List (CommitMsg × Nat)
  reads : List RemoteRead
  nextRead : Nat
  deriving DecidableEq, Repr

/-- The ridge block after reset. -/
def Ridge.reset : Ridge :=
  { ports := [], cut := [], walks := [], held := [], sealing := [], staging := [], inflight := [], stageWait := [], commits := [],
    applying := [], reads := [], nextRead := 0 }

/-- A fault as the tile or the dispatcher reports it (R170). -/
structure FaultInfo where
  code : Nat
  /-- 0 dispatcher, 1 core, 2 engine queue entry, 3 commit gate or tithe. -/
  source : Nat
  queue : Nat
  qindex : Nat
  tag : Nat
  pc : Nat
  detail : Nat
  addr : Nat
  deriving DecidableEq, Repr

/-- A trace record waiting for the ring: the trace mode of its gang, its 32 bytes, and the fault report of tile `t` that
waits for it (R174, R175). -/
structure TraceEvent where
  mode : Nat
  bytes : List Byte
  fault : Option (Nat × FaultInfo)
  deriving DecidableEq, Repr

/-! ### Tithe -/

/-- How a sync entry ended (R277). -/
inductive SyncResult where
  | ok | timeout | participantLost | ownerLost
  deriving DecidableEq, Repr

/-- The result and status word that a sync entry of a sampled step ended with, by its place in the queue (R400). -/
structure HeldWait where
  qindex : Nat
  result : SyncResult
  word : List Byte
  deriving DecidableEq, Repr

/-- One write of a sampled step, as its signature records it (R404): source 0 core or 1 + queue, entry, kind, blight,
address, byte mask, data. -/
structure WriteRec where
  source : Nat
  entry : Nat
  kind : Nat
  blight : Bool
  addr : Nat
  mask : Nat
  data : List Byte
  deriving DecidableEq, Repr

/-- What a run in check mode has written: its records, its overlay of the primary's pillar, and the sync entries it has
completed (R403 to R405). -/
structure RunRec where
  writes : List WriteRec
  overlay : List (Nat × Line)
  syncs : Nat
  deriving DecidableEq, Repr

/-- A run that has written nothing. -/
def RunRec.reset : RunRec := { writes := [], overlay := [], syncs := 0 }

/-- Where the check of a sampled step stands (R399 to R414, R425). -/
inductive CheckPhase where
  /-- The primary has started its step and asks for a shadow place. -/
  | asking
  /-- The shadow's run has not ended. -/
  | sampling
  /-- A referee is wanted (R408). -/
  | refereeWanted
  /-- The referee's run and the shadow's repeat are going on. -/
  | refereeRun
  /-- Struck tiles repeat the step (R413). -/
  | repeats
  /-- A struck primary of a STEP-REPLAY gang is to replay, and is replaying (R425). -/
  | replayDue
  | replay
  /-- The replay failed: the tile is being remapped, and the spare executes the step (R425). -/
  | spareWait
  | spareRun
  /-- In the view that a run in check mode has of the step (R405). -/
  | run
  deriving DecidableEq, Repr

/-- A line that an entry of a sampled step has read from outside its tile: the entry by its queue and its place in it, and
the line as `Entry.got` names it (R400). -/
structure HeldRead where
  q : Nat
  qindex : Nat
  node : Nat
  addr : Nat
  line : Line
  deriving DecidableEq, Repr

/-- A sampled step: its places, its start state and its log (R399, R400). -/
structure TitheStep where
  phase : CheckPhase
  shadow : Option Nat
  referee : Option Nat
  /-- The runs that have started and not ended (R405). -/
  runs : List RunKind
  /-- The primary's state at step start: registers, instruction memory, bin, crib, lattice, sinks, leaves. -/
  start : Tile
  /-- Lines of the bin (0 to 4,095) and the crib (from 4,096 on) that the step has read or written, in that order, and how
  many of them have been sent to the hold and the shadow (R400). -/
  lines : List Nat
  sent : Nat
  /-- The lines that its copies and carts have read from outside the tile, in order of arrival (R400). -/
  data : List HeldRead
  /-- Own-pillar codewords as they were before the step's first write to each, by offset (R400). -/
  before : List (Nat × Line)
  /-- Sync entries that the step has completed, and the staged lines applied to the primary's bin or pillar, each with that
  number at the time, its bytes and their mask (R400). -/
  syncs : Nat
  applied : List (Nat × LineDest × Nat × Line)
  /-- How its sync entries ended, in order (R400). -/
  waits : List HeldWait
  /-- What each run under way has written (R405). -/
  recs : List (RunKind × RunRec)
  /-- The tile's core and engines in a repeat that a struck primary makes in its own tile (R414). -/
  scratch : Option Tile
  /-- The step's writes; a record of kind 5 only marks an entry's place in issue order (R404). The writes of executions of the
  step before the one under way, oldest first (R412, R425). -/
  writes : List WriteRec
  earlier : List WriteRec
  /-- Bytes of data sent to the hold, and a bound on the bytes of everything in it whose size the manual does not give
  (R401). -/
  used : Nat
  extra : Nat
  /-- The hold is complete (R405). -/
  complete : Bool
  sigP : BitVec 64
  /-- The shadow's and referee's signatures when their runs have ended. -/
  sigS : Option RunSignature
  sigR : Option RunSignature
  /-- Struck tiles still to repeat, in order, and the repeats that have ended, by tile (R413, R414). -/
  repeats : List Nat
  got : List (Nat × RunSignature)
  /-- The primary is one of the struck tiles of a CHECKPOINT gang, whose gang faults once its repeat ends (R426). -/
  restart : Bool
  /-- The gate has aborted: only the repeats go on (R410). -/
  dropped : Bool
  deriving DecidableEq, Repr

/-- A step that starts sampled, from the tile's state. -/
def TitheStep.begin (x : Tile) : TitheStep :=
  { phase := .asking, shadow := none, referee := none, runs := [], start := x, lines := [], sent := 0, data := [], before := [],
    syncs := 0, applied := [], waits := [], recs := [], scratch := none, writes := [], earlier := [], used := 0,
    extra := 0, complete := false, sigP := 0, sigS := none, sigR := none, repeats := [], got := [], restart := false,
    dropped := false }

/-- Is the step being executed again with its reads served from the hold (R405, R425)? -/
def CheckPhase.replaying : CheckPhase → Bool
  | .replay => true
  | .spareRun => true
  | .run => true
  | _ => false

/-- Is the step's execution recorded: its first run, or a replay of it? -/
def CheckPhase.logging : CheckPhase → Bool
  | .asking => true
  | .sampling => true
  | .replay => true
  | .spareRun => true
  | .run => true
  | _ => false

/-- The tithe logic (R396 to R414). -/
structure Tithe where
  /-- Sampled steps by primary's physical tile. -/
  steps : List (Nat × TitheStep)
  /-- The rotation of R399: for each gang the step epoch last drawn and the grants made for it. -/
  cursor : SMap (BitVec 32 × Nat)
  deriving DecidableEq, Repr

/-- No step sampled. -/
def Tithe.reset : Tithe := { steps := [], cursor := [] }

/-! ### The fence map -/

/-- A fence in progress or waiting (R415, R418). -/
structure FenceJob where
  pt : Nat
  pillar : Bool
  /-- The steward has begun the fence; it is stopping the tile's gang (R416). -/
  begun : Bool
  stopping : Bool
  /-- The tile was fallow before. -/
  wasFallow : Bool
  deriving DecidableEq, Repr

/-- The fence map and what has been fenced (R22, R35, R415 to R418). The compute-enable bit of an entry is derived: it
is set while the fuse bits allow and the physical tile is not fallow (R8). -/
structure Fence where
  /-- The physical tile of each logical tile, where it differs from the default map. -/
  map : SMap Nat
  fallow : SMap Bool
  /-- Fenced pillars, and those fenced in place, which answer blighted and discard writes (R418). -/
  pfenced : SMap Bool
  inPlace : SMap Bool
  queue : List FenceJob
  deriving DecidableEq, Repr

/-- The default fence map of R22. -/
def fmapDefault (l : Nat) : Nat := 272 * (l / 256) + l % 256

/-- Nothing fenced. -/
def Fence.reset : Fence := { map := [], fallow := [], pfenced := [], inPlace := [], queue := [] }

/-- The fuses of the modelled part before any are sensed: a CM384-F, serial 0, no key hashes, all compute enabled
(DESIGN CHOICE: the part's fuses are its own). (log 11: DESIGN CHOICE) -/
def fusesReset : Fuses :=
  { grade := 1, serial := 0, minSvn := 0, mkeyHash := 0, dkeyHash := 0, cen := BitVec.allOnes 4096,
    pcen := BitVec.allOnes 4352 }

/-! ### The steward -/

/-- The kinds of boot (R442, R458). -/
inductive BootKind where
  | full | warm
  deriving DecidableEq, Repr

/-- Where a live change stands (R453, R455). -/
inductive JobPhase where
  /-- Waiting for a sweep or a fence, or for its first step (R457). -/
  | queued
  /-- MANIFEST_STAGE reads its image (R456). -/
  | reading
  /-- Gangs are being stopped at step boundaries. -/
  | quiescing
  /-- The change itself is being made; a regulator is awaited in VF_SET. -/
  | changing
  /-- VF_SET restores the previous operating point (R455). -/
  | restoring
  /-- The change has ended with this result and is to be reported by UPKEEP_DONE. -/
  | ended (result : Nat)
  deriving DecidableEq, Repr

/-- A live change (R453). -/
structure Upkeep where
  op : Nat
  arg : Nat
  phase : JobPhase
  deriving DecidableEq, Repr

/-- Where a sweep stands, by the steps of its table (R420). -/
inductive SweepStep where
  /-- Steps 1 and 2: runs end and gangs stop. -/
  | stopping
  /-- Step 4: the rail has been commanded down, after step 3 has saved the bins and cribs. -/
  | lowering
  /-- Steps 5 and 6: heating and tests. -/
  | testing
  /-- Step 7: the rail has been commanded back. -/
  | restoring
  /-- Step 8. -/
  | restored
  deriving DecidableEq, Repr

/-- The sweep in progress (R420 to R422). -/
structure SweepWork where
  step : SweepStep
  /-- The three spare pillars that hold the bins and cribs, and the gang tiles whose they are, in order. -/
  pillars : List Nat
  saved : List Nat
  /-- VDDT in mV and TCLK in 100 kHz as they were. -/
  mv : Nat
  freq : Nat
  /-- It has failed and will be skipped once its settings are restored. -/
  skip : Bool
  /-- Tiles that took a strike outside the tests, oldest first (R421). -/
  struck : List Nat
  deriving DecidableEq, Repr

/-- A sweep that has changed nothing. -/
def SweepWork.reset : SweepWork :=
  { step := .stopping, pillars := [], saved := [], mv := 0, freq := 0, skip := false, struck := [] }

/-- What one SPDM transport has negotiated (R446, R447). -/
inductive SpdmPhase where
  | start | versioned | capable | negotiated
  deriving DecidableEq, Repr

/-- One SPDM transport: its phase and its transcript, in the parts that signatures cover: the messages that settled version,
capabilities and algorithms; those of digests and certificates; those of measurements since the last signature (R446,
R447). -/
structure Spdm where
  phase : SpdmPhase
  vca : List Byte
  certs : List Byte
  meas : List Byte
  deriving DecidableEq, Repr

/-- Nothing negotiated. -/
def Spdm.reset : Spdm := { phase := .start, vca := [], certs := [], meas := [] }

/-- The TAP instructions a locked port offers (R448). -/
inductive TapIr where
  | bypass | idcode | samplePreload | extest | clamp | highz | unlockNonce | unlock
  deriving DecidableEq, Repr

/-- The steward, its key store, the pins and the TAP (R434 to R460, R486 to R495). Stage, state, slot and the live
change's status are registers of the STEWARD page. -/
structure Steward where
  /-- PWR_OK is asserted. -/
  powered : Bool
  /-- PERST0#, PERST1# are asserted. -/
  perst0 : Bool
  perst1 : Bool
  /-- The kind of the boot in progress or last made; a boot may advance. -/
  boot : BootKind
  booting : Bool
  /-- Stage 2 has been completed since the last reset of the host ports (R442). -/
  linked : Bool
  /-- The flash as last discovered or programmed (R435, R456). -/
  flash : FlashImage
  /-- The slot being validated or in use, the slots found bad in this boot, and the manifest read (R440). -/
  slot : Nat
  triedSlots : List Nat
  manifest : List Byte
  /-- Write entries of the running stage applied so far (R444); the boot operating points have been commanded (R486). -/
  applied : Nat
  commanded : Bool
  /-- The boot has been restarted from the other slot (R444). -/
  fellBack : Bool
  /-- M0 to M7 (R441). -/
  meas : SMap (BitVec 512)
  /-- The private identity key in the key store; PUF derivation is enabled (R445, R449). -/
  key : Option (BitVec 521)
  puf : Bool
  /-- Scopes opened at the debug port (R449). -/
  scopes : Nat
  nonce : Option (BitVec 256)
  /-- Memory_Active of DVSEC range 1 (field) and range 2 (barn) (R374). -/
  fieldActive : Bool
  barnActive : Bool
  /-- THERMTRIP# and ALERT# are asserted (R452, R492). -/
  thermtrip : Bool
  alert : Bool
  /-- Readings of the last sample (R451). -/
  temps : Readings
  /-- VDDT of each paddock in mV, and its operating point (R438, R486). -/
  vddt : SMap Nat
  opPoint : SMap Nat
  /-- Paddocks whose refresh interval is to be halved from the next due time on (R81). -/
  hotNext : SMap Bool
  /-- A regulator's command is not yet reported settled (R486). -/
  settling : SMap Bool
  /-- What VOUT_MODE of each regulator read in this boot, plus one; zero before it is read (R486). -/
  voutMode : SMap Nat
  /-- PLLs, by CLOCK page, that have lost lock or are stopped (R476, R452). -/
  unlocked : SMap Bool
  upkeep : Option Upkeep
  /-- The lines that MANIFEST_STAGE has read of its image (R456). -/
  image : Option (List (Nat × Line))
  /-- The paddock under a sweep, and how far it is (R420). -/
  sweep : Option Nat
  sweepWork : SweepWork
  /-- Paddocks whose sweep has been requested and not begun, in order (R419). -/
  sweepDue : List Nat
  /-- Paddocks whose sweep was skipped and is to be tried again, the first skipped first (R422). -/
  sweepRetry : List Nat
  /-- Paddock resets that wait for the work on their paddock to end (R457). -/
  resetWaiting : List Nat
  doe : Spdm
  mctp : Spdm
  tap : TapIr
  bypassBit : Bool
  boundary : List Bool
  /-- The module is stopped by EXTEST, CLAMP or HIGHZ until the TAP is reset (R448). -/
  tapStopped : Bool
  /-- The dynamic I3C address (R492). -/
  i3c : Option (BitVec 7)
  /-- Set Alert Configuration's settings (R389). -/
  alertCfg : List Byte
  deriving DecidableEq, Repr

/-- The steward just after a power-on reset: PWR_OK is asserted, both PERST# still are (R487), nothing is measured. -/
def Steward.reset : Steward :=
  { powered := true, perst0 := true, perst1 := true, boot := .full, booting := false, linked := false,
    flash := { found := false, slotA := [], slotB := [], cert := [] }, slot := 0, triedSlots := [], manifest := [],
    applied := 0, commanded := false, fellBack := false,
    meas := [], key := none, puf := true, scopes := 0, nonce := none, fieldActive := false, barnActive := false,
    thermtrip := false, alert := false, temps := { base := [], field := [], barn := [] }, vddt := [],
    opPoint := [], hotNext := [], settling := [], voutMode := [], unlocked := [], upkeep := none, image := none, sweep := none,
    sweepWork := .reset, sweepDue := [], sweepRetry := [], resetWaiting := [],
    doe := .reset, mctp := .reset, tap := .idcode,
    bypassBit := false, boundary := [], tapStopped := false, i3c := none, alertCfg := [] }

/-- Event logs with no record. The first handle is 1: CXL 3.1 reserves handle 0. -/
def EventLogs.reset : EventLogs := { recs := [], overflow := [], nextHandle := 1 }

/-- Straps left open or tied to VSS, and every reference clock there: the carrier ties and feeds them. (log 10: DEDUCED) -/
def strapsLow : Straps :=
  { originX := false, originY := false, originZ := false, i3cSa := 0, testen := false, refC := true, refL := true,
    refH0 := true, refH1 := true }

/-! ### The block -/

/-- The state of the block. -/
structure State where
  /-- Commands waiting, first in, first out. -/
  pending : List Instr
  /-- The model's own field: how many free values have been taken (Config.free). -/
  fresh : Nat
  /-- Page registers that differ from their reset value, by BAR0 offset (R461). -/
  regs : SMap Reg
  tiles : SMap Tile
  pillars : SMap Pillar
  channels : SMap Channel
  /-- Field memory by physical tile: key `pt × 2^25 + offset`; check bytes at `8 × codeword + m` (R57 to R61). -/
  fieldData : SMap Byte
  fieldCheck : SMap Byte
  /-- Barn memory by barn offset, and its check bytes (R296, R298). -/
  barnData : SMap Byte
  barnCheck : SMap Byte
  gangs : SMap Gang
  /-- The queue the dispatcher served last (R141). -/
  lastQueue : Nat
  disp : Dispatch
  /-- REQ messages to pillars and barn controllers that are on the mesh, in the order sent (R23, R69, R302). -/
  mesh : List MemReq
  /-- What took the last place that came free in a pillar queue or barn lane: 0 H0, 1 H1, 2 the mesh; and the head that took
  one last (R378). -/
  lastSource : Nat
  lastHead : Nat
  tally : TallyNet
  h0 : HostPort
  h1 : HostPort
  events : EventLogs
  /-- Which logging holds the location register of a PADDOCK or BARN page, by page offset (R465): 1 ERR_FIRST, 2
  ERR_NEXT. -/
  locHeld : SMap Nat
  fuses : Fuses
  /-- Have the fuses been sensed: their contents cannot change in the field (R7). -/
  sensed : Bool
  fence : Fence
  ridge : Ridge
  tithe : Tithe
  /-- Trace records not yet written, oldest first (R174). -/
  traceQ : List TraceEvent
  /-- Straps as last sampled (R493). -/
  straps : Straps
  st : Steward
  out : List Output
  deriving DecidableEq, Repr

/-- The block right after a power-on reset: every register at its reset value, every memory empty, boot stage 0, both
PERST# asserted, no command waiting (R442, R458, R470, R487). (log 9: DESIGN CHOICE, 10: DEDUCED) -/
def State.reset : State :=
  { pending := [], fresh := 0, regs := [], tiles := [], pillars := [], channels := [], fieldData := [], fieldCheck := [],
    barnData := [], barnCheck := [], gangs := [], lastQueue := 63, disp := .reset, mesh := [], lastSource := 2, lastHead := 1,
    tally := .reset, h0 := .reset, h1 := .reset, events := .reset, locHeld := [], fuses := fusesReset, sensed := false,
    fence := .reset, ridge := .reset, tithe := .reset, traceQ := [], straps := strapsLow, st := .reset, out := [] }

end Sys2Proof.Machine
end

