-- ==== Sys2Proof/WellFormed.lean ====
section
/-! DEFINITION. Which units the module has (R18, R20, R461), and which commands name units that it has. A command on a
unit that does not exist stops by `Fault.noSuchUnit`; every other command takes its effect. -/

namespace Sys2Proof

/-- Is `t` a physical tile (R18)? -/
def isTile (t : Nat) : Bool := t < 4352
/-- A receiver of remote writes: a tile, or 4,352 for barn staging (R252, R349). -/
def isReceiver (t : Nat) : Bool := t ≤ 4352
/-- A host head (R368). -/
def isHead (h : Nat) : Bool := h < 2
/-- A paddock (R18). -/
def isPaddock (p : Nat) : Bool := p < 16
/-- A barn channel (R296). -/
def isChannel (c : Nat) : Bool := c < 64
/-- A ridge port (R325). -/
def isPort (p : Nat) : Bool := p < 6
/-- A sheaf queue (R137). -/
def isSheafQueue (q : Nat) : Bool := q < 64
/-- An engine queue (R109). -/
def isEngineQueue (q : Nat) : Bool := q < 6
/-- A TALLY page: a paddock's, or 16 for the apex (R461). -/
def isTallyPage (p : Nat) : Bool := p ≤ 16
/-- A CLOCK page (R461). -/
def isClock (k : Nat) : Bool := k < 40

/-- A part of the tally tree that exists (R266). -/
def isTallyPart : TallyPart → Bool
  | .node p => isPaddock p
  | .apex => true
  | .leaf t => isTile t

/-- The command names units that the module has: a tile, a head, a queue, a gang, a vector, a tally, a flag, a channel and its
bank, a port and its virtual channel, a register page, a BAR0 address below 64 MiB (or one of the two controls that
stand beside BAR0). -/
def Instr.wf : Instr → Bool
  | .add t .. | .sub t .. | .andR t .. | .orR t .. | .xorR t .. | .sll t .. | .srl t .. | .sra t .. | .slt t .. |
    .sltu t .. | .min t .. | .max t .. | .minu t .. | .maxu t .. | .mul t .. | .mulh t .. | .mulhu t .. |
    .clz t .. | .popc t .. | .addi t .. | .andi t .. | .ori t .. | .xori t .. | .slti t .. | .sltiu t .. |
    .slli t .. | .srli t .. | .srai t .. | .lui t .. | .ldw t .. | .ldh t .. | .ldhu t .. | .ldb t .. |
    .ldbu t .. | .stw t .. | .sth t .. | .stb t .. | .beq t .. | .bne t .. | .blt t .. | .bge t .. | .bltu t .. |
    .bgeu t .. | .j t .. | .jal t .. | .jalr t .. | .loop t .. | .mfts t .. | .mtts t .. | .enq t .. |
    .enqStallEnd t | .waitq t .. | .waitqSatisfied t | .commit t | .halt t | .faultI t .. | .trace t .. |
    .illegalInstr t .. | .pillarStreamRead t .. | .streamMm t .. | .blockMm t .. | .ew t .. | .scan t .. |
    .reduce t .. | .convert t .. | .attn t .. | .smMerge t .. | .smFinal t .. | .copy t .. | .permute t .. |
    .gather t .. | .scatter t .. | .arrive t | .waitTally t | .flagAdd t | .flagWait t | .syncTimeout t |
    .gateRelease t | .gateAbort t | .stageAck t .. | .slotAdmit t | .pillarAccessDone t .. | .gleanVisit t .. |
    .gleanEscalate t | .beatCounterWrap t | .cycleCounterWrap t | .titheGrant t | .holdSend t |
    .titheRunStart t .. | .titheRunEnd t .. | .stepReplay t .. | .titheStall t |
    .ridgeTimeout t .. => isTile t
  | .refereeGrant t => isTile t.val
  | .entryStart t q | .entryComplete t q => isTile t && isEngineQueue q
  | .remoteWriteStage t .. | .stageRoomFree t | .stageFull t .. | .stageCommit t .. |
    .stageAbort t .. => isReceiver t
  | .doorbellWrite h q .. | .cqHeadWrite h q .. | .queueEnable h q .. | .queueDisable h q .. |
    .queueReset h q .. => isHead h && isSheafQueue q
  | .sheafTake q .. => isSheafQueue q
  | .sheafComplete g .. => g < 256
  | .gangReset h .. | .flogEnable h .. | .traceEnable h .. | .traceRestart h .. | .memRd h .. | .memRdData h .. |
    .memSpecRd h .. | .memInv h .. | .memInvNt h .. | .memClnEvct h .. | .memWr h .. | .memWrPtl h .. |
    .cxlProto h .. | .hostMemResponse h | .hostLinkUp h .. | .hostPortReset h .. | .flr h | .getEventRecords h .. |
    .clearEventRecords h .. | .getEventInterruptPolicy h | .setEventInterruptPolicy h .. | .getSupportedLogs h |
    .getLog h .. | .identifyMemoryDevice h | .getPartitionInfo h | .getHealthInfo h | .getAlertConfiguration h |
    .setAlertConfiguration h .. | .injectPoison h .. | .clearPoison h .. | .mailboxUnsupported h .. |
    .doeDiscovery h .. | .tableAccess h .. | .granarySnapshotRequest h .. | .restore h .. | .cperEnable h .. |
    .fenceRequest h .. | .sweepRequest h .. | .upkeepInvalidOp h .. | .upkeepBusy h .. | .warmReset h .. |
    .paddockReset h .. | .resetBusy h .. | .ridgeOverride h .. | .stagePurge h .. => isHead h
  | .traceRecord | .tempSample .. | .getVersion .. | .getCapabilities .. | .negotiateAlgorithms .. |
    .getDigests .. | .getCertificate .. | .challenge .. | .getMeasurements .. | .spdmUnsupported .. |
    .fenceRemap .. | .sweepStart .. | .paddockRecal | .tileSwap .. | .manifestStage .. | .vfSet | .upkeepDone |
    .upkeepQuiesceTimeout | .pwrOkRise .. | .pwrOkFall | .perst0Assert | .perst0Deassert .. | .bootFuseSense .. |
    .bootLinkStart | .bootSlotHeaders .. | .bootManifestRead | .bootManifestVerify | .bootApply |
    .manifestWaitTimeout | .bootBarnTrain .. | .bootBarnActive | .bootPillarCal | .bootFieldReady |
    .furrowWalkStart | .walkTimeout | .unlockNonce | .unlock .. | .extest | .clamp | .highz | .bypass .. |
    .idcode | .samplePreload .. | .tapReset .. | .perst1Deassert | .sweepQuiesceTimeout |
    .dynamicAddressAssignment .. => true
  | .tileReset h t .. => isHead h && isTile t
  | .modeSelect h p .. => isHead h && isPaddock p
  | .modeSwitchDone p | .vrSettleTimeout p | .vrSettled p => isPaddock p
  | .refreshDue t b | .forcedRefresh t b => isTile t && b < 8
  | .hostRequestAge c lane .. => isChannel c && lane < 2
  | .hdmCommit h d .. => isHead h && d < 2
  | .msixUnmask h n .. => isHead h && n < 72
  | .tallyBind h p n .. | .tallyUnbind h p n .. => isHead h && isTallyPage p && n < 64
  | .crewTallyBind h n .. => isHead h && n < 64
  | .tallyArrival p .. | .tallyWithdrawal p .. => isTallyPage p
  | .tallyRelease p .. => isTallyPart p
  | .flagUpdate f => f < 128
  | .flagWrite h f .. | .flagOwnerWrite h f .. => isHead h && f < 128
  | .sweepDone m => m.all fun x => isTile x.1
  | .barnRequestAccept c .. | .barnMergeReadDone c .. | .barnWriteDrain c .. | .selfRefreshEntry c |
    .selfRefreshExit c | .barnScrub c .. | .corrWindowEnd c | .barnRetrain c .. => isChannel c
  | .barnReadDone c b .. | .barnRefreshDue c b | .barnForcedRefresh c b => isChannel c && b < 32
  | .bankhashWrite h c i .. => isHead h && isChannel c && i < 5
  | .ridgeRetrain p .. | .ridgeLinkUp p | .dataFlitReceive p .. | .nakReceive p .. | .ackReceive p .. |
    .idleFlitTimer p | .ackTimer p | .nakRepeat p | .linkDown p | .rxseqTimeout p => isPort p
  | .pllUnlock k | .pllRelock k | .pllRelockTimeout k => isClock k
  | .rrd p vc | .ridgeCommit p vc => isPort p && vc.val < 8
  | .creditReturn p vc .. | .rwr p vc | .rrsp p vc | .wack p vc | .ridgeAbort p vc | .cack p vc | .tarrive p vc | .trelease p vc | .twithdraw p vc | .tlost p vc |
    .flagadd p vc | .lhello p vc | .furrow p vc | .furrowend p vc | .ringinfo p vc | .linkdownPkt p vc |
    .sealPkt p vc | .packetBad p vc => isPort p && vc < 8
  | .ridgePortDisable h p .. | .ridgePortEnable h p .. => isHead h && isPort p
  | .quiesceRequest h a .. | .errClear h a .. | .errInject h a .. => isHead h && (Machine.pageAt a).isSome
  | .counterClear h a .. | .unmapped h a .. => isHead h && a < 0x4000000
  | .accessWidth h a .. | .registerWrite h a .. => isHead h && a < 0x4001000

end Sys2Proof
end

