-- ==== Sys2Proof/Machine/Ops.lean ====
section
/-! DEFINITION. The operations every family shares: units and their bounds, registers, vectors, event records, cause
logging, CPER records, the fence map, and reading and writing one codeword of field or barn memory. -/

namespace Sys2Proof.Machine

/-- The outcome type of a command. -/
abbrev Res := Host.Outcome State Fault Refusal

/-- A command on a unit that exists takes its effect; on one that does not, it stops. (log 2: DESIGN CHOICE) -/
def guardUnit (ok : Bool) (s : State) : Res := if ok then .next s else .fault .noSuchUnit

/-- The paddock of a physical tile (R18). -/
def paddockOf (t : Nat) : Nat := t / 272

namespace State

/-! ### Arrays of units -/

/-- The state of physical tile `t`. -/
def tile (s : State) (t : Nat) : Tile := SMap.look Tile.reset s.tiles t

/-- Replace physical tile `t`. -/
def setTile (s : State) (t : Nat) (x : Tile) : State := { s with tiles := SMap.put Tile.reset s.tiles t x }

/-- Change physical tile `t`. -/
def onTile (s : State) (t : Nat) (f : Tile → Tile) : State := s.setTile t (f (s.tile t))

/-- The pillar controller of physical tile `t`. -/
def pillar (s : State) (t : Nat) : Pillar := SMap.look Pillar.reset s.pillars t

/-- Change the pillar controller of physical tile `t`. -/
def onPillar (s : State) (t : Nat) (f : Pillar → Pillar) : State :=
  { s with pillars := SMap.put Pillar.reset s.pillars t (f (s.pillar t)) }

/-- Barn channel `c`. -/
def channel (s : State) (c : Nat) : Channel := SMap.look Channel.reset s.channels c

/-- Change barn channel `c`. -/
def onChannel (s : State) (c : Nat) (f : Channel → Channel) : State :=
  { s with channels := SMap.put Channel.reset s.channels c (f (s.channel c)) }

/-- Gang `g`. -/
def gang (s : State) (g : Nat) : Gang := SMap.look Gang.reset s.gangs g

/-- Change gang `g`. -/
def onGang (s : State) (g : Nat) (f : Gang → Gang) : State :=
  { s with gangs := SMap.put Gang.reset s.gangs g (f (s.gang g)) }

/-- Host port `h`. -/
def host (s : State) (h : Nat) : HostPort := if h = 0 then s.h0 else s.h1

/-- Change host port `h`. -/
def onHost (s : State) (h : Nat) (f : HostPort → HostPort) : State :=
  if h = 0 then { s with h0 := f s.h0 } else { s with h1 := f s.h1 }

/-- Send an output. (log 85: DESIGN CHOICE) -/
def emit (s : State) (o : Output) : State := { s with out := s.out ++ [o] }

/-- Take a free value of `w` bits (the spec gives none): the value and the state that has taken it. (log 7: DESIGN
CHOICE) -/
def takeFree (s : State) (w : Nat) : BitVec w × State := (Config.free w s.fresh, { s with fresh := s.fresh + 1 })

/-! ### Registers -/

/-- The stored value of the register at BAR0 offset `a`. (log 12: DESIGN CHOICE) -/
def reg (s : State) (a : Nat) : Nat := (SMap.look (regReset a) s.regs a).toNat

/-- Store a register. -/
def setReg (s : State) (a v : Nat) : State := { s with regs := SMap.put (regReset a) s.regs a (BitVec.ofNat 64 v) }

/-- Bits `[hi:lo]` of a register. -/
def getF (s : State) (a hi lo : Nat) : Nat := bits (s.reg a) hi lo

/-- Replace bits `[hi:lo]` of a register. -/
def setF (s : State) (a hi lo v : Nat) : State :=
  let old := s.reg a
  s.setReg a (old - bits old hi lo * 2 ^ lo + v % 2 ^ (hi + 1 - lo) * 2 ^ lo)

/-- Add `n` to the saturating counter in bits `[hi:lo]` of a register (R53). -/
def addF (s : State) (a hi lo n : Nat) : State :=
  s.setF a hi lo (min (2 ^ (hi + 1 - lo) - 1) (s.getF a hi lo + n))

/-- Keep the highest value in bits `[hi:lo]` of a register. -/
def peakF (s : State) (a hi lo n : Nat) : State := s.setF a hi lo (max (s.getF a hi lo) n)

/-! ### Clocks (R476) -/

/-- Has the PLL of CLOCK page `k` lost lock, so that the domain's clock stands still? Pages 0 to 15 are TCLK, 16 to 31 ACLK, 32
to 35 BCLK, 36 HCLK and 37 LCLK (R49, R476). -/
def pllLost (s : State) (k : Nat) : Bool := SMap.look false s.st.unlocked k

/-- What a row of the clock domain `k` does: nothing while its clock stands still; it is given again once the PLL has relocked.
(log 83: DEDUCED) -/
def inClock (s : State) (k : Nat) (s' : State) : State := if s.pllLost k then s else s'

/-! ### MSI-X vectors -/

/-- Is head `h` up with MSI-X Enable set (R394)? -/
def headSends (s : State) (h : Nat) : Bool := s.getF ((Page.host h).base + 0x040) 2 0 = 2 && (s.host h).msixEnable

/-- Is vector `v` masked at head `h` (R394)? -/
def vectorMasked (s : State) (h v : Nat) : Bool :=
  (s.host h).functionMask || s.getF ((Page.host h).base + 0x800 + 16 * v + 12) 0 0 = 1

/-- Send vector `v` through the chosen head, or set its pending bit there (R394). -/
def sendVector (s : State) (v : Nat) : State :=
  let go := fun (h : Nat) =>
    if s.vectorMasked h v then
      s.onHost h fun p => if p.msixPending.contains v then p else { p with msixPending := p.msixPending ++ [v] }
    else s.emit (.msix h v)
  if s.headSends 0 then go 0 else if s.headSends 1 then go 1 else s

/-- Raise error vector 64 to 71 when its bit of `GLOBAL.VEC_EN` is set (R472). (log 23: DEDUCED) -/
def raise (s : State) (v : Nat) : State :=
  if bit (s.getF 0x58 7 0) (v - 64) then s.sendVector v else s

/-! ### Event records (R390) -/

/-- The kind number of an event body, for `Config.eventLog`. -/
def eventKind : EventBody → Nat
  | .media _ => 0
  | .thermal _ => 1
  | .vendor _ => 2

/-- Add a record to its log: 64 records at most, then the overflow count; vector 69 when a head's policy selects MSI-X
for the log (R389, R390, R472). -/
def addEvent (s : State) (b : EventBody) : State :=
  let log := Config.eventLog (eventKind b) % 4
  let recs := SMap.look [] s.events.recs log
  let s :=
    if recs.length < 64 then
      { s with events :=
        { s.events with
          recs := SMap.put [] s.events.recs log (recs ++ [⟨s.events.nextHandle, b⟩])
          nextHandle := s.events.nextHandle + 1 } }
    else
      { s with events :=
        { s.events with overflow := SMap.put 0 s.events.overflow log (SMap.look 0 s.events.overflow log + 1) } }
  if (s.h0.policy.getD log 0).toNat % 4 = 1 ∨ (s.h1.policy.getD log 0).toNat % 4 = 1 then s.raise 69 else s

/-! ### Logging a cause (R465) -/

/-- An ERR_FIRST or ERR_NEXT value. -/
def errWord (c : Cause) (injected : Bool) (detail : Nat) : Nat :=
  2 ^ 31 + detail % 2 ^ 15 * 2 ^ 16 + b2n injected * 2 ^ 8 + c.row.1

/-- Log cause `c` in page `p` by steps 1 to 5 of R465. Answers which register the logging belongs to: 0 masked, 1
ERR_FIRST, 2 ERR_NEXT (or kept in neither, which clearing ERR_NEXT releases). -/
def logAs (s : State) (p : Page) (c : Cause) (injected : Bool) (detail : Nat) : Nat × State :=
  let a := p.base
  if bit (s.reg (a + 0x1C)) c.row.2.1 then (0, s)
  else
    let w := errWord c injected detail
    let (slot, s) :=
      if s.getF (a + 0x14) 31 31 = 0 then (1, s.setReg (a + 0x14) w)
      else if s.getF (a + 0x18) 31 31 = 0 then (2, s.setReg (a + 0x18) w)
      else (2, s.setF (a + 0x18) 9 9 1)
    let before := s.getF (a + 0x24) 15 0
    let s := s.addF (a + 0x24) 15 0 1
    let s := if before = 0xFFFE then s.raise 65 else s
    let s := if c.row.2.2 ≠ 0 ∧ s.getF (a + 0x0C) 0 0 = 1 then s.raise c.row.2.2 else s
    (slot, s)

/-- Log a cause with DETAIL zero. -/
def log (s : State) (p : Page) (c : Cause) : State := (s.logAs p c false 0).2

/-- Log a cause that records a location in a register of the page, when that register holds none unread (R465). -/
def logAt (s : State) (p : Page) (c : Cause) (off loc : Nat) : State :=
  let (slot, s) := s.logAs p c false 0
  if slot = 0 ∨ SMap.look 0 s.locHeld p.base ≠ 0 then s
  else { s.setReg (p.base + off) loc with locHeld := SMap.put 0 s.locHeld p.base slot }

/-! ### The fence map (R35, R8) -/

/-- The physical tile that serves logical tile `l`. -/
def ptileOf (s : State) (l : Nat) : Nat := SMap.look (fmapDefault l) s.fence.map l

/-- The logical tile that physical tile `t` serves. -/
def ltileOf (s : State) (t : Nat) : Option Nat :=
  ((List.range 256).map (256 * paddockOf t + ·)).find? fun l => s.ptileOf l = t

/-- Is physical tile `t` fallow (R415)? -/
def isFallow (s : State) (t : Nat) : Bool := SMap.look false s.fence.fallow t

/-- The compute-enable bit of logical tile `l`: logical fuse bit, physical fuse bit, not fallow (R8). -/
def computeEnabled (s : State) (l : Nat) : Bool :=
  s.fuses.cen.getLsbD l && s.fuses.pcen.getLsbD (s.ptileOf l) && !s.isFallow (s.ptileOf l)

/-! ### Barn channels and the write queue -/

/-- The channel of barn offset `o` (R298). -/
def channelOf (o : Nat) : Nat := o / 256 % 64

/-- The XOR of the bits of `v` that `mask` selects. -/
def xorBits (v mask : Nat) : Nat := (List.range 30).foldl (fun a j => if bit mask j && bit v j then 1 - a else a) 0

/-- The bank of barn offset `o` under its channel's masks; DPA bit 6 + j is bit j of `dpa / 64` (R299). -/
def bankOf (s : State) (o : Nat) : Nat :=
  let a := (Page.barn (channelOf o)).base
  let v := (o + 0x2000000000) / 64
  (List.range 5).foldl (fun n i => n + 2 ^ i * xorBits v (s.reg (a + 0x44 + 4 * i))) 0

/-- Store a codeword: its data and the check bytes R61 and R63 give it. -/
def storeCw (s : State) (barn : Bool) (cw : Nat) (l : Line) : State :=
  let check := storedCheck l.data l.blight
  if barn then
    { s with barnData := writeBytes s.barnData (64 * cw) l.data, barnCheck := writeBytes s.barnCheck (8 * cw) check }
  else
    { s with fieldData := writeBytes s.fieldData (64 * cw) l.data, fieldCheck := writeBytes s.fieldCheck (8 * cw) check }

/-- The stored data bytes and check bytes of a codeword. (log 38: DESIGN CHOICE) -/
def storedCw (s : State) (barn : Bool) (cw : Nat) : List Byte × List Byte :=
  if barn then (readBytes s.barnData (64 * cw) 64, readBytes s.barnCheck (8 * cw) 8)
  else (readBytes s.fieldData (64 * cw) 64, readBytes s.fieldCheck (8 * cw) 8)

/-- One symbol of a stored codeword changes. -/
def upsetOne (u : Upset) (s : State) : State :=
  if u.sym < 64 then
    let a := 64 * u.cw + u.sym
    if u.barn then { s with barnData := SMap.put 0 s.barnData a (SMap.look 0 s.barnData a ^^^ u.x) }
    else { s with fieldData := SMap.put 0 s.fieldData a (SMap.look 0 s.fieldData a ^^^ u.x) }
  else
    let a := 8 * u.cw + (u.sym - 64) % 8
    if u.barn then { s with barnCheck := SMap.put 0 s.barnCheck a (SMap.look 0 s.barnCheck a ^^^ u.x) }
    else { s with fieldCheck := SMap.put 0 s.fieldCheck a (SMap.look 0 s.fieldCheck a ^^^ u.x) }

/-- The upsets an access finds have happened. -/
def upset (s : State) (env : Env) : State := foldEach env.ups s upsetOne

/-- 64 bytes of no stated value, marked blighted: what a DEAD channel or a pillar fenced in place delivers (R323, R418). -/
def deadLine (s : State) : Line × State :=
  let (v, s) := s.takeFree 512
  (⟨leBytes 64 v.toNat, true⟩, s)

end State

/-! ### Mesh requests (R23, R69, R255, R302) -/

/-- Where a DPA lies: in the pillar of a physical tile, or in barn memory at a barn offset (R59, R298). -/
inductive Loc where
  | field (t off : Nat)
  | barn (o : Nat)
  deriving DecidableEq, Repr

/-- The barn lane of a request: 0 host, 1 ridge, 2 mesh (R302). -/
def MemReq.lane (r : MemReq) : Nat :=
  match r.src with
  | .host _ _ => 0
  | .dropped => 0
  | .ridge _ _ => 1
  | .staged t _ => if t < 4352 then 2 else 1
  | _ => 2

/-- Is a request one of a host? -/
def MemReq.isHost (r : MemReq) : Bool := r.lane = 0

namespace State

/-- Resolve a DPA through the fence map (R35, R59). -/
def locate (s : State) (dpa : Nat) : Option Loc :=
  if dpa < 0x2000000000 then some (.field (s.ptileOf (dpa / 2 ^ 25)) (dpa % 2 ^ 25))
  else if dpa < 0x6000000000 then some (.barn (dpa - 0x2000000000))
  else none

/-- The physical tile at whose mesh stop the controller of barn channel `c` joins the mesh (R21, R295). -/
def channelStop (c : Nat) : Nat := 272 * (4 * (c / 16) + (8 + c % 16) / 16) + 256 + (8 + c % 16) % 16

/-- Do the clocks run on both sides of the crossing that takes a request to its controller: of the mesh stop and the pillars of
the paddock; of the barn stack, and for the mesh lane of the stop where the controller joins (R51, R476)? -/
def crossingRuns (s : State) (r : MemReq) : Bool :=
  match s.locate r.dpa with
  | some (.field t _) => !s.pllLost (paddockOf t) && !s.pllLost (16 + paddockOf t)
  | some (.barn o) =>
    let c := channelOf o
    !s.pllLost (32 + c / 16) && (r.lane ≠ 2 || !s.pllLost (paddockOf (channelStop c)))
  | none => true

/-- Hand a request to its pillar queue or barn lane; none when that is full, or the crossing to it stands still (R476). A line that waits for staging room holds
back the REQ traffic to its tile's stop, but not the lines the tile itself applies (R69, R255, R302). -/
def handOn (s : State) (r : MemReq) : Option State :=
  if !s.crossingRuns r then none
  else
  match s.locate r.dpa with
  | some (.field t _) =>
    let held := match r.src with | .staged _ _ => false | _ => (s.tile t).stageWait ≠ []
    if !held && (s.pillar t).queue.length < 16 then
      some (s.onPillar t fun p => { p with queue := p.queue ++ [r] })
    else none
  | some (.barn o) =>
    let c := channelOf o
    let ch := s.channel c
    if r.lane = 0 then
      if ch.lane0.length < 16 then some (s.onChannel c fun x => { x with lane0 := x.lane0 ++ [r] }) else none
    else if r.lane = 1 then
      if ch.lane1.length < 16 then some (s.onChannel c fun x => { x with lane1 := x.lane1 ++ [r] }) else none
    else if ch.lane2.length < 16 then some (s.onChannel c fun x => { x with lane2 := x.lane2 ++ [r] })
    else none
  | none => none

/-- The place on the mesh at which a request that cannot go on holds back later ones: the stop of its pillar or of its barn
controller, which a tile shares (R21, R23, R295); a staging area's own, and the ridge lane of a controller. -/
def meshStop (s : State) (r : MemReq) : Nat :=
  match s.locate r.dpa with
  | some (.field t _) => (match r.src with | .staged _ _ => 10000 + t | _ => t)
  | some (.barn o) => if r.lane = 1 then 20000 + channelOf o else channelStop (channelOf o)
  | none => 30000

/-- Every mesh request whose queue or lane has room goes on, in the order sent to each stop (R23, R302). (log 87:
DEDUCED) -/
def drainMesh (s : State) : State :=
  let done := s.mesh.foldl
    (fun (acc : State × List MemReq × List Nat) r =>
      let k := s.meshStop r
      if acc.2.2.contains k then (acc.1, acc.2.1 ++ [r], acc.2.2)
      else
        match acc.1.handOn r with
        | some s' => (s', acc.2)
        | none => (acc.1, acc.2.1 ++ [r], k :: acc.2.2))
    (s, [], [])
  { done.1 with mesh := done.2.1 }

/-- Send requests over the mesh. -/
def sendMesh (s : State) (rs : List MemReq) : State := { s with mesh := s.mesh ++ rs }.drainMesh

/-- A request for the line at DPA `dpa`. -/
def meshReq (src : ReqSrc) (op : MemOp) (dpa : Nat) : MemReq := { src, op, dpa := dpa / 64 * 64, aged := false }

/-- The write of some bytes of a line: a whole one when the mask has all 64. -/
def lineWrite (data : List Byte) (mask : Nat) (blight : Bool) : MemOp :=
  if mask % 2 ^ 64 = 2 ^ 64 - 1 then .write data blight false else .partialWrite data (mask % 2 ^ 64) blight false

/-- Write `bytes`, a multiple of 64 long, to whole lines from DPA `dpa` up over the mesh; the vector is raised when the
last is accepted. -/
def postLines (s : State) (dpa : Nat) (bytes : List Byte) (vector : Option Nat) : State :=
  let n := bytes.length / 64
  s.sendMesh ((List.range n).map fun k =>
    meshReq (.post (if k + 1 = n then vector else none)) (.write ((bytes.drop (64 * k)).take 64) false false) (dpa + 64 * k))

/-- Write a 32-byte record at DPA `dpa`, which lies in barn memory. -/
def postHalf (s : State) (src : ReqSrc) (dpa : Nat) (bytes : List Byte) : State :=
  let low := dpa % 64 < 32
  s.sendMesh [meshReq src
    (.partialWrite (if low then padTo 64 bytes else zeros 32 ++ bytes)
      (if low then 2 ^ 32 - 1 else (2 ^ 32 - 1) * 2 ^ 32) false false) dpa]

/-! ### Host panic (R78, R377) -/

/-- Does the fill of head `h` hold host panic (`HOST.INGRESS.PANIC`)? -/
def holdsPanic (s : State) (h : Nat) : Bool := s.getF ((Page.host h).base + 0x4C) 10 10 = 1

/-- Is host panic raised? -/
def hostPanic (s : State) : Bool := s.holdsPanic 0 || s.holdsPanic 1

/-- Is head `h`'s fill above PANIC_HI, below PANIC_LO? -/
def aboveHi (s : State) (h : Nat) : Bool :=
  let hi := s.getF ((Page.host h).base + 0x44) 9 0
  hi < 512 && hi < (s.host h).ingress.length
def belowLo (s : State) (h : Nat) : Bool :=
  let hi := s.getF ((Page.host h).base + 0x44) 9 0
  let lo := s.getF ((Page.host h).base + 0x48) 9 0
  (s.host h).ingress.length < (if hi ≤ lo then hi - 1 else lo)

/-- The fills have changed: panic is raised by a fill above its PANIC_HI, and then each head holds it until its fill is
below its PANIC_LO. (log 24: DEDUCED) -/
def updatePanic (s : State) : State :=
  let on := s.hostPanic || s.aboveHi 0 || s.aboveHi 1
  let hold := fun h => on && !s.belowLo h
  let (a, b) := (hold 0, hold 1)
  (s.setF ((Page.host 0).base + 0x4C) 10 10 (b2n a)).setF ((Page.host 1).base + 0x4C) 10 10 (b2n b)

/-! ### Places that come free (R376, R378) -/

/-- Send a CXL.mem response; its MetaField is No-Op (R379). -/
def respond (s : State) (h tag : Nat) (a : MemAnswer) : State := s.emit (.mem h tag a .noOp)

/-- The front of head `h`'s ingress buffer goes on, if it can: an access to its pillar queue or barn lane, another request
to its answer (R376, R379). -/
def handHead (s : State) (h : Nat) : Option State :=
  match (s.host h).ingress with
  | [] => none
  | w :: rest =>
    if s.pllLost 36 then none
    else
    let take := fun (s : State) => s.onHost h fun p => { p with ingress := rest }
    match w with
    | .access r => (s.handOn r).map take
    | .reply tag a => some ((take s).respond h tag a)
    | .dropped => some (take s)
    | .unsupported tag => some (((take s).log (.host h) .cxlProto).emit (.cxlUnsupported h tag))

/-- The first mesh request that can go on goes on; `seen` are the stops at which an earlier one waits. -/
def handMesh (s : State) (seen : List Nat) : List MemReq → Option (State × List MemReq)
  | [] => none
  | r :: rs =>
    let k := s.meshStop r
    let later := fun (_ : Unit) => (handMesh s (k :: seen) rs).map fun x => (x.1, r :: x.2)
    if seen.contains k then later ()
    else
      match s.handOn r with
      | some s' => some (s', rs)
      | none => later ()

/-- Who is asked for a request, in order: the mesh and the heads in turn, and of the heads the one not served last first, so
that none has precedence (R378). (log 43: DEDUCED) -/
def sources (s : State) : List Nat :=
  let heads := [1 - s.lastHead, s.lastHead]
  if s.lastSource = 2 then heads ++ [2] else 2 :: heads

/-- One request goes on. -/
def serveOne (s : State) : Option State :=
  let go := fun (i : Nat) =>
    if i = 2 then (s.handMesh [] s.mesh).map fun x => { x.1 with mesh := x.2 } else s.handHead i
  s.sources.findSome? fun i =>
    (go i).map fun s' => { s' with lastSource := i, lastHead := if i = 2 then s'.lastHead else i }

/-- Serve up to `n` requests. -/
def serve (s : State) : Nat → State
  | 0 => s
  | n + 1 => match s.serveOne with | some s' => serve s' n | none => s

/-- Room may have come up: the heads and the mesh hand on what they can, and panic follows the fills. (log 43: DEDUCED) -/
def drainHosts (s : State) : State :=
  (s.serve (s.h0.ingress.length + s.h1.ingress.length + s.mesh.length)).updatePanic

end State

/-! ### CPER records (R432, R433) -/

/-- What a CPER record names (R433). -/
structure CperInfo where
  kind : Nat
  paddock : Nat
  ptile : Nat
  ltile : Nat
  gang : Nat
  code : Nat
  epoch : Nat
  addr : Nat
  sp : Nat
  ssh : Nat
  sr : Nat
  strikes : Nat
  transient : Nat

/-- A record that names nothing but its kind. -/
def CperInfo.blank (kind : Nat) : CperInfo :=
  { kind, paddock := 0xFF, ptile := 0xFFFF, ltile := 0xFFFF, gang := 0xFF, code := 0, epoch := 0, addr := 0, sp := 0,
    ssh := 0, sr := 0, strikes := 0, transient := 0 }

/-- The severity of a KIND (R432). -/
def cperSeverity (kind : Nat) : Nat :=
  match kind with
  | 3 => 2
  | 5 => 3
  | 6 => 1
  | 7 => 1
  | 8 => 3
  | _ => 0

/-- The bytes of text. -/
def textBytes (t : String) : List Byte := t.toList.map fun c => BitVec.ofNat 8 c.toNat

/-- FRU text (R433). -/
def fruText (paddock : Nat) : List Byte :=
  padTo 20 (if paddock = 0xFF then textBytes "CM384" else textBytes ("CM384 P" ++ toString paddock))

/-- The Jalroth section (R433). -/
def cperSection (i : CperInfo) (gen : Nat) : List Byte :=
  leBytes 1 i.kind ++ leBytes 1 i.paddock ++ leBytes 2 i.ptile ++ leBytes 2 i.ltile ++ leBytes 1 i.gang ++
    leBytes 1 i.code ++ leBytes 4 i.epoch ++ leBytes 4 gen ++ leBytes 8 i.addr ++ leBytes 8 i.sp ++ leBytes 8 i.ssh ++
    leBytes 8 i.sr ++ leBytes 2 i.strikes ++ leBytes 2 i.transient ++ zeros 4

/-- The creator GUID, the section type GUID and the CMC and MCE notification GUIDs, in UEFI's mixed byte order. -/
def guidCreator : List Byte := leBytes 4 0x1C6B0F3A ++ leBytes 2 0x8E27 ++ leBytes 2 0x4D59 ++ beBytes 8 0xB0A4E5F71C2D9368
def guidSection : List Byte := leBytes 4 0x7A2E4C91 ++ leBytes 2 0x3B5D ++ leBytes 2 0x4F08 ++ beBytes 8 0xA6C19D3E52B7F014
def guidCmc : List Byte := leBytes 4 0x2DCE8BB1 ++ leBytes 2 0xBDD7 ++ leBytes 2 0x450E ++ beBytes 8 0xB9AD9CF4EBD4F890
def guidMce : List Byte := leBytes 4 0xE8F56FFE ++ leBytes 2 0x919C ++ leBytes 2 0x4CC5 ++ beBytes 8 0xBA8865ABE14913BB

/-- The 256 bytes of a record (R433). (log 49: PRESUMED) -/
def cperBytes (i : CperInfo) (gen widx : Nat) : List Byte :=
  let sev := cperSeverity i.kind
  textBytes "CPER" ++ leBytes 2 0x0101 ++ leBytes 4 0xFFFFFFFF ++ leBytes 2 1 ++ leBytes 4 sev ++ leBytes 4 0 ++
    leBytes 4 256 ++ zeros 8 ++ zeros 16 ++ zeros 16 ++ guidCreator ++ (if sev = 2 then guidCmc else guidMce) ++
    leBytes 8 widx ++ zeros 24 ++
    (leBytes 4 200 ++ leBytes 4 56 ++ leBytes 2 0x0100 ++ leBytes 1 2 ++ zeros 1 ++ leBytes 4 1 ++ guidSection ++
      zeros 16 ++ leBytes 4 sev ++ fruText i.paddock) ++
    cperSection i gen

/-- The size field of a ring: values 0 to 3 act as 4 (R144, R176, R475). -/
def ringLog2 (v : Nat) : Nat := max 4 v

namespace State

/-- Write a CPER record, or drop and count it; vector 64 is raised once the record is accepted (R432). (log 87:
DEDUCED) -/
def cper (s : State) (i : CperInfo) : State :=
  if s.getF 0x3068 0 0 = 0 then s
  else
    let size := 2 ^ ringLog2 (s.getF 0x3068 11 8)
    let widx := s.getF 0x306C 31 0
    let ridx := s.getF 0x3070 31 0
    if (widx + 2 ^ 32 - ridx) % 2 ^ 32 ≥ size then s.addF 0x3068 31 16 1
    else
      let strikes := if i.ptile < 4352 then s.reg ((Page.tile i.ptile).base + 0xA0) else 0
      let i := { i with strikes := strikes % 2 ^ 16, transient := strikes / 2 ^ 16 }
      let rec_ := cperBytes i (s.getF 0x4048 31 0) widx
      let s := s.postLines (s.getF 0x3060 38 0 + 256 * (widx % size)) rec_ (some 64)
      let s := s.setF 0x306C 31 0 (widx + 1)
      s.addEvent (.vendor (cperSection i (s.getF 0x4048 31 0)))

/-! ### Reading one codeword -/

/-- The gang whose tiles include logical tile `l`. -/
def gangOfTile (s : State) (t : Nat) : Option Nat := (s.tile t).gang

/-- Ask the steward to fence (R415, R418). -/
def fenceAsk (s : State) (pt : Nat) (pillar : Bool) : State :=
  if s.fence.queue.any fun j => j.pt = pt && j.pillar = pillar then s
  else
    let j : FenceJob := { pt, pillar, begun := false, stopping := false, wasFallow := false }
    { s with fence := { s.fence with queue := s.fence.queue ++ [j] } }

/-- A strike counts against physical tile `pt` (R413). -/
def strike (s : State) (pt : Nat) : State := s.addF ((Page.tile pt).base + 0xA0) 15 0 1

/-- A fault, parity error or uncorrectable codeword has been raised by physical tile `pt`: while a sweep has its paddock at other
than its settings, steps 4 to 7, it is a strike against the tile too (R421). -/
def sweepStrike (s : State) (pt : Nat) : State :=
  let w := s.st.sweepWork
  if s.st.sweep = some (paddockOf pt) ∧ w.step ≠ .stopping ∧ w.step ≠ .restored ∧ !s.isFallow pt then
    let s := s.strike pt
    { s with st := { s.st with sweepWork := { w with struck := w.struck ++ [pt] } } }
  else s

/-- A field codeword has been found uncorrectable: FIELD_UE, its location, the CPER record and the event record, and the
count that fences a pillar above UELIMIT (R89, R390, R418, R432). -/
def fieldUe (s : State) (cw : Nat) : State :=
  let t := cw / 2 ^ 19
  let off := cw % 2 ^ 19 * 64
  let loc := t + off / 1024 % 8 * 2 ^ 13 + off / 8192 * 2 ^ 16 + off / 64 % 16 * 2 ^ 28
  let s := s.logAt (.paddock (paddockOf t)) .fieldUe 0x64 loc
  let addr := match s.ltileOf t with | some l => l * 2 ^ 25 + off | none => off
  let s := s.cper { CperInfo.blank 1 with
    paddock := paddockOf t, ptile := t, ltile := (s.ltileOf t).getD 0xFFFF, gang := (s.gangOfTile t).getD 0xFF, addr }
  let s := s.addEvent (.media addr)
  let s := (s.onPillar t fun p => { p with ues := p.ues + 1 }).sweepStrike t
  let limit := s.getF 0x404C 15 0
  if limit ≠ 0 ∧ limit < (s.pillar t).ues ∧ !SMap.look false s.fence.pfenced t then
    s.fenceAsk t true
  else s

/-- A barn codeword has been found uncorrectable (R318, R390, R432). -/
def barnUe (s : State) (cw : Nat) : State :=
  let o := 64 * cw
  let s := s.logAt (.barn (channelOf o)) .barnUe 0x70 (o + 0x2000000000)
  let s := s.cper { CperInfo.blank 2 with addr := o + 0x2000000000 }
  s.addEvent (.media (o + 0x2000000000))

/-- Start an AUTO retrain when the window's count passes the threshold (R321, R322). -/
def autoRetrain (s : State) (c : Nat) : State :=
  let a := (Page.barn c).base
  let ch := s.channel c
  if s.getF (a + 0x40) 1 1 = 1 ∧ s.getF (a + 0x64) 23 8 < ch.window ∧ !ch.training ∧ !ch.dead then
    ((s.onChannel c fun ch => { ch with training := true }).setF (a + 0x64) 1 1 1).raise 65
  else s

/-- Count a corrected codeword (R89, R318, R321); vector 65 when the count saturates (R466). -/
def countCorrected (s : State) (barn : Bool) (cw : Nat) : State :=
  if barn then
    let c := channelOf (64 * cw)
    let a := (Page.barn c).base + 0x68
    let before := s.getF a 15 0
    let s := s.addF a 15 0 1
    let s := if before = 0xFFFE then s.raise 65 else s
    let s := s.onChannel c fun ch => { ch with window := ch.window + 1 }
    s.autoRetrain c
  else
    let a := (Page.paddock (paddockOf (cw / 2 ^ 19))).base + 0x60
    let before := s.getF a 15 0
    let s := s.addF a 15 0 1
    if before = 0xFFFE then s.raise 65 else s

/-- Read and classify a stored codeword and take the action of R64; every write-back stands, since no other write falls
inside the command (R34). -/
def readCw (s : State) (barn : Bool) (cw : Nat) : Line × State :=
  let (data, check) := s.storedCw barn cw
  let r := classify data check
  let line : Line := ⟨r.data, r.cls.marked⟩
  match r.cls with
  | .clean => (line, s)
  | .blighted => (line, s)
  | .corrected => (line, (s.storeCw barn cw line).countCorrected barn cw)
  | .blightCorrected => (line, (s.storeCw barn cw line).countCorrected barn cw)
  | .uncorrectable =>
    let s := s.storeCw barn cw line
    (line, if barn then s.barnUe cw else s.fieldUe cw)

/-! ### Accesses that pass no queue -/

/-- Reads of the codeword at barn offset `o`, accepted and not yet performed, are performed before it is overwritten
(R32, R307). -/
def keepForReads (s : State) (o : Nat) : State :=
  let mine := fun (r : BarnRead) => r.req.dpa / 64 = (o + 0x2000000000) / 64 && r.kept = none &&
    (match r.fwd with | some e => !e.merged | none => true)
  if (s.channel (channelOf o)).reads.any mine then
    let (l, s) := s.readCw true (o / 64)
    s.onChannel (channelOf o) fun ch =>
      { ch with reads := ch.reads.map fun r => if mine r then { r with kept := some l } else r }
  else s

/-- A whole codeword written to barn memory within a row: it replaces any write-queue entry of the codeword (R305); a DEAD
channel discards it (R323). (log 39: DESIGN CHOICE) -/
def barnPut (s : State) (o : Nat) (l : Line) : State :=
  let c := channelOf o
  if (s.channel c).dead then s
  else
    let o := o / 64 * 64
    let s := s.keepForReads o
    let s :=
      if (s.channel c).writes.any fun w => w.dpa = o + 0x2000000000 then
        s.onChannel c fun ch => { ch with writes := ch.writes.filter fun w => w.dpa ≠ o + 0x2000000000 }
      else s
    s.storeCw true (o / 64) l

/-- The bank of a pillar offset (R59). -/
def fieldBank (off : Nat) : Nat := off / 1024 % 8

/-- Does an admitted access of the pillar of `t` name bank `b`? -/
def bankAdmitted (s : State) (t b : Nat) : Bool :=
  (s.pillar t).admitted.any fun r => fieldBank (r.dpa % 2 ^ 25) = b

/-- The refreshes owed in banks of pillar `t` that are idle are issued: no admitted access names the bank, and no sequence
of the tile stays in it (R82). (log 41: DEDUCED) -/
def settleBanks (s : State) (t : Nat) (sequences : List Nat) : State :=
  let idle := fun (b : Nat) => !s.bankAdmitted t b && !sequences.contains b
  if (s.pillar t).owed.any fun e => idle e.1 then
    s.onPillar t fun p => { p with owed := p.owed.filter fun e => !idle e.1 }
  else s

/-- Is the pillar of `t` fenced in place (R418)? -/
def pillarDead (s : State) (t : Nat) : Bool := SMap.look false s.fence.inPlace t

/-- Merge bytes over a line: bytes whose mask bit is set come from `new` (R33, R66). -/
def mergeLine (old : Line) (new : List Byte) (mask : Nat) (poison : Bool) : Line :=
  ⟨mergeBytes (bit mask) old.data new, old.blight || poison⟩

/-- A write-queue entry over the codeword `old` that it was waiting for (R305). -/
def fillEntry (old : Line) (w : WqEntry) : WqEntry :=
  { w with line := mergeLine old w.line.data w.mask w.poison, merged := true }

/-- The merge read of the write-queue entry of the codeword at DPA `dpa`: the entry, and the reads that wait for it with
the bytes it held when they were accepted, take the codeword read (R305, R306). -/
def mergeAt (s : State) (dpa : Nat) : State :=
  let c := channelOf (dpa - 0x2000000000)
  if (s.channel c).writes.any fun w => w.dpa = dpa && !w.merged then
    let (old, s) := s.readCw true ((dpa - 0x2000000000) / 64)
    let fill := fun (w : WqEntry) => if w.dpa = dpa && !w.merged then fillEntry old w else w
    s.onChannel c fun ch =>
      { ch with writes := ch.writes.map fill, reads := ch.reads.map fun r => { r with fwd := r.fwd.map fill } }
  else s

/-- Read the codeword at a location within a row, as accesses of a tile to its own pillar and of the steward do; barn
reads are answered from the
write queue where it holds the codeword (R306). -/
def readLoc (s : State) : Loc → Line × State
  | .field t off => if s.pillarDead t then s.deadLine else s.readCw false (t * 2 ^ 19 + off / 64)
  | .barn o =>
    let c := channelOf o
    if (s.channel c).dead then s.deadLine
    else
      let o := o / 64 * 64
      let s := s.mergeAt (o + 0x2000000000)
      match (s.channel c).writes.find? fun w => w.dpa = o + 0x2000000000 with
      | some w => (w.line, s.addF ((Page.barn c).base + 0x80) 63 0 1)
      | none => s.readCw true (o / 64)

/-- Log PARITY_IN at the encoder of a location (R65, R297). -/
def parityIn (s : State) : Loc → State
  | .field t _ => (s.log (.paddock (paddockOf t)) .parityIn).sweepStrike t
  | .barn o => s.log (.barn (channelOf o)) .parityIn

/-- Does the encoder of this location receive a word with bad parity? -/
def encBad (env : Env) : Loc → Bool
  | .field t off => env.encField.contains (t * 2 ^ 19 + off / 64)
  | .barn o => env.encBarn.contains (o / 64)

/-- Write a whole codeword at a location (R33, R66); bad parity blights it (R65). -/
def writeLoc (s : State) (env : Env) (loc : Loc) (l : Line) : State :=
  let bad := encBad env loc
  let s := if bad then s.parityIn loc else s
  let l : Line := ⟨l.data, l.blight || bad⟩
  match loc with
  | .field t off => if s.pillarDead t then s else s.storeCw false (t * 2 ^ 19 + off / 64) l
  | .barn o => s.barnPut o l

/-- Write some bytes of a codeword at a location: a read-modify-write (R66, R33). A mask of all 64 bytes is a whole
write. -/
def mergeLoc (s : State) (env : Env) (loc : Loc) (new : List Byte) (mask : Nat) (blight : Bool) : State :=
  if mask % 2 ^ 64 = 2 ^ 64 - 1 then s.writeLoc env loc ⟨new, blight⟩
  else if mask = 0 then s
  else
    let (old, s) := s.readLoc loc
    s.writeLoc env loc (mergeLine old new mask blight)

end State

end Sys2Proof.Machine
end

