-- ==== Sys2Proof/Machine/RidgeTx.lean ====
section
/-! DEFINITION. Sending on the ridge: packet bytes, flits and their CRC, credits and replay, routes, and injecting a
packet (R327 to R345, R361 to R363). -/

namespace Sys2Proof.Machine

/-! ### CRC-32 (R328) -/

/-- One bit of the reflected CRC-32. -/
def crc32Bit (c : Nat) : Nat := if c % 2 = 1 then (c / 2) ^^^ 0xEDB88320 else c / 2

/-- One byte of the reflected CRC-32. -/
def crc32Byte (c : Nat) (b : Byte) : Nat :=
  crc32Bit (crc32Bit (crc32Bit (crc32Bit (crc32Bit (crc32Bit (crc32Bit (crc32Bit (c ^^^ b.toNat))))))))

/-- The IEEE 802.3 CRC-32 of a byte string. -/
def crc32 (bs : List Byte) : Nat := bs.foldl crc32Byte 0xFFFFFFFF ^^^ 0xFFFFFFFF

/-- The CRC of a flit with its sequence-number prefix (R328). -/
def flitCrc (seq : BitVec 12) (bytes : List Byte) : List Byte := leBytes 4 (crc32 (leBytes 2 seq.toNat ++ bytes.take 252))

/-! ### Packets (R338, R339) -/

/-- The class of an OP and its range of LEN; none where the OP is not defined, SEAL takes any class (R339). -/
def opRow (op : Nat) : Option (Option Nat × Nat × Nat) :=
  match op with
  | 0x01 => some (some 0, 1, 256)
  | 0x02 => some (some 0, 1, 256)
  | 0x03 => some (some 1, 0, 256)
  | 0x04 => some (some 1, 0, 0)
  | 0x10 => some (some 2, 0, 0)
  | 0x11 => some (some 2, 0, 0)
  | 0x12 => some (some 2, 0, 0)
  | 0x18 => some (some 2, 0, 0)
  | 0x19 => some (some 2, 0, 0)
  | 0x1A => some (some 2, 0, 0)
  | 0x1B => some (some 2, 0, 0)
  | 0x1C => some (some 2, 8, 8)
  | 0x20 => some (some 3, 8, 8)
  | 0x21 => some (some 3, 8, 8)
  | 0x22 => some (some 3, 8, 8)
  | 0x23 => some (some 3, 8, 8)
  | 0x24 => some (some 3, 0, 0)
  | 0x25 => some (none, 0, 0)
  | _ => none

/-- Data bytes that follow the header: LEN, but none for an RRD (R339). -/
def Packet.follows (p : Packet) : Nat := if p.op = 0x02 then 0 else p.len

/-- The virtual channel (R334). -/
def Packet.vc (p : Packet) : Nat := 2 * p.cls + p.vcd

/-- Cells a packet occupies (R334). -/
def Packet.cells (p : Packet) : Nat := (16 + p.follows + 63) / 64

/-- The bytes of a packet (R338). -/
def Packet.bytes (p : Packet) : List Byte :=
  leBytes 1 p.op ++ leBytes 1 (p.cls + 4 * p.vcd + 8 * p.zdir + 16 * p.zset) ++ leBytes 2 p.dst ++ leBytes 2 p.src ++
    leBytes 2 (p.len + 512 * p.blight) ++ padTo 8 p.args ++ padTo p.follows p.data

/-- Read a packet from its bytes; the header must be whole. -/
def Packet.parse (bs : List Byte) : Packet :=
  let r := field bs 1 1
  let l := field bs 6 2
  { op := field bs 0 1, cls := r % 4, vcd := bits r 2 2, zdir := bits r 3 3, zset := bits r 4 4,
    dst := field bs 2 2 % 2 ^ 15, src := field bs 4 2 % 2 ^ 15, len := l % 512, blight := bits l 12 9,
    args := (bs.drop 8).take 8, data := (bs.drop 16).take (if field bs 0 1 = 0x02 then 0 else l % 512) }

/-- The reserved header fields of a packet's bytes are zero (R338, R340). (log 71: DEDUCED) -/
def headerClean (bs : List Byte) : Bool :=
  field bs 1 1 / 32 = 0 && field bs 2 2 / 2 ^ 15 = 0 && field bs 4 2 / 2 ^ 15 = 0 && field bs 6 2 / 2 ^ 13 = 0

/-- Argument bytes `i` to `i + n - 1`, numbered as the header numbers them, from byte 8. -/
def Packet.arg (p : Packet) (i n : Nat) : Nat := field p.args (i - 8) n

/-- The reserved ARGS bits of each OP (R339). -/
def argsClean (p : Packet) : Bool :=
  match p.op with
  | 0x01 => p.arg 13 2 / 2 ^ 13 = 0
  | 0x02 => p.arg 13 2 / 2 ^ 13 = 0
  | 0x03 => p.arg 9 4 = 0 && p.arg 13 2 / 2 ^ 13 = 0
  | 0x04 => p.arg 9 4 = 0 && p.arg 13 2 / 2 ^ 13 = 0
  | 0x10 => p.arg 12 2 / 2 ^ 13 = 0 && p.arg 14 2 / 2 ^ 13 = 0
  | 0x11 => p.arg 12 2 / 2 ^ 13 = 0 && p.arg 14 2 / 2 ^ 13 = 0
  | 0x12 => p.arg 12 2 / 2 ^ 13 = 0 && p.arg 14 2 / 2 ^ 13 = 0
  | 0x18 => p.arg 12 1 / 64 = 0
  | 0x19 => p.arg 12 1 / 64 = 0
  | 0x1A => p.arg 12 1 / 64 = 0
  | 0x1B => p.arg 12 1 / 64 = 0
  | 0x1C => p.arg 8 1 / 128 = 0 && p.arg 9 5 = 0
  | 0x20 => p.arg 10 1 / 8 = 0 && p.arg 11 5 = 0
  | 0x21 => p.arg 8 1 / 8 = 0 && p.arg 10 6 = 0
  | 0x22 => p.arg 8 1 / 8 = 0 && p.arg 10 6 = 0
  | 0x23 => p.arg 13 3 = 0
  | 0x24 => p.arg 9 1 / 64 = 0 && p.arg 10 2 / 2 ^ 13 = 0 && p.arg 12 4 = 0
  | 0x25 => p.arg 9 1 / 32 = 0 && p.arg 10 6 = 0
  | _ => true

/-- Is a packet malformed (R339, R340)? R340 does not name an RWR or an RRD whose bytes cross the 256-byte block of its ADDR,
which R339 says they must not; the model discards it as malformed too. (log 71: DEDUCED) -/
def Packet.bad (p : Packet) : Bool :=
  match opRow p.op with
  | none => true
  | some (cls, lo, hi) =>
    (match cls with | some c => decide (c ≠ p.cls) | none => false) || p.len < lo || hi < p.len || !argsClean p ||
      ((p.op = 0x01 || p.op = 0x02) && 256 < p.arg 8 1 % 256 + p.len)

/-- The cells of the receive buffer per VC (R334). -/
def vcCells (vc : Nat) : Nat := if vc < 4 then 512 else if vc < 6 then 32 else 16

namespace State

/-- Ridge port `p`. -/
def rport (s : State) (p : Nat) : RidgePort := SMap.look RidgePort.reset s.ridge.ports p

/-- Change ridge port `p`. -/
def onRport (s : State) (p : Nat) (f : RidgePort → RidgePort) : State :=
  { s with ridge := { s.ridge with ports := SMap.put RidgePort.reset s.ridge.ports p (f (s.rport p)) } }

/-- `RIDGE.STATUS.STATE` of port `p`: 2 is up (R366). -/
def linkState (s : State) (p : Nat) : Nat := s.getF ((Page.ridge p).base + 0x44) 2 0

/-- The link-control record a port owes and the port after sending it (R332): ACKSEQ, valid when flits have been accepted
since the last ACK or a NAK is owed, NAK, returned cells. -/
def takeLcr (q : RidgePort) : List Byte × RidgePort :=
  let ackseq := (q.rxSeq - 1).toNat
  let ackv := b2n (q.unacked ≠ 0 || q.nakOwed)
  let cells := (List.range 8).map fun v => min 15 (SMap.look 0 q.owedCells v)
  let word := (List.range 8).foldl (fun n v => n + 16 ^ v * cells.getD v 0) 0
  let owed := (List.range 8).foldl
    (fun m v => SMap.put 0 m v (SMap.look 0 m v - cells.getD v 0)) q.owedCells
  (leBytes 2 (ackseq + ackv * 2 ^ 12 + b2n q.nakOwed * 2 ^ 13) ++ leBytes 4 word ++ zeros 2,
    { q with unacked := 0, nakOwed := false, owedCells := owed })

/-- Does a port owe a link-control record in its next flit (R332)? The 100 ns case is the ACK_TIMER command's. -/
def lcrDue (q : RidgePort) : Bool :=
  q.nakOwed || 32 ≤ q.unacked || (List.range 8).any fun v => 8 ≤ SMap.look 0 q.owedCells v

/-- Bytes of a flit's BODY left for packets. -/
def flitRoom (lcr : Bool) : Nat := if lcr then 243 else 251

/-- Send one flit on port `p` (R327 to R329): DATA with the given packet bytes, or IDLE with none. `lcr` asks for a
link-control record. A packet is remembered with the flit of its last byte: it has a byte after RXSEQ exactly when that
flit is (R361). -/
def sendFlit (s : State) (p : Nat) (data lcr : Bool) (bytes : List Byte) (pkts : List Packet) : State :=
  let q := s.rport p
  let (rec_, q) := if lcr then takeLcr q else ([], q)
  let hdr := leBytes 1 ((if data then 0 else 1) + 4 * b2n lcr)
  let body := padTo 252 (hdr ++ rec_ ++ bytes)
  let flit := body ++ flitCrc q.txSeq body
  let q := if data then { q with sent := q.sent ++ [⟨q.txSeq, body, pkts⟩], txSeq := q.txSeq + 1 } else q
  let s := (s.onRport p fun _ => q).emit (.flit p flit)
  if data then s.addF ((Page.ridge p).base + 0x58) 63 0 1 else s

/-! ### Arbitration (R25, R335, R336) -/

/-- This module's node address, and whether it is valid (R341, R366). -/
def node (s : State) : Nat := s.getF 0x48100 14 0
def coordValid (s : State) (d : Nat) : Bool := s.getF 0x48100 (16 + d) (16 + d) = 1
def nodeValid (s : State) : Bool := s.coordValid 0 && s.coordValid 1 && s.coordValid 2

/-- May port `p` carry a packet of class `cls` (R326, R341, R358)? -/
def carries (s : State) (p cls : Nat) : Bool :=
  !(s.rport p).miscabled && (cls = 3 || (!(s.rport p).mgmtOnly && s.nodeValid))

/-- Does a SEAL in the queue of a port still wait behind packets of its class that were there before it (R363)? -/
def sealWaits (q : RidgePort) (e : Nat × Packet) : Bool :=
  e.2.op = 0x25 && (q.txq.takeWhile fun x => x ≠ e).any fun x => x.2.cls = e.2.cls

/-- The packet whose turn it is on VC `vc`: of the inputs that hold one, in rotation after the input served last. -/
def turnOf (q : RidgePort) (may : Nat → Bool) (vc : Nat) : Option (Nat × Packet) :=
  ((List.range 7).map fun k => (q.lastInput + 1 + k) % 7).findSome? fun i =>
    (q.txq.find? fun e => e.1 = i && e.2.vc = vc && may e.2.cls).filter fun e => !sealWaits q e

/-- The packet to send next: MGMT before SYNC before RSP before REQ, but a REQ that has waited 64 picks before RSP once
(R25); VCD 1 before VCD 0; a VC without credits blocks only itself (R335). -/
def pickTx (q : RidgePort) (may : Nat → Bool) : Option (Nat × Packet) :=
  ([7, 6, 5, 4] ++ if 64 ≤ q.reqWait then [1, 0, 3, 2] else [3, 2, 1, 0]).findSome? fun vc =>
    (turnOf q may vc).filter fun e => SMap.look 0 q.usedCells vc + e.2.cells ≤ vcCells vc

/-- A picked packet leaves the queue and spends its credits. -/
def takeTx (q : RidgePort) (e : Nat × Packet) : RidgePort :=
  let wait := if e.2.cls = 0 then 0 else if q.txq.any fun x => x.2.cls = 0 then q.reqWait + 1 else 0
  { q with txq := q.txq.erase e, lastInput := e.1, reqWait := wait,
           usedCells := SMap.put 0 q.usedCells e.2.vc (SMap.look 0 q.usedCells e.2.vc + e.2.cells) }

/-- Fill what is left of a flit with packets, laid end to end; the last may go on in the next flit (R329). -/
def fillFlit (may : Nat → Bool) (room : Nat) :
    Nat → RidgePort → List Byte → List Packet → RidgePort × List Byte × List Packet
  | 0, q, bs, ks => (q, bs, ks)
  | n + 1, q, bs, ks =>
    if room ≤ bs.length then (q, bs, ks)
    else
      match pickTx q may with
      | none => (q, bs, ks)
      | some e =>
        let all := e.2.bytes
        let space := room - bs.length
        let q := takeTx q e
        if all.length ≤ space then fillFlit may room n q (bs ++ all) (ks ++ [e.2])
        else ({ q with tail := all.drop space, tailPkt := some e.2 }, bs ++ all.take space, ks)

/-- The packet bytes of the next flit, the packets that end in it, and the port after taking them. -/
def nextFlit (may : Nat → Bool) (room : Nat) (q : RidgePort) : RidgePort × List Byte × List Packet :=
  if room < q.tail.length then ({ q with tail := q.tail.drop room }, q.tail.take room, [])
  else fillFlit may room q.txq.length { q with tail := [], tailPkt := none } q.tail q.tailPkt.toList

/-- Send DATA flits of port `p`, at most `n`, while there is something to send and fewer than 512 are unacknowledged
(R329). -/
def pump (s : State) (p : Nat) : Nat → State
  | 0 => s
  | n + 1 =>
    let q := s.rport p
    if s.linkState p = 2 ∧ q.sent.length < 512 ∧ !s.pllLost 37 then
      let lcr := lcrDue q
      let r := nextFlit (s.carries p) (flitRoom lcr) q
      if r.2.1 = [] then s else pump ((s.onRport p fun _ => r.1).sendFlit p true lcr r.2.1 r.2.2) p n
    else s

/-- Send what port `p` can send while its clock runs (R476). -/
def pumpAll (s : State) (p : Nat) : State := s.pump p (2 * (s.rport p).txq.length + 2)

/-- Put a packet from a crossbar input at the end of port `p`'s queue and send what can be sent. (log 69: DESIGN
CHOICE) -/
def sendOn (s : State) (input p : Nat) (pkt : Packet) : State :=
  (s.onRport p fun q => { q with txq := q.txq ++ [(input, pkt)] }).pumpAll p

/-! ### Routes (R341 to R345) -/

/-- This module's coordinate in dimension `d` (R366). -/
def coord (s : State) (d : Nat) : Nat := s.getF 0x48100 (5 * d + 4) (5 * d)
/-- Length and state of the ring of dimension `d` (R366). -/
def ringLen (s : State) (d : Nat) : Nat := s.getF 0x48104 (8 * d + 4) (8 * d) + 1
def ringState (s : State) (d : Nat) : Nat := s.getF 0x48104 (8 * d + 7) (8 * d + 5)
/-- The breaks of dimension `d`: those that RIDGE.BREAK records, and any more (R360, R366). -/
def breaks (s : State) (d : Nat) : List Nat :=
  let v := s.getF 0x48108 (12 * d + 11) (12 * d)
  (if bit v 5 then [v % 32] else []) ++ (if bit v 11 then [bits v 10 6] else []) ++
    (s.ridge.cut.filter fun c => c.1 = d).map (·.2)

/-- Is the ring of dimension `d` addressed: a ring, a chain, split, or overridden? -/
def ringAddressed (s : State) (d : Nat) : Bool := [1, 2, 3, 7].contains (s.ringState d)

/-- The coordinate of node `n` in dimension `d` (R341). -/
def nodeCoord (n d : Nat) : Nat := n / 2 ^ (5 * d) % 32

/-- What to do with a packet that begins a leg here (R342). -/
inductive Route where
  | deliver
  | refuse
  /-- Leave by this port with the given ZDIR and ZSET; VCD starts at 0. -/
  | go (p zdir zset : Nat)
  deriving DecidableEq, Repr

/-- Free VCD 0 credits of a class at the next module beyond port `p` (R344). -/
def freeCredits (s : State) (p cls : Nat) : Nat := vcCells (2 * cls) - SMap.look 0 (s.rport p).usedCells (2 * cls)

/-- The routing procedure of R342 with the Z rule of R344. A module without a valid address sends MGMT packets only
(R341). -/
def route (s : State) (pkt : Packet) : Route :=
  match [0, 1, 2].find? fun d => nodeCoord s.node d ≠ nodeCoord pkt.dst d with
  | none => .deliver
  | some d =>
    let n := s.ringLen d
    let c := nodeCoord s.node d
    let dd := nodeCoord pkt.dst d
    if !s.ringAddressed d ∨ n ≤ dd ∨ (!s.nodeValid ∧ pkt.cls ≠ 3) then .refuse
    else
      let hp := (dd + n - c % n) % n
      let hn := (c + n - dd) % n
      let okP := (s.breaks d).all fun b => hp ≤ (b + n - c % n) % n
      let okN := (s.breaks d).all fun b => hn ≤ (c + 2 * n - (b + 1)) % n
      if !okP ∧ !okN then .refuse
      else if d = 2 ∧ pkt.cls ≠ 2 ∧ pkt.zset = 0 then
        let best := min (if okP then hp else 64) (if okN then hn else 64)
        let slack := s.getF 0x48114 3 0
        let candP := okP && hp ≤ best + slack
        let candN := okN && hn ≤ best + slack
        let fp := s.freeCredits 4 pkt.cls
        let fn := s.freeCredits 5 pkt.cls
        let takeP := candP && (!candN || fn < fp || (fn = fp && hp ≤ hn))
        if takeP then .go 4 0 1 else .go 5 1 1
      else if d = 2 ∧ pkt.zset = 1 then .go (4 + pkt.zdir) pkt.zdir 1
      else if okP ∧ (!okN ∨ hp ≤ hn) then .go (2 * d) pkt.zdir pkt.zset
      else .go (2 * d + 1) pkt.zdir pkt.zset

/-- Crossing the dateline of port `p`'s ring: the link between coordinates n − 1 and 0 of an addressed ring (R343). -/
def crossesDateline (s : State) (p : Nat) : Bool :=
  let d := p / 2
  let n := s.ringLen d
  let c := nodeCoord s.node d
  s.ringAddressed d && if p % 2 = 0 then c + 1 = n else c = 0

/-- Is a packet of this class and destination held for its dimension until a SEAL returns (R363)? -/
def holds (s : State) (d : Nat) (pkt : Packet) : Bool :=
  (s.ridge.sealing.any fun x => x.dim = d && x.cls = pkt.cls && x.dsts.contains (nodeCoord pkt.dst d)) &&
    (d = 1 || pkt.cls = 2 || (d = 0 && (pkt.cls = 0 || pkt.cls = 1) && nodeCoord pkt.dst 1 = nodeCoord s.node 1
      && nodeCoord pkt.dst 2 = nodeCoord s.node 2))

/-- `RIDGE.STATUS.HELD` of the ports of each dimension (R366). -/
def showHeld (s : State) : State :=
  (List.range 6).foldl
    (fun s p => s.setF ((Page.ridge p).base + 0x44) 4 4 (b2n (s.ridge.held.any fun h => h.1 = p / 2))) s

/-- Queue a packet from a crossbar input on port `p`, on VCD 1 once its leg crosses the dateline (R343). -/
def leaveBy (s : State) (input p : Nat) (pkt : Packet) : State :=
  s.sendOn input p { pkt with vcd := if s.crossesDateline p then 1 else pkt.vcd }

/-- The refusal of R345 for packets that get no reply: UNREACH in the XP page, and OP, DST and SRC in ERR_NEXT. The fields that
R464 gives ERR_NEXT stay what they are there: CAUSE is UNREACH, VALID is set, INJECTED, MULTI and the reserved bits are zero. DETAIL
is too narrow for OP, DST and SRC, so it holds an open function of them. (log 86: DESIGN CHOICE) -/
def logUnreach (s : State) (k : Packet) : State :=
  let (slot, s) := s.logAs (.ridge 0) .unreach false 0
  if slot = 1 ∧ s.getF 0x48018 31 31 = 0 then
    s.setReg 0x48018 (errWord .unreach false (Config.unreachWord k.op k.dst k.src).toNat)
  else s

/-- Inject a packet, or begin its next leg (R342); `replies` bounds the refusals answered with a reply packet (R345). A
packet for this module, or the reply to one of its own that is refused here, is answered back to the caller. -/
def injectAt (s : State) (input : Nat) (pkt : Packet) : Nat → Option Packet × State
  | 0 => (none, s)
  | n + 1 =>
    match s.route pkt with
    | .deliver => (some pkt, s)
    | .go p zdir zset =>
      let pkt := { pkt with vcd := 0, zdir, zset }
      if s.holds (p / 2) pkt then
        (none, { s with ridge := { s.ridge with held := s.ridge.held ++ [(p / 2, input, pkt)] } }.showHeld)
      else (none, s.leaveBy input p pkt)
    | .refuse =>
      if pkt.op = 0x01 ∨ pkt.op = 0x02 then
        let args := leBytes 1 1 ++ zeros 4 ++ (pkt.args.drop 5).take 3
        let reply : Packet :=
          { op := if pkt.op = 0x01 then 0x04 else 0x03, cls := 1, vcd := 0, zdir := 0, zset := 0, dst := pkt.src,
            src := s.node, len := 0, blight := 0, args, data := [] }
        if pkt.src = s.node then (some reply, s)
        else if s.route reply = .refuse then (none, s)
        else injectAt s 6 reply n
      else (none, s.logUnreach pkt)

/-- Inject a packet of this module, which comes from the mesh. -/
def inject (s : State) (pkt : Packet) (n : Nat) : Option Packet × State := s.injectAt 6 pkt n

end State

end Sys2Proof.Machine
end

