-- ==== Sys2Proof/Machine/Dispatcher.lean ====
section
/-! DEFINITION. What the dispatcher and the gates do for every family: trace events, fault records, the abort of a
commit gate, stopping a tile, and the fault of a tile and of its gang (R41, R132, R168 to R175). -/

namespace Sys2Proof.Machine

/-- A fault the core raises at `pc`. -/
def FaultInfo.core (code pc detail addr : Nat) : FaultInfo :=
  { code, source := 1, queue := 0xFF, qindex := 0xFFFF, tag := 0, pc, detail, addr }

/-- A fault an entry raises. -/
def FaultInfo.entry (e : Entry) (code detail addr : Nat) : FaultInfo :=
  { code, source := 2, queue := e.q, qindex := e.qindex, tag := e.tag.toNat, pc := e.pc, detail, addr }

/-- A fault of the commit gate or the tithe logic. -/
def FaultInfo.gate (code pc : Nat) : FaultInfo :=
  { code, source := 3, queue := 0xFF, qindex := 0xFFFF, tag := 0, pc, detail := 0, addr := 0 }

/-- The sheaf facts a fault record carries (R170). -/
structure RecordContext where
  gang : Nat
  mode : Nat
  cookie : Nat
  index : Nat
  dqueue : Nat
  gen : Nat
  deriving DecidableEq, Repr

/-- The tile that makes a run: the shadow, the referee, or the next struck tile that repeats (R405, R407, R414). -/
def runTile (c : TitheStep) (run : RunKind) : Option Nat :=
  match run with
  | .shadow => c.shadow
  | .referee => c.referee
  | .again => if c.phase = .refereeRun then c.shadow else c.repeats.head?

/-- A gate that is closed and holds nothing. -/
def Gate.closed : Gate := { phase := .closed, held := [], receivers := [], awaiting := [] }

/-- A place whose run has ended or is given up: its core comes to rest, with nothing in its queues. -/
def Tile.rest (x : Tile) : Tile :=
  { x with core := .idle, queue := [], stalledEntry := none, issued := [], lattice := none, sink0 := [], sink1 := [],
           dirty := false, arrived := [], gate := .closed }

/-- What is left of the check of tile `t`'s step when its gate aborts: repeats of struck tiles; a replay, which is the repeat
of a struck primary, goes on as one in check mode (R410). The view of a run is not dropped. -/
def checkLeft (x : Tile) (t : Nat) (c : TitheStep) : Option TitheStep :=
  match c.phase with
  | .run => some c
  | .repeats => some { c with dropped := true, restart := false }
  | .replay =>
    some { c with phase := .repeats, repeats := [t], got := [], runs := [.again], restart := false, dropped := true,
                  recs := [(.again, { writes := c.writes, overlay := [], syncs := c.syncs })],
                  scratch := some { x with gang := none, gate := .closed } }
  | _ => none

namespace State

/-! ### Trace events (R174, R175) -/

/-- Does a gang in trace mode `mode` trace a record of this type (R174)? -/
def traces (mode : Nat) (flagged : Bool) (type : Nat) : Bool :=
  match mode with
  | 1 => flagged
  | 2 => true
  | 3 => type = 3 || type = 4 || type = 5
  | _ => false

/-- The 32 bytes of a trace record (R175). -/
def traceBytes (type queue gang ltile tag epoch qindex cycle : Nat) : List Byte :=
  leBytes 1 type ++ leBytes 1 queue ++ leBytes 1 gang ++ zeros 1 ++ leBytes 2 ltile ++ leBytes 2 tag ++ leBytes 4 epoch ++
    leBytes 2 qindex ++ zeros 2 ++ leBytes 8 cycle ++ zeros 8

/-- The cycle counter has counted on since it was last seen, by an amount that the model leaves free, as it keeps no
time (R54, R128). (log 6: DESIGN CHOICE) -/
def advanceCycle (s : State) (t : Nat) : State :=
  let (d, s) := s.takeFree 64
  s.onTile t fun x => { x with cycle := x.cycle + d }

/-- The pillar beat counter has counted on by a free amount; passing 2^48 - 1 sets WRAP (R55, R129). -/
def advanceBeat (s : State) (t : Nat) : State :=
  let (d, s) := s.takeFree 48
  let wraps := decide (2 ^ 48 ≤ (s.pillar t).beat.toNat + d.toNat)
  let s := s.onPillar t fun p => { p with beat := p.beat + d }
  if wraps then s.setF ((Page.tile t).base + 0xA4) 0 0 1 else s

/-- Is the trace ring full, the records that wait for it counted? -/
def traceFull (s : State) : Bool :=
  decide (2 ^ ringLog2 (s.getF 0x6048 11 8) ≤ (s.reg 0x604C + 2 ^ 32 - s.reg 0x6050) % 2 ^ 32 + s.traceQ.length)

/-- Must an event of this type wait for room in the ring: modes 1 and 2, the ring enabled and full (R174)? -/
def traceBlocked (s : State) (mode : Nat) (flagged : Bool) (type : Nat) : Bool :=
  traces mode flagged type && mode ≠ 3 && s.getF 0x6048 0 0 = 1 && s.traceFull

/-- Is the sheaf that gang `g` runs flagged for tracing? -/
def traceFlag (s : State) (g : Nat) : Bool := (((s.gang g).sheaf.map (·.trace)).getD false)

/-- Must an event of tile `t` wait for room in the trace ring? -/
def tileBlocked (s : State) (t type : Nat) : Bool :=
  match (s.tile t).gang with
  | none => false
  | some g => s.traceBlocked (s.gang g).tmode (s.traceFlag g) type

/-- A traced event of tile `t`; `fault` is a report that waits for its record. -/
def traceWith (s : State) (t type queue tag qindex : Nat) (fault : Option (Nat × FaultInfo)) : State :=
  let x := s.tile t
  match x.gang with
  | none => s
  | some g =>
    let G := s.gang g
    if traces G.tmode (s.traceFlag g) type then
      let s := s.advanceCycle t
      let x := s.tile t
      let bytes := traceBytes type queue g ((s.ltileOf t).getD 0xFFFF) tag x.epoch.toNat qindex x.cycle.toNat
      { s with traceQ := s.traceQ ++ [⟨G.tmode, bytes, fault⟩] }
    else s

/-- A traced event of tile `t`. -/
def trace (s : State) (t type queue tag qindex : Nat) : State := s.traceWith t type queue tag qindex none

/-- A traced event of gang `g` as a whole: sheaf started (6) or completed (7). -/
def traceGang (s : State) (g type dqueue : Nat) (flagged : Bool) (epoch : Nat) : State :=
  let G := s.gang g
  if traces G.tmode flagged type then
    { s with traceQ := s.traceQ ++ [⟨G.tmode, traceBytes type 0xFF g 0xFFFF dqueue epoch 0 0, none⟩] }
  else s

/-! ### Fault records (R170, R171) -/

/-- The 64 bytes of a fault record. `t` is the faulting tile; none when SOURCE is 0. QUEUE is 0xFF
for SOURCE 3 too. (log 55: DEDUCED) -/
def recordBytes (s : State) (fseq : Nat) (i : FaultInfo) (c : RecordContext) (t : Option Nat) : List Byte :=
  let tagOk := c.mode ≠ 0 ∧ i.source = 2
  leBytes 4 fseq ++ leBytes 1 i.code ++ leBytes 1 i.source ++ leBytes 1 (if i.source = 2 then i.queue else 0xFF) ++
    leBytes 1 c.gang ++ leBytes 4 ((t.map fun t => (s.tile t).epoch.toNat).getD 0) ++
    leBytes 2 ((t.map fun t => (s.ltileOf t).getD 0xFFFF).getD 0xFFFF) ++ leBytes 2 (t.getD 0xFFFF) ++
    leBytes 2 (if i.source = 2 then i.qindex else 0xFFFF) ++ leBytes 2 (if tagOk then i.tag else 0) ++ leBytes 2 i.pc ++
    leBytes 2 i.detail ++ leBytes 8 c.cookie ++ leBytes 8 i.addr ++ leBytes 4 c.index ++ leBytes 1 c.dqueue ++
    leBytes 1 (c.mode % 4 + 4 * (if tagOk then 1 else 0)) ++ zeros 2 ++ leBytes 4 c.gen ++ zeros 12

/-- Write a fault record or drop and count it; the write index advances either way, and vector 67 is raised, for a record
that is written once it is accepted (R171, R393). Answers the sequence number and whether the record was dropped. (log
55: DEDUCED) -/
def faultRecord (s : State) (i : FaultInfo) (c : RecordContext) (t : Option Nat) : Nat × Bool × State :=
  let widx := s.getF 0x5054 31 0
  let size := 2 ^ ringLog2 (s.getF 0x5050 11 8)
  let full := size ≤ (widx + 2 ^ 32 - s.getF 0x5058 31 0) % 2 ^ 32
  let drop := s.getF 0x5050 0 0 = 0 || full
  let s := s.setF 0x5054 31 0 (widx + 1)
  let s :=
    if drop then (s.addF 0x5060 63 0 1).raise 67
    else s.postLines (s.getF 0x5048 38 0 + 64 * (widx % size)) (s.recordBytes widx i c t) (some 67)
  (widx, drop, s)

/-! ### The abort of a commit gate (R41, R253) -/

/-- The COMMIT, ABORT or CACK arguments (R339). -/
def commitArgs (epoch : BitVec 32) (recv stile : Nat) : List Byte := leBytes 4 epoch.toNat ++ leBytes 2 recv ++ leBytes 2 stile

/-- Send a commit or abort message of tile `t` to one receiver (R253, R350). -/
def sendCommit (t : Nat) (epoch : BitVec 32) (abort : Bool) (r : Receiver) (s : State) : State :=
  let m : CommitMsg := ⟨.tile t, epoch, abort⟩
  match r with
  | .tile pt => s.onTile pt fun x => { x with commits := x.commits ++ [m] }
  | .barn => { s with ridge := { s.ridge with commits := s.ridge.commits ++ [m] } }
  | .remote node recv =>
    (s.inject { op := if abort then 0x11 else 0x10, cls := 2, vcd := 0, zdir := 0, zset := 0, dst := node, src := s.node,
                len := 0, blight := 0, args := commitArgs epoch recv t, data := [] } 2).2

/-- Is a receiver on another module; can it be reached (R353)? -/
def isRemote : Receiver → Bool
  | .remote _ _ => true
  | _ => false
def reachable (s : State) : Receiver → Bool
  | .remote node _ =>
    s.route { op := 0x11, cls := 2, vcd := 0, zdir := 0, zset := 0, dst := node, src := s.node, len := 0, blight := 0,
              args := [], data := [] } ≠ .refuse
  | _ => true

/-- Lines of sender `src` and step `epoch` are not among these. -/
def withoutStep (src : Sender) (epoch : BitVec 32) (ls : List StageLine) : List StageLine :=
  ls.filter fun l => !(l.src = src && l.epoch = epoch)

/-- Add a free amount to a statistics counter of cycles: the model keeps no time (R53). (log 6: DESIGN CHOICE) -/
def countCycles (s : State) (t off : Nat) : State :=
  let (d, s) := s.takeFree 64
  s.addF ((Page.tile t).base + off) 63 0 d.toNat

/-- Discard lines of a step of tile `u` still on their way to a receiver of this module: they are writes not performed
(R132). A line that waited there for room ends its wait, whose cycles are counted (R265), and REQ traffic held back
behind it goes on (R255). -/
def dropInflight (u : Nat) (epoch : BitVec 32) (r : Receiver) (s : State) : State :=
  match r with
  | .tile pt =>
    let waited := (s.tile pt).stageWait.any fun l => decide (l.src = .tile u ∧ l.epoch = epoch)
    let s := if waited then s.countCycles u 0x90 else s
    let s := s.onTile pt fun x =>
      { x with inflight := withoutStep (.tile u) epoch x.inflight, stageWait := withoutStep (.tile u) epoch x.stageWait }
    if waited then s.drainHosts else s
  | _ => s

/-- Discard the barn writes of tile `t` that no controller has accepted (R132). -/
def dropWrites (s : State) (t : Nat) : State :=
  let mine := fun (r : MemReq) =>
    match r.src, r.op with
    | .entry _ _, .read => false
    | .entry u _, _ => decide (u = t)
    | _, _ => false
  let s := { s with mesh := s.mesh.filter fun r => !mine r }
  let s := foldEach (List.range 64) s fun c s =>
    if (s.channel c).lane2.any mine then
      s.onChannel c fun ch => { ch with lane2 := ch.lane2.filter fun r => !mine r }
    else s
  if s.mesh.isEmpty then s else s.drainHosts

/-- An abort reaches the gate of tile `t`: unless its release was handled first, in which case that step stands, the held
items are discarded and every receiver that can be reached is told to discard the step's staged lines; those of other
modules are to acknowledge it (R41, R253, R353). -/
def gateAbort (s : State) (t : Nat) : State :=
  let x := s.tile t
  match x.gate.phase with
  | .acking => s
  | .boundary => s
  | .closed =>
    let s := foldEach x.gate.receivers s (dropInflight t x.epoch)
    let told := x.gate.receivers.filter s.reachable
    let s := foldEach told s (sendCommit t x.epoch true)
    s.onTile t fun x =>
      { x with gate := { phase := .closed, held := [], receivers := [], awaiting := [] },
               aborts := x.aborts ++ (told.filter isRemote).map fun r => (r, x.epoch) }

/-! ### Stopping tiles and gangs (R132, R168) -/

/-- Is a tile clock-gated: its core waits at WAITQ or COMMIT, and every incomplete entry is a sync entry that waits
(R280)? -/
def gated (x : Tile) : Bool :=
  (match x.core with | .waitq _ => true | .draining => true | _ => false) && !x.queue.isEmpty &&
    x.queue.all fun e => e.q = 5 && e.started && !e.performed && e.progress = 1

/-- The cycle counters of the engine of queue `q` (R208, R238, R265). -/
def cycleRegs (q : Nat) : List Nat :=
  match q with
  | 0 => [0x60, 0x68]
  | 1 => [0x70, 0x78]
  | 2 => [0x80]
  | 3 => [0x88]
  | _ => []

/-- A tile that stops ends the stall of its ENQ, its gated wait and its running entries, whose cycles are counted (R130,
R208, R238, R265). -/
def countStopped (s : State) (t : Nat) : State :=
  let x := s.tile t
  let s := if x.core = .stalled then s.countCycles t 0x50 else s
  let s := if gated x then s.countCycles t 0x58 else s
  foldEach ((x.queue.filter fun e => e.started && !e.performed).flatMap fun e => cycleRegs e.q) s fun off s =>
    s.countCycles t off

/-- A tile stops: unstarted entries are discarded, running ones end where they are, their barn writes that no controller
has accepted are discarded, loops disarm. A halted tile stays halted, and one that was never started stays idle (R132,
R168). (log 88: DEDUCED) -/
def stopTile (s : State) (t : Nat) : State :=
  let s := ((s.countStopped t).gateAbort t).dropWrites t
  (s.onTile t fun x =>
    { x with core := (match x.core with | .halted => .halted | .idle => .idle | _ => .faulted), queue := [],
             stalledEntry := none, loops := [], lattice := none }).settleBanks t []

/-- The runs under way of the check `c` of tile `t`'s step are given up. -/
def restRuns (s : State) (t : Nat) (c : TitheStep) : State :=
  foldEach (c.runs.filterMap (runTile c)) s fun pt s =>
    if pt = t ∨ (s.tile pt).gang ≠ none then s else s.onTile pt Tile.rest

/-- The sampled step of tile `t` is dropped with its runs and hold, as its gate aborts or it faults (R406, R410). (log 62:
DEDUCED) -/
def dropCheck (s : State) (t : Nat) : State :=
  match s.tithe.steps.find? fun p => p.1 = t with
  | none => s
  | some p =>
    let left := checkLeft (s.tile t) t p.2
    let s := if left = none then s.restRuns t p.2 else s
    { s with tithe := { s.tithe with steps := s.tithe.steps.filterMap fun p => if p.1 = t then left.map fun c => (t, c) else some p } }

/-- What a fault record of gang `g` says of its sheaf; with none, FMAP_GEN is the generation in force (R170). (log 55:
DEDUCED) -/
def recordContext (s : State) (g : Nat) : RecordContext :=
  let G := s.gang g
  match G.sheaf with
  | some h => { gang := g, mode := G.tmode, cookie := h.cookie, index := h.index, dqueue := h.q, gen := h.fmapGen }
  | none => { gang := g, mode := G.tmode, cookie := 0, index := 0, dqueue := 0xFF, gen := s.getF 0x4048 31 0 }

/-- The tiles of gang `g` but `t` stop (R168). -/
def stopOthers (s : State) (g : Nat) (t : Option Nat) : State :=
  let others := ((s.gang g).tiles.map s.ptileOf).filter fun u => some u ≠ t
  foldEach others s fun u s => if (s.tile u).core = .faulted then s else (s.dropCheck u).stopTile u

/-- The dispatcher takes a tile's fault report: the first 16 of a sheaf are recorded, all are counted and the gang becomes
faulted. The other tiles stop at once where no sheaf runs, and otherwise with the row that completes the sheaf, before
which they may fault too (R168, R170, R171). (log 88: DEDUCED) -/
def gangFault (s : State) (g : Nat) (i : FaultInfo) (t : Nat) : State :=
  let G := s.gang g
  if !G.live then s
  else
    match G.sheaf with
    | some h =>
      let s :=
        if h.nfault < 16 then
          let (fseq, lost, s) := s.faultRecord i (s.recordContext g) (some t)
          let first := decide (h.nfault = 0)
          let h' : Sheaf :=
            { h with nfault := h.nfault + 1, code := if first then i.code else h.code,
                     fseq := if first then fseq else h.fseq, flost := h.flost || lost }
          s.onGang g fun G => { G with sheaf := some h' }
        else s.onGang g fun G => { G with sheaf := some { h with nfault := satInc 0xFFFF h.nfault } }
      s.onGang g fun G => { G with faulted := true }
    | none =>
      let s :=
        if G.loose < 16 then
          let (_, _, s) := s.faultRecord i (s.recordContext g) (some t)
          s.onGang g fun G => { G with loose := G.loose + 1 }
        else s
      (s.stopOthers g (some t)).onGang g fun G => { G with faulted := true }

/-- The dispatcher hears of the fault of tile `t`. -/
def reportFault (s : State) (t : Nat) (i : FaultInfo) : State :=
  match (s.tile t).gang with
  | some g => s.gangFault g i t
  | none => s

/-- A tile faults: it stops, shows the code, is traced, and its gang faults; where the trace ring is full and the event
waits for room, the report waits with its record (R132, R168, R174). (log 54: DEDUCED) -/
def tileFault (s : State) (t : Nat) (i : FaultInfo) : State :=
  let blocked := s.tileBlocked t 5
  let s := s.traceWith t 5 0xFF i.code 0 (if blocked then some (t, i) else none)
  let s := (s.dropCheck t).stopTile t
  let s := (s.onTile t fun x => { x with core := .faulted, fcode := i.code }).sweepStrike t
  if blocked then s else s.reportFault t i

/-! ### Tile reset (R134) -/

/-- The tile after a reset: the gate has aborted before. Staging and instruction memory keep their contents (R134,
R255). -/
def resetTileState (x : Tile) : Tile :=
  { x with g := [], lc := [], pc := 0, loops := [], queue := [], stalledEntry := none, issued := [], crib := [],
           cribBlight := [], bin := [], binBlight := [], lattice := none, latticeData := [], sink0 := [], sink1 := [], cycle := 0,
           port := 2, core := .idle, fcode := 0, dirty := false, arrived := [], aborts := [] }

/-- A fault report of tile `t` that waits for its trace record is given up; the record stays. -/
def dropReport (s : State) (t : Nat) : State :=
  { s with traceQ := s.traceQ.map fun e => if (e.fault.map (·.1)) = some t then { e with fault := none } else e }

/-- The gate of tile `t` leaves a release whose acknowledgements have not all come: the step stands, and its held items are
sent once they have (R41). -/
def keepRelease (s : State) (t : Nat) : State :=
  let x := s.tile t
  if x.gate.phase = .acking then
    let r : Release := { held := x.gate.held, awaiting := x.gate.awaiting, epoch := x.epoch, gang := x.gang,
                         crew := (x.gang.map fun g => (s.gang g).crew).getD 0 }
    s.onTile t fun x =>
      { x with released := x.released ++ [r], gate := { phase := .closed, held := [], receivers := [], awaiting := [] } }
  else s

/-- Reset tile `t`. -/
def resetTile (s : State) (t : Nat) : State :=
  let s := (((((s.dropCheck t).countStopped t).gateAbort t).keepRelease t).dropWrites t).dropReport t
  (s.onTile t resetTileState).settleBanks t []

end State

end Sys2Proof.Machine
end

