-- ==== Sys2Proof/Machine/Operands.lean ====
section
/-! DEFINITION. The operand forms: Yilac registers, immediates and data addresses (R95 to R98), bin and crib lines with
their parity and marks (R125, R498), the writes of a sampled step (R404), and retiring an instruction (R100, R105). -/

namespace Sys2Proof.Machine

/-- Register `r` of a tile; g0 reads as zero (R95). -/
def Tile.rd (x : Tile) (r : BitVec 5) : Word := if r = 0 then 0 else SMap.look 0 x.g r.toNat

/-- Write register `r`; a write to g0 is discarded (R95). -/
def Tile.wr (x : Tile) (r : BitVec 5) (v : Word) : Tile :=
  if r = 0 then x else { x with g := SMap.put 0 x.g r.toNat v }

/-- Immediates marked s and z (R98). -/
def immS (i : BitVec 16) : Word := i.signExtend 32
def immZ (i : BitVec 16) : Word := i.zeroExtend 32

/-- The address of a load or store: base plus sign-extended offset, modulo 2^32 (R97, R98). -/
def Tile.ea (x : Tile) (ra : BitVec 5) (off : BitVec 16) : Nat := (x.rd ra + immS off).toNat

/-- Is an address in the bin, in the crib (R96)? -/
def inBin (a : Nat) : Bool := a < 0x40000
def inCrib (a : Nat) : Bool := 0x40000 ≤ a && a < 0x44000

namespace State

/-! ### Lines of the bin and the crib -/

/-- A bin read finds a parity error in the line of address `a`: unless it is blighted already, the line is blighted and
BIN_PARITY is logged (R125). -/
def binParity (s : State) (t a : Nat) : State :=
  if SMap.look false (s.tile t).binBlight (a / 64) then s
  else
    ((s.onTile t fun x => { x with binBlight := SMap.put false x.binBlight (a / 64) true }).log (.tile t) .binParity).sweepStrike t

/-- The parity errors that an access of the engines finds in the bin. -/
def binParities (s : State) (t : Nat) (env : Env) : State := foldEach env.binPar s fun a s => s.binParity t a

/-- `n` bytes of the bin, marked blighted when a line they touch is (R126). -/
def binRead (s : State) (t a n : Nat) : Line :=
  let x := s.tile t
  ⟨readBytes x.bin a n, (List.range ((a + n + 63) / 64 - a / 64)).any fun k => SMap.look false x.binBlight (a / 64 + k)⟩

end State

/-- Line `k` of a tile, of its bin or from 4,096 on of its crib, with its mark; and the tile with that line replaced (R125,
R498). -/
def Tile.line (x : Tile) (k : Nat) : Line :=
  if k < 4096 then ⟨readBytes x.bin (64 * k) 64, SMap.look false x.binBlight k⟩
  else ⟨readBytes x.crib (64 * (k - 4096)) 64, SMap.look false x.cribBlight (k - 4096)⟩
def Tile.setLine (x : Tile) (k : Nat) (l : Line) : Tile :=
  if k < 4096 then
    { x with bin := writeBytes x.bin (64 * k) l.data, binBlight := SMap.put false x.binBlight k l.blight }
  else
    { x with crib := writeBytes x.crib (64 * (k - 4096)) l.data,
             cribBlight := SMap.put false x.cribBlight (k - 4096) l.blight }

/-- Some bytes of a line are written: a whole write sets or clears its mark, a partial one may set it (R125, R498). -/
def Tile.mergeLine (x : Tile) (k : Nat) (data : List Byte) (mask : Nat) (blight : Bool) : Tile :=
  x.setLine k (if mask % 2 ^ 64 = 2 ^ 64 - 1 then ⟨data, blight⟩ else Sys2Proof.Machine.State.mergeLine (x.line k) data mask blight)

namespace State

/-- Store bytes into the bin. A line wholly covered takes the blight of the data, a partly covered one keeps or gains it
(R125, R33). -/
def binStore (x : Tile) (a : Nat) (bs : List Byte) (blight : Bool) : Tile :=
  let n := bs.length
  let marks := (List.range ((a + n + 63) / 64 - a / 64)).foldl
    (fun m k =>
      let line := a / 64 + k
      let whole := a ≤ 64 * line && 64 * line + 64 ≤ a + n
      SMap.put false m line (blight || (!whole && SMap.look false m line))) x.binBlight
  { x with bin := writeBytes x.bin a bs, binBlight := if n = 0 then x.binBlight else marks }

/-- Change the record of the sampled step of tile `t` while the step executes. -/
def onCheck (s : State) (t : Nat) (f : TitheStep → TitheStep) : State :=
  if s.tithe.steps.any fun p => p.1 = t then
    { s with tithe := { s.tithe with steps := s.tithe.steps.map fun p =>
      if p.1 = t ∧ p.2.phase.logging then (p.1, f p.2) else p } }
  else s

/-- The lines that `n` bytes at address `a` of a tile touch, added to `ls`. -/
def addLines (ls : List Nat) (a n : Nat) : List Nat :=
  ls ++ ((List.range ((a + n + 63) / 64 - a / 64)).map (a / 64 + ·)).filter fun k => !ls.contains k

/-- The sampled step of tile `t` reads `n` bytes of its bin or crib at `a`: their lines go to the hold (R400). -/
def touch (s : State) (t a n : Nat) : State := s.onCheck t fun c => { c with lines := addLines c.lines a n }

/-- Record a write of the sampled step of tile `t`, if its step is sampled; the line of a bin or crib write goes to the
hold (R400, R404). -/
def sign (s : State) (t : Nat) (w : WriteRec) : State :=
  s.onCheck t fun c =>
    { c with writes := c.writes ++ [w], lines := if w.kind ≤ 1 then addLines c.lines w.addr 64 else c.lines }

/-- A staged line has been applied to the bin or pillar of tile `t`, whose step is sampled (R400). -/
def logApplied (s : State) (t : Nat) (dest : LineDest) (mask : Nat) (l : Line) : State :=
  s.onCheck t fun c =>
    { c with applied := c.applied ++ [(c.syncs, dest, mask, l)], used := c.used + 64, extra := c.extra + 64 }

/-- The sampled step of tile `t` while it is executed again from the hold (R425). -/
def replayOf (s : State) (t : Nat) : Option TitheStep :=
  (s.tithe.steps.find? fun p => p.1 = t && p.2.phase.replaying).map (·.2)

/-- The lines that the hold serves to entry `e` of tile `t` in a replay, as `Entry.got` names them (R425). -/
def heldLines (s : State) (t : Nat) (e : Entry) : List (Nat × Nat × Line) :=
  match s.replayOf t with
  | some c => (c.data.filter fun h => h.q = e.q && h.qindex = e.qindex).map fun h => (h.node, h.addr, h.line)
  | none => []

/-- Entry `e` of tile `t`'s sampled step has read a line from outside the tile: its data go to the hold; in a replay they
came from there (R400, R425). -/
def holdLine (s : State) (t : Nat) (e : Entry) (node addr : Nat) (l : Line) : State :=
  s.onCheck t fun c =>
    if c.phase.replaying then c
    else { c with data := c.data ++ [⟨e.q, e.qindex, node, addr, l⟩], used := c.used + 64 }

/-! ### Runs in check mode (R405) -/

/-- Is the tile of this state the view that a run in check mode has of tile `t`'s step? -/
def inRun (s : State) (t : Nat) : Bool := s.tithe.steps.any fun p => p.1 = t && decide (p.2.phase = .run)

/-- The run in check mode that physical tile `pt` makes: its primary, and which run it is. -/
def runAt (s : State) (pt : Nat) : Option (Nat × RunKind) :=
  s.tithe.steps.findSome? fun p =>
    if pt = p.1 ∨ (s.tile pt).gang = none then
      (p.2.runs.find? fun r => decide (runTile p.2 r = some pt)).map fun r => (p.1, r)
    else none

/-- The registers of the TILE pages of tiles `a` and `b` change places. -/
def swapPages (s : State) (a b : Nat) : State :=
  let base := fun t => (Page.tile t).base
  let of_ := fun t => s.regs.filter fun e => base t ≤ e.1 && e.1 < base t + 0x1000
  let rest := s.regs.filter fun e =>
    !(base a ≤ e.1 && e.1 < base a + 0x1000) && !(base b ≤ e.1 && e.1 < base b + 0x1000)
  let put := fun (from_ to_ : Nat) (m : SMap Reg) =>
    (of_ from_).foldl (fun m e => SMap.insert (e.1 - base from_ + base to_) e.2 m) m
  { s with regs := put a b (put b a rest) }

/-- The view in which tile `pt` makes run `run` of the step of tile `t`: there the run is tile `t` itself, which belongs to no
gang, and the check holds what the run has written; its pillar is the overlay, then the start versions, then the
primary's. -/
def enterView (s : State) (pt t : Nat) (run : RunKind) (c : TitheStep) : State :=
  let r := (c.recs.lookup run).getD .reset
  let view : TitheStep := { c with phase := .run, writes := r.writes, syncs := r.syncs, before := r.overlay }
  let put := fun (c : TitheStep) (s : State) =>
    { s with tithe := { s.tithe with steps := s.tithe.steps.map fun p => if p.1 = t then (t, c) else p } }
  if pt = t then put { view with scratch := some (s.tile t) } (s.setTile t (c.scratch.getD (s.tile t)))
  else put view (((s.setTile t (s.tile pt)).setTile pt (s.tile t)).swapPages t pt)

/-- Back from the view: the tiles change places again, and the check of the step, which is otherwise as it was, takes what the
run has written. -/
def leaveView (s : State) (pt t : Nat) (run : RunKind) (c : TitheStep) : State :=
  match s.tithe.steps.find? fun p => p.1 = t with
  | none => s
  | some (_, v) =>
    let r : RunRec := { writes := v.writes, overlay := v.before, syncs := v.syncs }
    let c := { c with recs := (run, r) :: c.recs.filter fun e => e.1 ≠ run,
                      scratch := if pt = t then some (s.tile t) else c.scratch }
    let s := if pt = t then s.setTile t (v.scratch.getD (s.tile t))
      else ((s.setTile pt (s.tile t)).setTile t (s.tile pt)).swapPages t pt
    { s with tithe := { s.tithe with steps := s.tithe.steps.map fun p => if p.1 = t then (t, c) else p } }

/-- An action of the core or an engine of tile `t`, in its clock domain: where the tile makes a run in check mode, it is performed
in the run's view of the primary's step (R405). (log 60: DESIGN CHOICE) -/
def asRun (s : State) (t : Nat) (f : Nat → State → State) : State :=
  s.inClock (paddockOf t)
    (match s.runAt t with
    | none => f t s
    | some (p, run) =>
      match s.tithe.steps.find? fun e => e.1 = p with
      | some (_, c) => (f p (s.enterView t p run c)).leaveView t p run c
      | none => s)

/-! ### The own pillar (R400, R405) -/

/-- Remember the codeword of the own pillar at `off` as it was at the start of a sampled step (R400). -/
def keepBefore (s : State) (t off : Nat) : State :=
  let c := s.storedCw false (t * 2 ^ 19 + off / 64)
  let r := classify c.1 c.2
  s.onCheck t fun k =>
    if k.before.any fun b => b.1 = off then k
    else { k with before := k.before ++ [(off, ⟨r.data, r.cls.marked⟩)], used := k.used + 64 }

/-- Tile `t` reads the codeword of its own pillar at `off`; a run reads its overlay, then the start version, then the
primary's pillar (R405). -/
def ownRead (s : State) (t off : Nat) : Line × State :=
  let held := (s.tithe.steps.find? fun p => p.1 = t && decide (p.2.phase = .run)).bind fun p => p.2.before.lookup off
  match held with
  | some l => (l, s)
  | none => s.readLoc (.field t off)

/-- Tile `t` writes bytes of the codeword of its own pillar at `off`; a run writes its overlay (R400, R405). -/
def ownWrite (s : State) (t off : Nat) (env : Env) (data : List Byte) (mask : Nat) (blight : Bool) : State :=
  if s.inRun t then
    let (old, s) := s.ownRead t off
    let new := if mask % 2 ^ 64 = 2 ^ 64 - 1 then ⟨data, blight⟩ else mergeLine old data mask blight
    s.onCheck t fun k => { k with before := (off, new) :: k.before.filter fun b => b.1 ≠ off }
  else (s.keepBefore t off).mergeLoc env (.field t off) data mask blight

/-- What the encoders of the pillar codewords `cws` show to a row that carries no Env: whether each receives a word with bad
parity is free (R65). (log 8: DESIGN CHOICE) -/
def freeEnv (s : State) (cws : List Nat) : Env × State :=
  foldEach cws (Env.none, s) fun cw r =>
    let (b, s) := r.2.takeFree 1
    (if b = 1 then { r.1 with encField := cw :: r.1.encField } else r.1, s)

/-- The staged lines of a sampled step that were applied after `n` of its sync entries had completed. -/
def appliedAt (c : TitheStep) (n : Nat) : List (LineDest × Nat × Line) := (c.applied.filter fun l => l.1 = n).map (·.2)

/-- A replay or a run of tile `t`'s step has completed `n` sync entries: the staged lines logged with that number are applied
to the tile, from which a rollback had taken them with the step's own writes (R403, R425). (log 62: DEDUCED) -/
def reapply (s : State) (env : Env) (t n : Nat) : State :=
  match s.replayOf t with
  | none => s
  | some c =>
    foldEach (appliedAt c n) s fun l s =>
      match l.1 with
      | .bin a => s.onTile t fun x => x.mergeLine (a % 2 ^ 18 / 64) l.2.2.data l.2.1 l.2.2.blight
      | .pillar off => s.ownWrite t (off / 64 * 64) env l.2.2.data l.2.1 l.2.2.blight
      | .barn _ => s

/-- The sampled step of tile `t` completes a sync entry (R400). -/
def syncDone (s : State) (t : Nat) : State :=
  let s := s.onCheck t fun c => { c with syncs := c.syncs + 1 }
  match s.replayOf t with
  | some c =>
    let cws := (appliedAt c c.syncs).filterMap fun l =>
      match l.1 with | .pillar off => some (t * 2 ^ 19 + off / 64) | _ => none
    let (env, s) := s.freeEnv cws
    s.reapply env t c.syncs
  | none => s

/-- The hold of tile `t`'s sampled step takes `n` bytes of data, or `m` bytes at most of something whose size the manual
does not give (R400, R401). -/
def holdData (s : State) (t n m : Nat) : State :=
  s.onCheck t fun c => { c with used := c.used + n, extra := c.extra + m }

/-- The 64 bytes of a record whose `bs` lie at byte `off` of its line, and their mask (R404). -/
def recordLine (off : Nat) (bs : List Byte) : Nat × List Byte :=
  (2 ^ off * (2 ^ bs.length - 1), padTo 64 (zeros off ++ bs))

/-- Record bytes written at address `a` of kind `kind`, line by line. -/
def signBytes (s : State) (t source entry kind a : Nat) (bs : List Byte) (blight : Bool) : Nat → State
  | 0 => s
  | n + 1 =>
    let room := 64 - a % 64
    let (mask, data) := recordLine (a % 64) (bs.take room)
    let s := s.sign t { source, entry, kind, blight, addr := a / 64 * 64, mask, data }
    if bs.length ≤ room then s else signBytes s t source entry kind (a + room) (bs.drop room) blight n

/-- Store bytes into the bin of tile `t` by entry `id` of queue `q` and sign the write. -/
def binWrite (s : State) (t q id a : Nat) (bs : List Byte) (blight : Bool) : State :=
  if bs = [] then s
  else
    let s := s.signBytes t (q + 1) id 0 a bs blight (bs.length / 64 + 2)
    s.onTile t fun x => binStore x a bs blight

/-! ### Retiring an instruction -/

end State

/-- The loop units whose body ends at `pc` act, the most recently armed first: one with iterations left takes execution
back to its first instruction; one that is spent disarms and lets the next act (R105, R107). (log 35: DEDUCED) -/
def loopAct (pc : Nat) : List ArmedLoop → Option Nat × List ArmedLoop
  | [] => (none, [])
  | l :: ls =>
    if l.last = pc then
      if 1 < l.live then (some l.first, { l with live := l.live - 1 } :: ls) else loopAct pc ls
    else
      let r := loopAct pc ls
      (r.1, l :: r.2)

/-- A taken branch or J disarms every unit whose body its target leaves; a J also those whose body ends at it (R108). -/
def loopLeave (pc tgt : Nat) (isJ : Bool) (ls : List ArmedLoop) : List ArmedLoop :=
  ls.filter fun l => l.first ≤ tgt && tgt ≤ l.last && !(isJ && l.last = pc)

namespace State

/-- Count a retired instruction (R130). -/
def countRetired (s : State) (t : Nat) : State := s.addF ((Page.tile t).base + 0x48) 63 0 1

/-- Raise a core fault at the current instruction (R132). -/
def coreFault (s : State) (t code detail addr : Nat) : State :=
  s.tileFault t (FaultInfo.core code (s.tile t).pc detail addr)

/-- Continue at `next`; falling through past 0x7FFC faults PC_RANGE with PC 0x8000 (R100). -/
def goTo (s : State) (t next : Nat) : State :=
  let s := s.onTile t fun x => { x with pc := next }
  if next = 0x8000 then s.coreFault t 0x02 0 0 else s

/-- Retire the instruction at PC; execution continues at `seq` unless a loop unit takes it back (R105). -/
def retireTo (s : State) (t seq : Nat) : State :=
  let x := s.tile t
  let r := loopAct x.pc x.loops
  let s := (s.countRetired t).onTile t fun x => { x with loops := r.2 }
  s.goTo t (r.1.getD seq)

/-- Retire the instruction at PC and go on to the next. -/
def retire (s : State) (t : Nat) : State := s.retireTo t ((s.tile t).pc + 4)

/-- Take a branch or jump to `tgt`, a byte address before range checking: outside instruction memory it faults and does
not retire (R100). `link` is the register that takes PC + 4, for JAL and JALR, which disarm nothing (R108). -/
def jumpTo (s : State) (t : Nat) (tgt : Int) (isJ : Bool) (link : Option (BitVec 5)) : State :=
  if tgt < 0 ∨ 0x7FFC < tgt ∨ tgt % 4 ≠ 0 then s.coreFault t 0x02 0 0
  else
    let n := tgt.toNat
    let s := s.countRetired t
    s.onTile t fun x =>
      match link with
      | some r => { x.wr r (BitVec.ofNat 32 (x.pc + 4)) with pc := n }
      | none => { x with pc := n, loops := loopLeave x.pc n isJ x.loops }

/-- The instruction word at PC. -/
def fetched (s : State) (t : Nat) : Word := SMap.look 0 (s.tile t).imem ((s.tile t).pc / 4)

/-- Is the core of tile `t` about to execute the word `w`? -/
def about (s : State) (t : Nat) (w : Option Word) : Bool := (s.tile t).core = .running && some (s.fetched t) = w

end State

/-- A Yilac row: it is performed when its tile's core is running with the row's word at PC, and otherwise nothing
happens. -/
def yilac (t : Nat) (w : Option Word) (s : State) (f : Nat → State → State) : Res :=
  guardUnit (isTile t) (s.asRun t fun t s => if s.about t w then f t s else s)

/-- A row that writes a value to `rd` and goes on. -/
def aluRow (t : Nat) (w : Option Word) (rd : BitVec 5) (v : Tile → Word) (s : State) : Res :=
  yilac t w s fun t s => (s.onTile t fun x => x.wr rd (v x)).retire t

end Sys2Proof.Machine
end

