-- ==== Sys2Proof/Machine/Yilac.lean ====
section
/-! DEFINITION. The Yilac rows but for ENQ, WAITQ, COMMIT and HALT: arithmetic, loads and stores, control flow, hardware
loops, tile state registers, FAULT, TRACE and the malformed word (R95 to R108, R125 to R131). -/

namespace Sys2Proof.Machine

/-! ### Arithmetic (R97, R99) -/

/-- A signed comparison. -/
def ltS (a b : Word) : Bool := a.slt b

/-- One or zero. -/
def boolWord (b : Bool) : Word := if b then 1 else 0

/-- The high 32 bits of the signed product. -/
def mulHighS (a b : Word) : Word := ((a.signExtend 64 * b.signExtend 64).extractLsb' 32 32)

/-- The high 32 bits of the unsigned product. -/
def mulHighU (a b : Word) : Word := ((a.zeroExtend 64 * b.zeroExtend 64).extractLsb' 32 32)

/-- Leading zeros of the low `n` bits. -/
def leadingZeros (a : Word) : Nat → Nat
  | 0 => 0
  | n + 1 => if a.getLsbD n then 0 else 1 + leadingZeros a n

/-- The number of ones among the low `n` bits. -/
def onesIn (a : Word) : Nat → Nat
  | 0 => 0
  | n + 1 => b2n (a.getLsbD n) + onesIn a n

/-- ADD. -/
def execAdd (t : Nat) (rd ra rb : BitVec 5) (s : State) : Res :=
  aluRow t (encodeYilac (.add t rd ra rb)) rd (fun x => x.rd ra + x.rd rb) s
/-- SUB. -/
def execSub (t : Nat) (rd ra rb : BitVec 5) (s : State) : Res :=
  aluRow t (encodeYilac (.sub t rd ra rb)) rd (fun x => x.rd ra - x.rd rb) s
/-- AND. -/
def execAndR (t : Nat) (rd ra rb : BitVec 5) (s : State) : Res :=
  aluRow t (encodeYilac (.andR t rd ra rb)) rd (fun x => x.rd ra &&& x.rd rb) s
/-- OR. -/
def execOrR (t : Nat) (rd ra rb : BitVec 5) (s : State) : Res :=
  aluRow t (encodeYilac (.orR t rd ra rb)) rd (fun x => x.rd ra ||| x.rd rb) s
/-- XOR. -/
def execXorR (t : Nat) (rd ra rb : BitVec 5) (s : State) : Res :=
  aluRow t (encodeYilac (.xorR t rd ra rb)) rd (fun x => x.rd ra ^^^ x.rd rb) s
/-- SLL: by rb[4:0]. -/
def execSll (t : Nat) (rd ra rb : BitVec 5) (s : State) : Res :=
  aluRow t (encodeYilac (.sll t rd ra rb)) rd (fun x => x.rd ra <<< ((x.rd rb).toNat % 32)) s
/-- SRL: zero fill. -/
def execSrl (t : Nat) (rd ra rb : BitVec 5) (s : State) : Res :=
  aluRow t (encodeYilac (.srl t rd ra rb)) rd (fun x => x.rd ra >>> ((x.rd rb).toNat % 32)) s
/-- SRA: sign fill. -/
def execSra (t : Nat) (rd ra rb : BitVec 5) (s : State) : Res :=
  aluRow t (encodeYilac (.sra t rd ra rb)) rd (fun x => (x.rd ra).sshiftRight ((x.rd rb).toNat % 32)) s
/-- SLT. -/
def execSlt (t : Nat) (rd ra rb : BitVec 5) (s : State) : Res :=
  aluRow t (encodeYilac (.slt t rd ra rb)) rd (fun x => boolWord (ltS (x.rd ra) (x.rd rb))) s
/-- SLTU. -/
def execSltu (t : Nat) (rd ra rb : BitVec 5) (s : State) : Res :=
  aluRow t (encodeYilac (.sltu t rd ra rb)) rd (fun x => boolWord ((x.rd ra).ult (x.rd rb))) s
/-- MIN. -/
def execMin (t : Nat) (rd ra rb : BitVec 5) (s : State) : Res :=
  aluRow t (encodeYilac (.min t rd ra rb)) rd (fun x => if ltS (x.rd ra) (x.rd rb) then x.rd ra else x.rd rb) s
/-- MAX. -/
def execMax (t : Nat) (rd ra rb : BitVec 5) (s : State) : Res :=
  aluRow t (encodeYilac (.max t rd ra rb)) rd (fun x => if ltS (x.rd ra) (x.rd rb) then x.rd rb else x.rd ra) s
/-- MINU. -/
def execMinu (t : Nat) (rd ra rb : BitVec 5) (s : State) : Res :=
  aluRow t (encodeYilac (.minu t rd ra rb)) rd (fun x => if (x.rd ra).ult (x.rd rb) then x.rd ra else x.rd rb) s
/-- MAXU. -/
def execMaxu (t : Nat) (rd ra rb : BitVec 5) (s : State) : Res :=
  aluRow t (encodeYilac (.maxu t rd ra rb)) rd (fun x => if (x.rd ra).ult (x.rd rb) then x.rd rb else x.rd ra) s
/-- MUL. -/
def execMul (t : Nat) (rd ra rb : BitVec 5) (s : State) : Res :=
  aluRow t (encodeYilac (.mul t rd ra rb)) rd (fun x => x.rd ra * x.rd rb) s
/-- MULH. -/
def execMulh (t : Nat) (rd ra rb : BitVec 5) (s : State) : Res :=
  aluRow t (encodeYilac (.mulh t rd ra rb)) rd (fun x => mulHighS (x.rd ra) (x.rd rb)) s
/-- MULHU. -/
def execMulhu (t : Nat) (rd ra rb : BitVec 5) (s : State) : Res :=
  aluRow t (encodeYilac (.mulhu t rd ra rb)) rd (fun x => mulHighU (x.rd ra) (x.rd rb)) s
/-- CLZ. -/
def execClz (t : Nat) (rd ra : BitVec 5) (s : State) : Res :=
  aluRow t (encodeYilac (.clz t rd ra)) rd (fun x => BitVec.ofNat 32 (leadingZeros (x.rd ra) 32)) s
/-- POPC. -/
def execPopc (t : Nat) (rd ra : BitVec 5) (s : State) : Res :=
  aluRow t (encodeYilac (.popc t rd ra)) rd (fun x => BitVec.ofNat 32 (onesIn (x.rd ra) 32)) s
/-- ADDI. -/
def execAddi (t : Nat) (rd ra : BitVec 5) (imm : BitVec 16) (s : State) : Res :=
  aluRow t (encodeYilac (.addi t rd ra imm)) rd (fun x => x.rd ra + immS imm) s
/-- ANDI. -/
def execAndi (t : Nat) (rd ra : BitVec 5) (imm : BitVec 16) (s : State) : Res :=
  aluRow t (encodeYilac (.andi t rd ra imm)) rd (fun x => x.rd ra &&& immZ imm) s
/-- ORI. -/
def execOri (t : Nat) (rd ra : BitVec 5) (imm : BitVec 16) (s : State) : Res :=
  aluRow t (encodeYilac (.ori t rd ra imm)) rd (fun x => x.rd ra ||| immZ imm) s
/-- XORI. -/
def execXori (t : Nat) (rd ra : BitVec 5) (imm : BitVec 16) (s : State) : Res :=
  aluRow t (encodeYilac (.xori t rd ra imm)) rd (fun x => x.rd ra ^^^ immZ imm) s
/-- SLTI. -/
def execSlti (t : Nat) (rd ra : BitVec 5) (imm : BitVec 16) (s : State) : Res :=
  aluRow t (encodeYilac (.slti t rd ra imm)) rd (fun x => boolWord (ltS (x.rd ra) (immS imm))) s
/-- SLTIU. -/
def execSltiu (t : Nat) (rd ra : BitVec 5) (imm : BitVec 16) (s : State) : Res :=
  aluRow t (encodeYilac (.sltiu t rd ra imm)) rd (fun x => boolWord ((x.rd ra).ult (immZ imm))) s
/-- SLLI. -/
def execSlli (t : Nat) (rd ra sh : BitVec 5) (s : State) : Res :=
  aluRow t (encodeYilac (.slli t rd ra sh)) rd (fun x => x.rd ra <<< sh.toNat) s
/-- SRLI. -/
def execSrli (t : Nat) (rd ra sh : BitVec 5) (s : State) : Res :=
  aluRow t (encodeYilac (.srli t rd ra sh)) rd (fun x => x.rd ra >>> sh.toNat) s
/-- SRAI. -/
def execSrai (t : Nat) (rd ra sh : BitVec 5) (s : State) : Res :=
  aluRow t (encodeYilac (.srai t rd ra sh)) rd (fun x => (x.rd ra).sshiftRight sh.toNat) s
/-- LUI. -/
def execLui (t : Nat) (rd : BitVec 5) (imm : BitVec 16) (s : State) : Res :=
  aluRow t (encodeYilac (.lui t rd imm)) rd (fun _ => immZ imm <<< 16) s

/-! ### Loads (R96, R97, R125, R126, R498) -/

namespace State

/-- Load `n` bytes at `a` into `rd` after `ext` has widened them. `bad`: the read finds a parity error. A bin line with one
is blighted and logged, and a blighted line faults BLIGHTED; a crib parity error faults CRIB_PARITY. -/
def load (s : State) (t a n : Nat) (bad : Bool) (rd : BitVec 5) (ext : Nat → Word) : State :=
  if !inBin a && !inCrib a then s.coreFault t 0x04 0 a
  else if a % n ≠ 0 then s.coreFault t 0x03 0 a
  else if inBin a then
    let s := s.touch t a n
    let s := if bad then s.binParity t a else s
    if SMap.look false (s.tile t).binBlight (a / 64) then s.coreFault t 0x0F 0 a
    else
      let v := ext (leNat (readBytes (s.tile t).bin a n))
      (s.onTile t fun x => x.wr rd v).retire t
  else
    let c := a - 0x40000
    if bad then s.coreFault t 0x06 0 a
    else if SMap.look false (s.tile t).cribBlight (c / 64) then s.coreFault t 0x0F 0 a
    else
      let v := ext (leNat (readBytes (s.tile t).crib c n))
      ((s.touch t a n).onTile t fun x => x.wr rd v).retire t

/-- Store the low `n` bytes of `v` at `a`. A bin store of fewer than four bytes reads the word first, and `bad` says that
this read finds a parity error (R124, R125); it counts as a store since the last COMMIT (R101). -/
def store (s : State) (t a n : Nat) (bad : Bool) (v : Word) : State :=
  if !inBin a && !inCrib a then s.coreFault t 0x04 0 a
  else if a % n ≠ 0 then s.coreFault t 0x03 0 a
  else
    let bs := leBytes n v.toNat
    let id := (s.tile t).nextId
    if inBin a then
      let s := if bad then s.binParity t a else s
      let s := s.signBytes t 0 id 0 a bs false 2
      let s := s.onTile t fun x => { binStore x a bs false with dirty := true, nextId := x.nextId + 1 }
      s.retire t
    else
      let s := s.signBytes t 0 id 1 a bs false 2
      let s := s.onTile t fun x => { x with crib := writeBytes x.crib (a - 0x40000) bs, nextId := x.nextId + 1 }
      s.retire t

end State

/-- A value of `w` bits, sign-extended or zero-extended. -/
def extS (w v : Nat) : Word := BitVec.ofInt 32 (sgn w v)
def extZ (v : Nat) : Word := BitVec.ofNat 32 v

/-- A load row. -/
def loadRow (t : Nat) (i : Instr) (rd ra : BitVec 5) (imm : BitVec 16) (n : Nat) (bad : Bool) (ext : Nat → Word)
    (s : State) : Res :=
  yilac t (encodeYilac i) s fun t s => s.load t ((s.tile t).ea ra imm) n bad rd ext

/-- LDW. -/
def execLdw (t : Nat) (rd ra : BitVec 5) (imm : BitVec 16) (bad : Bool) (s : State) : Res :=
  loadRow t (.ldw t rd ra imm bad) rd ra imm 4 bad extZ s
/-- LDH. -/
def execLdh (t : Nat) (rd ra : BitVec 5) (imm : BitVec 16) (bad : Bool) (s : State) : Res :=
  loadRow t (.ldh t rd ra imm bad) rd ra imm 2 bad (extS 16) s
/-- LDHU. -/
def execLdhu (t : Nat) (rd ra : BitVec 5) (imm : BitVec 16) (bad : Bool) (s : State) : Res :=
  loadRow t (.ldhu t rd ra imm bad) rd ra imm 2 bad extZ s
/-- LDB. -/
def execLdb (t : Nat) (rd ra : BitVec 5) (imm : BitVec 16) (bad : Bool) (s : State) : Res :=
  loadRow t (.ldb t rd ra imm bad) rd ra imm 1 bad (extS 8) s
/-- LDBU. -/
def execLdbu (t : Nat) (rd ra : BitVec 5) (imm : BitVec 16) (bad : Bool) (s : State) : Res :=
  loadRow t (.ldbu t rd ra imm bad) rd ra imm 1 bad extZ s

/-- A store row. -/
def storeRow (t : Nat) (i : Instr) (rb ra : BitVec 5) (off : BitVec 16) (n : Nat) (bad : Bool) (s : State) : Res :=
  yilac t (encodeYilac i) s fun t s => s.store t ((s.tile t).ea ra off) n bad ((s.tile t).rd rb)

/-- STW. -/
def execStw (t : Nat) (rb ra : BitVec 5) (off : BitVec 16) (s : State) : Res :=
  storeRow t (.stw t rb ra off) rb ra off 4 false s
/-- STH. -/
def execSth (t : Nat) (rb ra : BitVec 5) (off : BitVec 16) (bad : Bool) (s : State) : Res :=
  storeRow t (.sth t rb ra off bad) rb ra off 2 bad s
/-- STB. -/
def execStb (t : Nat) (rb ra : BitVec 5) (off : BitVec 16) (bad : Bool) (s : State) : Res :=
  storeRow t (.stb t rb ra off bad) rb ra off 1 bad s

/-! ### Control flow (R100, R108) -/

/-- A branch row: taken when `c` holds of ra and rb. A branch not taken retires as any instruction does. -/
def branchRow (t : Nat) (i : Instr) (ra rb : BitVec 5) (off : BitVec 16) (c : Word → Word → Bool) (s : State) : Res :=
  yilac t (encodeYilac i) s fun t s =>
    let x := s.tile t
    if c (x.rd ra) (x.rd rb) then s.jumpTo t ((x.pc : Int) + 4 * off.toInt) false none else s.retire t

/-- BEQ. -/
def execBeq (t : Nat) (ra rb : BitVec 5) (off : BitVec 16) (s : State) : Res :=
  branchRow t (.beq t ra rb off) ra rb off (fun a b => a == b) s
/-- BNE. -/
def execBne (t : Nat) (ra rb : BitVec 5) (off : BitVec 16) (s : State) : Res :=
  branchRow t (.bne t ra rb off) ra rb off (fun a b => a != b) s
/-- BLT. -/
def execBlt (t : Nat) (ra rb : BitVec 5) (off : BitVec 16) (s : State) : Res :=
  branchRow t (.blt t ra rb off) ra rb off ltS s
/-- BGE. -/
def execBge (t : Nat) (ra rb : BitVec 5) (off : BitVec 16) (s : State) : Res :=
  branchRow t (.bge t ra rb off) ra rb off (fun a b => !ltS a b) s
/-- BLTU. -/
def execBltu (t : Nat) (ra rb : BitVec 5) (off : BitVec 16) (s : State) : Res :=
  branchRow t (.bltu t ra rb off) ra rb off (fun a b => a.ult b) s
/-- BGEU. -/
def execBgeu (t : Nat) (ra rb : BitVec 5) (off : BitVec 16) (s : State) : Res :=
  branchRow t (.bgeu t ra rb off) ra rb off (fun a b => !a.ult b) s
/-- J. -/
def execJ (t : Nat) (off : BitVec 26) (s : State) : Res :=
  yilac t (encodeYilac (.j t off)) s fun t s => s.jumpTo t (((s.tile t).pc : Int) + 4 * off.toInt) true none
/-- JAL. -/
def execJal (t : Nat) (off : BitVec 26) (s : State) : Res :=
  yilac t (encodeYilac (.jal t off)) s fun t s => s.jumpTo t (((s.tile t).pc : Int) + 4 * off.toInt) false (some 31)
/-- JALR: the target is ra as it was before rd is written. -/
def execJalr (t : Nat) (rd ra : BitVec 5) (s : State) : Res :=
  yilac t (encodeYilac (.jalr t rd ra)) s fun t s => s.jumpTo t ((s.tile t).rd ra).toNat false (some rd)

/-! ### Hardware loops (R103 to R107) -/

/-- LOOP: a count that is not zero arms unit `k`, wherever an outer body that ends here goes (R105). A word with m 0
and cnt not 0 is malformed (R99) and is ILLEGAL_INSTR's. -/
def execLoop (t : Nat) (k : BitVec 2) (m : BitVec 1) (cnt : BitVec 11) (body : BitVec 12) (s : State) : Res :=
  yilac t (encodeYilac (.loop t k m cnt body)) s fun t s =>
    let x := s.tile t
    let last := x.pc + 4 + 4 * body.toNat
    if m = 0 ∧ cnt ≠ 0 then s.coreFault t 0x01 0 0
    else if 0x7FFC < last then s.coreFault t 0x02 0 0
    else if x.loops.any fun l => l.k = k.toNat then s.coreFault t 0x0A 0 0
    else
      let n := if m = 1 then cnt.toNat else (SMap.look 0 x.lc k.toNat).toNat
      if n = 0 then s.retireTo t (last + 4)
      else
        (s.retire t).onTile t fun y => { y with loops := ⟨k.toNat, x.pc + 4, last, n⟩ :: y.loops }

/-! ### Tile state registers (R127, R128, R129) -/

/-- QFILL: entries occupied. -/
def Tile.qfill (x : Tile) : Nat :=
  let n := fun q => (x.queue.filter fun e => e.q = q).length
  n 0 + 2 ^ 5 * n 1 + 2 ^ 10 * n 2 + 2 ^ 15 * n 3 + 2 ^ 19 * n 4 + 2 ^ 25 * n 5

/-- The live count of loop unit `k`, zero while it is disarmed (R106). -/
def Tile.lrem (x : Tile) (k : Nat) : Nat := ((x.loops.find? fun l => l.k = k).map (·.live)).getD 0

namespace State

/-- The paddock mode in force at tile `t`: `PADDOCK.MODE.CUR` (R76). -/
def modeOf (s : State) (t : Nat) : Nat := s.getF ((Page.paddock (paddockOf t)).base + 0x40) 8 8

/-- The trace mode of the gang of tile `t` (R174). -/
def tmodeOf (s : State) (t : Nat) : Nat :=
  match (s.tile t).gang with
  | some g => (s.gang g).tmode
  | none => 0

/-- What MFTS of a listed number reads; none of one not listed. Reading a LO half latches its HI half. -/
def readTs (s : State) (t num : Nat) : Option (Word × State) :=
  let x := s.tile t
  let val := fun (n : Nat) => some (BitVec.ofNat 32 n, s)
  match num with
  | 0x000 =>
    let s := s.advanceCycle t
    let c := (s.tile t).cycle
    some (c.truncate 32, s.onTile t fun x => { x with cycleHi := c.extractLsb' 32 32 })
  | 0x001 => some (x.cycleHi, s)
  | 0x002 =>
    let s := s.advanceBeat t
    let b := (s.pillar t).beat.toNat
    some (BitVec.ofNat 32 b, s.onTile t fun x => { x with beatHi := BitVec.ofNat 32 (b / 2 ^ 32) })
  | 0x003 => val (x.beatHi.toNat % 2 ^ 16 + 2 ^ 16 * s.getF ((Page.tile t).base + 0xA4) 0 0)
  | 0x004 =>
    match s.ltileOf t with
    | some l => val l
    | none => some (s.takeFree 32)
  | 0x005 => val t
  | 0x006 => val x.gangId
  | 0x007 => val x.rank
  | 0x008 => val x.gsize
  | 0x009 => val x.epoch.toNat
  | 0x00A => val x.qfill
  | 0x00B => val (s.modeOf t)
  | 0x00C => val (s.tmodeOf t)
  | 0x010 => some (SMap.look 0 x.lc 0, s)
  | 0x011 => some (SMap.look 0 x.lc 1, s)
  | 0x012 => some (SMap.look 0 x.lc 2, s)
  | 0x013 => some (SMap.look 0 x.lc 3, s)
  | 0x014 => val (x.lrem 0)
  | 0x015 => val (x.lrem 1)
  | 0x016 => val (x.lrem 2)
  | 0x017 => val (x.lrem 3)
  | _ => none

end State

/-- MFTS. -/
def execMfts (t : Nat) (rd : BitVec 5) (num : BitVec 16) (s : State) : Res :=
  yilac t (encodeYilac (.mfts t rd num)) s fun t s =>
    match s.readTs t num.toNat with
    | some (v, s) => (s.onTile t fun x => x.wr rd v).retire t
    | none => s.coreFault t 0x01 0 0

/-- MTTS: LC0 to LC3 are the registers that may be written. -/
def execMtts (t : Nat) (ra : BitVec 5) (num : BitVec 16) (s : State) : Res :=
  yilac t (encodeYilac (.mtts t ra num)) s fun t s =>
    if 0x10 ≤ num.toNat ∧ num.toNat ≤ 0x13 then
      (s.onTile t fun x => { x with lc := SMap.put 0 x.lc (num.toNat - 0x10) (x.rd ra) }).retire t
    else s.coreFault t 0x01 0 0

/-! ### System -/

/-- FAULT. -/
def execFaultI (t : Nat) (imm : BitVec 16) (s : State) : Res :=
  yilac t (encodeYilac (.faultI t imm)) s fun t s => s.coreFault t 0x0C imm.toNat 0

/-- TRACE: a marker of type 3 outside service mode, which waits while the trace ring has no room (R101, R174). -/
def execTrace (t : Nat) (imm : BitVec 16) (s : State) : Res :=
  yilac t (encodeYilac (.trace t imm)) s fun t s =>
    if s.tileBlocked t 3 then s else (s.trace t 3 0xFF imm.toNat 0).retire t

/-- ILLEGAL_INSTR: with `bad`, the word at PC has a parity error (R131); otherwise it must spell no instruction. (log
34: DEDUCED) -/
def execIllegalInstr (t : Nat) (bad : Bool) (s : State) : Res :=
  guardUnit (isTile t) (s.asRun t fun t s =>
    if (s.tile t).core = .running then
      if bad then s.coreFault t 0x05 0 0
      else if decodeYilac t (s.fetched t) = none then s.coreFault t 0x01 0 0
      else s
    else s)

end Sys2Proof.Machine
end

