-- ==== Sys2Proof/Machine/Desc.lean ====
section
/-! DEFINITION. What the engine entries share: descriptor fields and the checks of ENQ (R111, R112, R161 to R163),
reading operands from the bin with their blight, and writing results back line by line (R124, R125). -/

namespace Sys2Proof.Machine

/-- A failed check: fault code, DETAIL and ADDR. -/
abbrev Check := Option (Nat × Nat × Nat)

/-- The first failed check of two. -/
def Check.orElse (a : Check) (b : Unit → Check) : Check :=
  match a with
  | some f => some f
  | none => b ()

/-- A reserved part of a descriptor: the byte offset of its field, the lowest bit and the width among the 512 bits. -/
structure ReservedPart where
  byte : Nat
  low : Nat
  width : Nat

/-- The offsets of the fields whose reserved part is not zero (R112). (log 27: DEDUCED) -/
def reservedSet (desc : List Byte) (fs : List ReservedPart) : List Nat :=
  (fs.filter fun f => bits (leNat desc) (f.low + f.width - 1) f.low ≠ 0).map (·.byte)

/-- The reserved fields of the common header (R111). -/
def headerReserved : List ReservedPart := [⟨2, 22, 10⟩, ⟨4, 32, 32⟩]

/-- The reserved [31:18] of each bin address or stride at these byte offsets. -/
def hi14 (offs : List Nat) : List ReservedPart := offs.map fun o => ⟨o, 8 * o + 18, 14⟩

/-- Offsets for which a condition holds. -/
def whenBad (cs : List (Bool × Nat)) : List Nat := cs.filterMap fun c => if c.1 then some c.2 else none

/-- ILLEGAL_DESC naming the lowest of these offsets (R112). (log 27: DEDUCED) -/
def illegal (offs : List Nat) : Check :=
  match offs with
  | [] => none
  | o :: os => some (0x0E, os.foldl min o, 0)

/-- The first address at or past `limit` among `count` runs of `width` bytes, `stride` apart from `base` (R163). (log
28: DEDUCED) -/
def firstOut (limit base count stride width : Nat) : Option Nat :=
  if count = 0 ∨ width = 0 then none
  else if limit < base + width then some (max base limit)
  else if stride = 0 then none
  else
    let r := (limit - base - width) / stride + 1
    if r < count then some (max (base + r * stride) limit) else none

/-- BOUNDS on operand `n` of the bin (R163). -/
def binBounds (n base count stride width : Nat) : Check :=
  (firstOut 0x40000 base count stride width).map fun a => (0x07, n, a)

/-- The lowest and one past the highest byte of `count` runs; none when nothing is touched (R163, R193). -/
def byteRange (base count stride width : Nat) : Option (Nat × Nat) :=
  if count = 0 ∨ width = 0 then none else some (base, base + (count - 1) * stride + width)

/-- Do two byte ranges share a byte? -/
def overlap (a b : Option (Nat × Nat)) : Bool :=
  match a, b with
  | some x, some y => x.1 < y.2 && y.1 < x.2
  | _, _ => false

/-- The lines of 64 bytes that `n` bytes at `a` touch. -/
def linesOf (a n : Nat) : List Nat := if n = 0 then [] else (List.range ((a + n + 63) / 64 - a / 64)).map (a / 64 + ·)

/-- One element to be written: its address, its bytes, and whether it was computed from a blighted input. -/
structure OutElem where
  addr : Nat
  bytes : List Byte
  blight : Bool

/-- Join elements that follow one another in memory into runs of bytes, each with its mark. -/
def joinRuns : List OutElem → List (Nat × List (Byte × Bool))
  | [] => []
  | e :: es =>
    let mine := e.bytes.map fun b => (b, e.blight)
    match joinRuns es with
    | [] => [(e.addr, mine)]
    | (a, bs) :: rest => if e.addr + e.bytes.length = a then (e.addr, mine ++ bs) :: rest else (e.addr, mine) :: (a, bs) :: rest

/-- The runs of set bytes of a mask: first byte and length. `n` bounds the bytes still to look at. -/
def maskRuns (mask i : Nat) : Nat → List (Nat × Nat)
  | 0 => []
  | n + 1 =>
    let rest := maskRuns mask (i + 1) n
    if !bit mask i then rest
    else
      match rest with
      | (j, m) :: more => if j = i + 1 then (i, m + 1) :: more else (i, 1) :: rest
      | [] => [(i, 1)]

/-- The words of the line at `a` that a write of these bytes of it reads first, as it covers fewer than four bytes of them
(R124). -/
def partReads (a mask : Nat) : List (Nat × Nat) :=
  ((List.range 16).filter fun w => mask / 16 ^ w % 16 ≠ 0 && mask / 16 ^ w % 16 ≠ 15).map fun w => (a + 4 * w, 4)

/-- A line of outputs: the bytes of it that outputs give, and those of them that are marked. -/
structure OutLine where
  addr : Nat
  mask : Nat
  data : List Byte
  marks : Nat

/-- Bytes within one line, over the lines gathered before: they take the place of earlier ones, marks included; a line is
placed where its last bytes come (R234, R237). -/
def putPiece (a : Nat) (bs : List (Byte × Bool)) (ls : List OutLine) : List OutLine :=
  let base := a / 64 * 64
  let off := a % 64
  let old : OutLine := (ls.find? fun l => l.addr = base).getD ⟨base, 0, zeros 64, 0⟩
  let given := 2 ^ off * (2 ^ bs.length - 1)
  let marked := (bs.zipIdx.filter fun b => b.1.2).foldl (fun m b => m ||| 2 ^ (off + b.2)) 0
  (ls.filter fun l => l.addr ≠ base) ++
    [{ addr := base, mask := old.mask ||| given,
       data := old.data.take off ++ bs.map (·.1) ++ old.data.drop (off + bs.length),
       marks := (old.marks ^^^ (old.marks &&& given)) ||| marked }]

/-- A run of bytes from `a`, over the lines gathered before; `n` bounds the lines it touches. -/
def putRun (a : Nat) (bs : List (Byte × Bool)) : Nat → List OutLine → List OutLine
  | 0, ls => ls
  | n + 1, ls =>
    let room := 64 - a % 64
    let ls := putPiece a (bs.take room) ls
    if bs.length ≤ room then ls else putRun (a + room) (bs.drop room) n ls

/-- The outputs of a step of an engine, gathered into lines (R234). -/
def gatherOut (es : List OutElem) : List OutLine :=
  (joinRuns es).foldl (fun ls r => putRun r.1 r.2 (r.2.length / 64 + 2) ls) []

namespace State

/-- Reads of ranges (address, length) of the bin of tile `t`: a parity error that they find blights its line (R125). -/
def binErrors (s : State) (t : Nat) (env : Env) (ranges : List (Nat × Nat)) : State :=
  foldEach (env.binPar.filter fun a => ranges.any fun r => r.1 ≤ a && a < r.1 + r.2) s fun a s => s.binParity t a

/-- Write bytes of the line at `a` of the bin of tile `t`: words that it covers in part are read first, and a parity error
found there blights the line (R124, R125). -/
def binLine (s : State) (t : Nat) (env : Env) (a mask : Nat) (data : List Byte) (blight : Bool) : State :=
  let s := s.binErrors t env (partReads a mask)
  foldEach (maskRuns mask 0 64) s fun r s => s.onTile t fun x => binStore x (a + r.1) ((data.drop r.1).take r.2) blight

/-- Write the outputs of entry `id` of queue `q`, a line at a time, and sign each line: one is blighted when an output in it
is (R31, R125, R202, R234, R237, R404). -/
def writeOut (s : State) (t q id : Nat) (env : Env) (es : List OutElem) : State :=
  foldEach (gatherOut es) s fun l s =>
    let blight := decide (l.marks ≠ 0)
    (s.sign t { source := q + 1, entry := id, kind := 0, blight, addr := l.addr, mask := l.mask, data := l.data }).binLine
      t env l.addr l.mask l.data blight

/-- Reads of ranges of the bin by tile `t`'s own operations: they go to the hold, and a parity error that they find blights
its line (R125, R400). -/
def binParitiesIn (s : State) (t : Nat) (env : Env) (ranges : List (Nat × Nat)) : State :=
  (foldEach ranges s fun r s => s.touch t r.1 r.2).binErrors t env ranges

/-- Is a line that these bytes of the bin touch blighted? -/
def binMarked (s : State) (t a n : Nat) : Bool :=
  (linesOf a n).any fun k => SMap.look false (s.tile t).binBlight k

/-- `n` bytes of the bin as a little-endian number. -/
def binNat (s : State) (t a n : Nat) : Nat := leNat (readBytes (s.tile t).bin a n)

/-! ### Entries -/

/-- The oldest incomplete entry of queue `q` of tile `t`. -/
def headEntry (s : State) (t q : Nat) : Option Entry := (s.tile t).queue.find? fun e => e.q = q

/-- Replace an entry by its changed form. -/
def setEntry (s : State) (t : Nat) (e : Entry) : State :=
  s.onTile t fun x => { x with queue := x.queue.map fun o => if o.id = e.id then e else o }

/-- Change entry `id`, if it is still in a queue. -/
def onEntry (s : State) (t id : Nat) (f : Entry → Entry) : State :=
  s.onTile t fun x => { x with queue := x.queue.map fun o => if o.id = id then f o else o }

/-! ### The tile port (R69, R118, R120) -/

end State

/-- An 18-bit bin address or stride at byte `o`. -/
def addr18 (d : List Byte) (o : Nat) : Nat := field d o 4 % 2 ^ 18

/-- A pillar stream command (R116). -/
structure PsCmd where
  off : Nat
  runlen : Nat
  runs : Nat
  stride : Int
  sink : Nat
  bin : Nat
  bstride : Nat

/-- Read a pillar stream descriptor. -/
def psCmd (d : List Byte) : PsCmd :=
  { off := field d 8 4 % 2 ^ 25, runlen := field d 12 2, runs := field d 14 2, stride := sgn 32 (field d 16 4),
    sink := field d 20 1 % 4, bin := addr18 d 24, bstride := addr18 d 28 }

/-- Codewords of the whole entry. -/
def PsCmd.total (c : PsCmd) : Nat := c.runs * c.runlen

/-- The pillar offset and bin address of codeword `k` of the entry. -/
def PsCmd.place (c : PsCmd) (k : Nat) : Nat × Nat :=
  let j := k / c.runlen
  let i := k % c.runlen
  (((c.off : Int) + 64 * j * c.stride + 64 * i).toNat, c.bin + j * c.bstride + 64 * i)

/-- The read-ahead buffer of sink `k`, 0 or 1. -/
def Tile.sink (x : Tile) (k : Nat) : List SinkWord := if k = 0 then x.sink0 else x.sink1

/-- Codewords a stream entry can read now: all that are left for the bin, what its sink's buffer has room for otherwise
(R118). -/
def Tile.streamRoom (x : Tile) (e : Entry) : Nat :=
  let c := psCmd e.desc
  min (c.total - e.progress) (if c.sink < 2 then 32 - (x.sink c.sink).length else c.total)

/-- Does a copy or cart entry have an own-pillar access to make: a source unit to read, or the next write? -/
def Entry.ownNext (e : Entry) : Bool :=
  match e.own, e.outs with
  | some (_ :: _), _ => true
  | _, .unit (.own _) _ _ :: _ => true
  | _, _ => false

/-- Has the running entry of source `k` of own-pillar accesses one ready: 0 the stream, 1 the copy engine, 2 the cart? -/
def Tile.portReady (x : Tile) (k : Nat) : Bool :=
  match x.queue.find? fun e => e.q = (if k = 0 then 4 else k + 1) with
  | some e => e.started && !e.performed && (if k = 0 then decide (0 < x.streamRoom e) else e.ownNext)
  | none => false

/-- The source whose turn at the tile port it is: the first after the one served last that has an access ready (R120). -/
def Tile.portTurn (x : Tile) : Option Nat :=
  ((List.range 3).map fun i => (x.port + 1 + i) % 3).find? x.portReady

namespace State

/-- Does the tile port serve source `k` of tile `t` now: it is its turn, and the pillar port's clock runs (R120, R476)? -/
def portServes (s : State) (t k : Nat) : Bool := (s.tile t).portTurn = some k && !s.pllLost (16 + paddockOf t)

/-- A running entry faults (R132). -/
def entryFault (s : State) (t : Nat) (e : Entry) (code detail addr : Nat) : State :=
  s.tileFault t (FaultInfo.entry e code detail addr)

end State

/-- A row of an engine: it is performed when the oldest entry of the queue has started, is not yet performed and holds
one of these operations; otherwise nothing happens. (log 4: DESIGN CHOICE) -/
def engineRow (t q : Nat) (ops : List Nat) (env : Env) (s : State) (f : Nat → Entry → State → State) : Res :=
  guardUnit (isTile t) (s.asRun t fun t s =>
    match s.headEntry t q with
    | some e =>
      if e.started && !e.performed && ops.contains (field e.desc 0 1) then f t e (s.upset env) else s
    | none => s)

namespace State

/-- The entry's reads and its own writes have been performed (R114). -/
def performed (s : State) (t : Nat) (e : Entry) : State := s.setEntry t { e with performed := true }

end State

end Sys2Proof.Machine
end

