-- ==== Sys2Proof/Machine/Float.lean ====
section
/-! DEFINITION. Exact arithmetic on the number formats of the engines: decoding, addition, multiplication, the special
functions, and one rounding to nearest with ties to even (R180, R197 to R200, R210, R215, R218, R223). -/

namespace Sys2Proof.Machine

/-- The exact value of an element: NaN, an infinity, or (-1)^neg × m × 2^e. Zeros keep their sign. -/
inductive FV where
  | nan
  | inf (neg : Bool)
  | fin (neg : Bool) (m : Nat) (e : Int)
  deriving DecidableEq, Repr

/-- How a floating-point format uses its largest exponent (R180). -/
inductive Specials where
  /-- Infinities and NaNs as IEEE 754 has them. -/
  | ieee
  /-- All ones is NaN; no infinity (E4M3). -/
  | oneNan
  /-- Every code is a finite number. -/
  | none
  deriving DecidableEq, Repr

/-- A binary floating-point format. -/
structure FFmt where
  expBits : Nat
  manBits : Nat
  bias : Nat
  specials : Specials
  deriving DecidableEq, Repr

/-- FP32 (R210). -/
def fp32 : FFmt := ⟨8, 23, 127, .ieee⟩
/-- BF16 (R180). -/
def bf16 : FFmt := ⟨8, 7, 127, .ieee⟩
/-- FP16 (R180). -/
def fp16 : FFmt := ⟨5, 10, 15, .ieee⟩
/-- E4M3 (R180). -/
def e4m3 : FFmt := ⟨4, 3, 7, .oneNan⟩
/-- E5M2 (R180). -/
def e5m2 : FFmt := ⟨5, 2, 15, .ieee⟩
/-- MXFP6 E3M2 (R180). -/
def e3m2 : FFmt := ⟨3, 2, 3, .none⟩
/-- MXFP6 E2M3 (R180). -/
def e2m3 : FFmt := ⟨2, 3, 1, .none⟩
/-- MXFP4 E2M1 (R180). -/
def e2m1 : FFmt := ⟨2, 1, 1, .none⟩

/-- The value of code `v` of a format. -/
def FFmt.decode (f : FFmt) (v : Nat) : FV :=
  let man := v % 2 ^ f.manBits
  let ex := v / 2 ^ f.manBits % 2 ^ f.expBits
  let neg := bit v (f.manBits + f.expBits)
  let top := 2 ^ f.expBits - 1
  if f.specials = .ieee ∧ ex = top then (if man = 0 then .inf neg else .nan)
  else if f.specials = .oneNan ∧ ex = top ∧ man = 2 ^ f.manBits - 1 then .nan
  else if ex = 0 then .fin neg man (1 - (f.bias : Int) - (f.manBits : Int))
  else .fin neg (man + 2 ^ f.manBits) ((ex : Int) - (f.bias : Int) - (f.manBits : Int))

/-- The canonical NaN of a format (R200, R223). -/
def FFmt.nan (f : FFmt) : Nat :=
  match f.specials with
  | .oneNan => 2 ^ (f.manBits + f.expBits) - 1
  | _ => (2 ^ f.expBits - 1) * 2 ^ f.manBits + 2 ^ (f.manBits - 1)

/-- The code of the largest finite magnitude. -/
def FFmt.maxCode (f : FFmt) : Nat :=
  match f.specials with
  | .ieee => (2 ^ f.expBits - 1) * 2 ^ f.manBits - 1
  | .oneNan => 2 ^ (f.manBits + f.expBits) - 2
  | .none => 2 ^ (f.manBits + f.expBits) - 1

/-- `m / 2^k` rounded to nearest, ties to even. -/
def rneShift (m k : Nat) : Nat :=
  let q := m >>> k
  let r := m % 2 ^ k
  if k = 0 then m
  else if 2 ^ (k - 1) < r then q + 1
  else if r = 2 ^ (k - 1) then q + q % 2
  else q

/-- The code of |m × 2^e| before overflow is looked at. -/
def FFmt.magnitude (f : FFmt) (m : Nat) (e : Int) : Nat :=
  if m = 0 then 0
  else
    let qmin : Int := 1 - (f.bias : Int) - (f.manBits : Int)
    let q := max (e + (Nat.log2 m : Int) - (f.manBits : Int)) qmin
    let u := if q ≤ e then m <<< (e - q).toNat else
      let k := (q - e).toNat
      if Nat.log2 m + 2 < k then 0 else rneShift m k
    (q - qmin).toNat * 2 ^ f.manBits + u

/-- Round a value to a format (R199, R223). With `sat`, overflow and infinity give the largest finite value. -/
def FFmt.encode (f : FFmt) (sat : Bool) (x : FV) : Nat :=
  let sign := fun (neg : Bool) => b2n neg * 2 ^ (f.manBits + f.expBits)
  let overflow := fun (neg : Bool) =>
    if sat then sign neg + f.maxCode
    else match f.specials with
      | .ieee => sign neg + (2 ^ f.expBits - 1) * 2 ^ f.manBits
      | _ => f.nan
  match x with
  | .nan => f.nan
  | .inf neg => overflow neg
  | .fin neg m e =>
    let c := f.magnitude m e
    if f.maxCode < c then overflow neg else sign neg + c

/-- The signed integer `m` in units of 2^e. -/
def FV.ofInt (m : Int) (e : Int) : FV := .fin (decide (m < 0)) m.natAbs e

/-- The signed mantissa. -/
def signedMan (neg : Bool) (m : Nat) : Int := if neg then -(m : Int) else m

/-- m1 × 2^e1 + m2 × 2^e2 as a mantissa and an exponent. -/
def addExact (m1 : Int) (e1 : Int) (m2 : Int) (e2 : Int) : Int × Int :=
  let e := min e1 e2
  (m1 * 2 ^ (e1 - e).toNat + m2 * 2 ^ (e2 - e).toNat, e)

/-- The exact sum; an exact zero of non-zero or opposite operands is +0.0, as IEEE 754 has it under rounding to nearest. -/
def FV.add : FV → FV → FV
  | .nan, _ => .nan
  | _, .nan => .nan
  | .inf a, .inf b => if a = b then .inf a else .nan
  | .inf a, _ => .inf a
  | _, .inf b => .inf b
  | .fin n1 m1 e1, .fin n2 m2 e2 =>
    if m1 = 0 ∧ m2 = 0 then .fin (n1 && n2) 0 0
    else
      let r := addExact (signedMan n1 m1) e1 (signedMan n2 m2) e2
      FV.ofInt r.1 r.2

/-- Negation. -/
def FV.neg : FV → FV
  | .nan => .nan
  | .inf n => .inf (!n)
  | .fin n m e => .fin (!n) m e

/-- The exact product. -/
def FV.mul : FV → FV → FV
  | .nan, _ => .nan
  | _, .nan => .nan
  | .inf a, .inf b => .inf (a != b)
  | .inf a, .fin n m _ => if m = 0 then .nan else .inf (a != n)
  | .fin n m _, .inf a => if m = 0 then .nan else .inf (a != n)
  | .fin n1 m1 e1, .fin n2 m2 e2 => .fin (n1 != n2) (m1 * m2) (e1 + e2)

/-- Times 2^k. -/
def FV.scale (k : Int) : FV → FV
  | .fin n m e => .fin n m (e + k)
  | x => x

/-- Is it an infinity, a NaN? -/
def FV.isNan : FV → Bool
  | .nan => true
  | _ => false
def FV.isInf : FV → Bool
  | .inf _ => true
  | _ => false

/-- `x < y` as real numbers or infinities, with −0.0 below +0.0 (R215). NaN compares with nothing. -/
def FV.lt : FV → FV → Bool
  | .nan, _ => false
  | _, .nan => false
  | .inf a, .inf b => a && !b
  | .inf a, _ => a
  | _, .inf b => !b
  | .fin n1 m1 e1, .fin n2 m2 e2 =>
    let d := (addExact (signedMan n1 m1) e1 (-(signedMan n2 m2)) e2).1
    if m1 = 0 ∧ m2 = 0 then n1 && !n2 else decide (d < 0)

/-- `x < y` as numbers: the two zeros are equal (R222). -/
def FV.below (x y : FV) : Bool :=
  match x, y with
  | .fin _ 0 _, .fin _ 0 _ => false
  | _, _ => x.lt y

/-! ### FP32 operations on bit patterns (R215) -/

/-- The value of an FP32 pattern. -/
def f32 (a : Nat) : FV := fp32.decode a
/-- One rounding to FP32. -/
def toF32 (x : FV) : Nat := fp32.encode false x

/-- ADD, SUB, MUL and FMA. -/
def fAdd (a b : Nat) : Nat := toF32 ((f32 a).add (f32 b))
def fSub (a b : Nat) : Nat := toF32 ((f32 a).add (f32 b).neg)
def fMul (a b : Nat) : Nat := toF32 ((f32 a).mul (f32 b))
def fFma (a b c : Nat) : Nat := toF32 (((f32 a).mul (f32 b)).add (f32 c))

/-- MIN and MAX. -/
def fMin (a b : Nat) : Nat :=
  if (f32 a).isNan || (f32 b).isNan then fp32.nan else if (f32 b).lt (f32 a) then b else a
def fMax (a b : Nat) : Nat :=
  if (f32 a).isNan || (f32 b).isNan then fp32.nan else if (f32 a).lt (f32 b) then b else a

/-- ABS and NEG. -/
def fAbs (a : Nat) : Nat := if (f32 a).isNan then fp32.nan else a % 2 ^ 31
def fNeg (a : Nat) : Nat := if (f32 a).isNan then fp32.nan else (a ^^^ 2 ^ 31)

/-! ### Special functions (R218)

Each is the exact result rounded once. A result that is not a binary number is irrational or a non-terminating quotient:
it is computed to far more bits than any such result needs to be told from a tie, with a last bit set to stand for the
rest. -/

/-- The integer square root of `n` by `k` bits, most significant first. -/
def isqrtBits (n : Nat) : Nat → Nat → Nat
  | 0, r => r
  | k + 1, r =>
    let c := r + 2 ^ k
    isqrtBits n k (if c * c ≤ n then c else r)

/-- The integer square root. -/
def isqrt (n : Nat) : Nat := isqrtBits n (Nat.log2 n / 2 + 1) 0

/-- RCP. -/
def fRcp (a : Nat) : Nat :=
  match f32 a with
  | .nan => fp32.nan
  | .inf n => b2n n * 2 ^ 31
  | .fin n m e =>
    if m = 0 then toF32 (.inf n)
    else
      let q := 2 ^ 64 / m
      toF32 (.fin n (2 * q + b2n (q * m ≠ 2 ^ 64)) (-65 - e))

/-- RSQRT. -/
def fRsqrt (a : Nat) : Nat :=
  match f32 a with
  | .nan => fp32.nan
  | .inf n => if n then fp32.nan else 0
  | .fin n m e =>
    if m = 0 then toF32 (.inf n)
    else if n then fp32.nan
    else
      let odd := e % 2 = 1
      let m := if odd then 2 * m else m
      let e := if odd then e - 1 else e
      let q := isqrt (2 ^ 128 / m)
      toF32 (.fin false (2 * q + b2n (q * q * m ≠ 2 ^ 128)) (-65 - e / 2))

/-- ln 2 in units of 2^-192: the sum of 1 / (k 2^k). -/
def ln2Fixed : Nat := (List.range 200).foldl (fun n k => n + 2 ^ 192 / ((k + 1) * 2 ^ (k + 1))) 0

/-- The terms of exp y from the `i`th on, `n` of them: `term` is y^i / i!, in units of 2^-192. -/
def expSeries (y : Nat) : Nat → Nat → Nat → Nat
  | 0, _, _ => 0
  | n + 1, i, term => term + expSeries y n (i + 1) (term * y / 2 ^ 192 / (i + 1))

/-- 2^f for 0 ≤ f < 1, both in units of 2^-192. -/
def exp2Frac (f : Nat) : Nat := expSeries (f * ln2Fixed / 2 ^ 192) 60 0 (2 ^ 192)

/-- EXP2. (log 37: UNVERIFIED) -/
def fExp2 (a : Nat) : Nat :=
  match f32 a with
  | .nan => fp32.nan
  | .inf n => if n then 0 else 0x7F800000
  | .fin n m e =>
    if m = 0 then 0x3F800000
    else
      let x := signedMan n m
      -- x in units of 2^-192, exactly: an FP32 exponent is at least -149
      let v := x * 2 ^ (e + 192).toNat
      let i := v / 2 ^ 192
      let f := (v % 2 ^ 192).toNat
      if 128 ≤ i then 0x7F800000
      else if i < -151 then 0
      else if f = 0 then toF32 (.fin false 1 i)
      else toF32 (.fin false (2 * exp2Frac f + 1) (i - 193))

/-- The bits of log2 y for y = `y` / 2^320 in [1, 2), `n` of them, by repeated squaring. -/
def log2Bits : Nat → Nat → Nat → Nat
  | 0, _, acc => acc
  | n + 1, y, acc =>
    let y2 := y * y / 2 ^ 320
    if 2 ^ 321 ≤ y2 then log2Bits n (y2 / 2) (2 * acc + 1) else log2Bits n y2 (2 * acc)

/-- LOG2. (log 37: UNVERIFIED) -/
def fLog2 (a : Nat) : Nat :=
  match f32 a with
  | .nan => fp32.nan
  | .inf n => if n then fp32.nan else 0x7F800000
  | .fin n m e =>
    if m = 0 then 0xFF800000
    else if n then fp32.nan
    else
      let k := Nat.log2 m
      let i : Int := e + (k : Int)
      if m = 2 ^ k then (if i = 0 then 0 else toF32 (FV.ofInt i 0))
      else
        let b := log2Bits 128 (m * 2 ^ (320 - k)) 0
        toF32 (FV.ofInt (i * 2 ^ 129 + 2 * (b : Int) + 1) (-129))

/-! ### Conversion to integers (R223) -/

/-- The integer nearest to a value, ties to even, clamped to `lo` to `hi`; NaN gives 0. -/
def FV.toInt (lo hi : Int) : FV → Int
  | .nan => 0
  | .inf n => if n then lo else hi
  | .fin n m e =>
    let u : Nat :=
      if 0 ≤ e then (if 64 < e then (if m = 0 then 0 else 2 ^ 64) else m * 2 ^ e.toNat)
      else
        let k := (-e).toNat
        if Nat.log2 m + 2 < k then 0 else rneShift m k
    max lo (min hi (signedMan n u))

/-- The low `w` bits of a signed integer. -/
def wrap (w : Nat) (v : Int) : Nat := (v % (2 : Int) ^ w).toNat

end Sys2Proof.Machine
end

