-- ==== Sys2Proof/Machine/Tensor.lean ====
section
/-! DEFINITION. The tensor engine: element formats, the checks of its entries at ENQ, stream and block products in the
fixed order of accumulation, and blight (R177 to R203, R207). -/

namespace Sys2Proof.Machine

/-! ### Element formats (R180 to R182) -/

/-- Bits of an element of a listed format code. -/
def elemBits (code : Nat) : Nat :=
  match code with
  | 0x00 => 8 | 0x01 => 4 | 0x02 => 8 | 0x03 => 8 | 0x04 => 8 | 0x05 => 8 | 0x06 => 8 | 0x07 => 6 | 0x08 => 6
  | 0x09 => 4 | 0x0A => 4 | 0x0B => 3 | 0x0C => 16 | 0x0D => 16 | _ => 0

/-- Is a format code listed? -/
def isFmt (code : Nat) : Bool := code ≤ 0x0D
/-- Is it an MX format, with a scale to each block of 32? -/
def isMx (code : Nat) : Bool := 0x04 ≤ code && code ≤ 0x09
/-- Is it a codebook format? -/
def isCq (code : Nat) : Bool := code = 0x0A || code = 0x0B
/-- Is it an integer format? -/
def isIntFmt (code : Nat) : Bool := code = 0x00 || code = 0x01

/-- The value of an element code, scales and codebooks apart (R180, R197). -/
def elemValue (code v : Nat) : FV :=
  match code with
  | 0x00 => FV.ofInt (sgn 8 v) 0
  | 0x01 => FV.ofInt (sgn 4 v) 0
  | 0x02 => e4m3.decode v
  | 0x03 => e5m2.decode v
  | 0x04 => FV.ofInt (sgn 8 v) (-6)
  | 0x05 => e4m3.decode v
  | 0x06 => e5m2.decode v
  | 0x07 => e3m2.decode v
  | 0x08 => e2m3.decode v
  | 0x09 => e2m1.decode v
  | 0x0C => bf16.decode v
  | 0x0D => fp16.decode v
  | _ => .nan

/-- The legal pairs of weight and activation format (R182). -/
def pairOk (w a : Nat) : Bool :=
  match w with
  | 0x00 => a = 0x00
  | 0x01 => a = 0x00
  | 0x02 => a = 0x02 || a = 0x03
  | 0x03 => a = 0x02 || a = 0x03
  | 0x0A => 0x02 ≤ a && a ≤ 0x06
  | 0x0B => 0x02 ≤ a && a ≤ 0x06
  | 0x0C => a = 0x0C
  | 0x0D => a = 0x0D
  | _ => isMx w && 0x04 ≤ a && a ≤ 0x06

/-- The first byte, within a row or column, of the bits of element `k`, the bytes those bits lie in, and the bit at which
the element begins (R181, R192). -/
def elemPlace (code k : Nat) : Nat × Nat × Nat :=
  match elemBits code with
  | 4 => (k / 2, 1, 4 * (k % 2))
  | 6 => (3 * (k / 4) + 6 * (k % 4) / 8, if k % 4 = 0 ∨ k % 4 = 3 then 1 else 2, 6 * (k % 4) % 8)
  | 3 => (4 * (k / 10) + 3 * (k % 10) / 8, if 5 < 3 * (k % 10) % 8 then 2 else 1, 3 * (k % 10) % 8)
  | 16 => (2 * k, 2, 0)
  | _ => (k, 1, 0)

/-- The code of element `k` of packed bytes. -/
def elemCode (code : Nat) (bs : List Byte) (k : Nat) : Nat :=
  let p := elemPlace code k
  field bs p.1 p.2.1 / 2 ^ p.2.2 % 2 ^ elemBits code

/-- Bytes that `n` elements, a multiple of 32 of them, take packed in order (R181). -/
def packedBytes (code n : Nat) : Nat := if code = 0x0B then 4 * ((n + 9) / 10) else n * elemBits code / 8

/-- Output element bytes (R190). -/
def outBytes (ofmt : Nat) : Nat := if ofmt = 0 ∨ ofmt = 3 then 4 else 2

/-- The group length of a pair (R182). -/
def groupLen (w : Nat) : Nat := if w = 0x0C ∨ w = 0x0D then 8 else 32

/-! ### Descriptors (R190, R191) -/

/-- A tensor command: stream and block descriptors in one shape. -/
structure TeCmd where
  stream : Bool
  accIn : Bool
  transb : Bool
  w : Nat
  a : Nat
  ofmt : Nat
  rows : Nat
  n : Nat
  k : Nat
  x : Nat
  xs : Nat
  sx : Nat
  sxs : Nat
  b : Nat
  bs : Nat
  sb : Nat
  sbs : Nat
  y : Nat
  ys : Nat

/-- Read a tensor descriptor. -/
def teCmd (d : List Byte) : TeCmd :=
  let fl := field d 1 1
  if field d 0 1 = 1 then
    { stream := true, accIn := bit fl 0, transb := false, w := field d 8 1, a := field d 9 1, ofmt := field d 10 1 % 4,
      rows := field d 11 1 % 32, n := field d 14 2 % 512, k := field d 12 2, x := addr18 d 16, xs := addr18 d 20,
      sx := addr18 d 24, sxs := addr18 d 28, b := 0, bs := 0, sb := 0, sbs := 0, y := addr18 d 32, ys := addr18 d 36 }
  else
    { stream := false, accIn := bit fl 0, transb := bit fl 1, w := field d 8 1, a := field d 9 1,
      ofmt := field d 10 1 % 4, rows := field d 12 2, n := field d 14 2 % 512, k := field d 16 2, x := addr18 d 20,
      xs := addr18 d 24, sx := addr18 d 36, sxs := addr18 d 40, b := addr18 d 28, bs := addr18 d 32, sb := addr18 d 44,
      sbs := addr18 d 48, y := addr18 d 52, ys := addr18 d 56 }

/-- Does the command do nothing (R161)? -/
def TeCmd.empty (c : TeCmd) : Bool := c.rows = 0 || c.n = 0 || c.k = 0

/-- Bytes of an activation element. -/
def TeCmd.es (c : TeCmd) : Nat := elemBits c.a / 8

/-- The reserved fields of the two descriptors (R190, R191). -/
def teReserved (stream : Bool) : List ReservedPart :=
  headerReserved ++
    (if stream then [⟨1, 10, 6⟩, ⟨10, 82, 6⟩, ⟨11, 93, 3⟩, ⟨14, 121, 7⟩, ⟨40, 320, 192⟩] ++ hi14 [16, 20, 24, 28, 32, 36]
     else [⟨1, 10, 6⟩, ⟨10, 82, 6⟩, ⟨11, 88, 8⟩, ⟨14, 121, 7⟩, ⟨18, 144, 16⟩, ⟨60, 480, 32⟩] ++
       hi14 [20, 24, 28, 32, 36, 40, 44, 48, 52, 56])

/-- Bytes of one slice of `len` elements with its scale header, before padding, and after it (R183). -/
def sliceHeader (w : Nat) : Nat := if isMx w then 16 else 0
def sliceBytes (w len : Nat) : Nat := (sliceHeader w + packedBytes w len + 15) / 16 * 16

/-- The K-tile length (R178). -/
def ktLen (w : Nat) : Nat := if w = 0x0B then 480 else 512

/-- The total bytes of all slices: S of R185. -/
def TeCmd.totalBytes (c : TeCmd) : Nat :=
  let kt := ktLen c.w
  c.n * (c.k / kt * sliceBytes c.w kt + (if c.k % kt = 0 then 0 else sliceBytes c.w (c.k % kt)))

/-- The codewords a stream command takes from sink 0 (R185). -/
def TeCmd.codewords (c : TeCmd) : Nat :=
  if !c.stream || c.empty then 0
  else if isCq c.w then 16 * ((c.totalBytes + 991) / 992) else (c.totalBytes + 63) / 64

/-! ### Checks at ENQ (R196) -/

/-- Step 5: the illegal fields. -/
def teIllegal (d : List Byte) : List Nat :=
  let op := field d 0 1
  if op ≠ 1 ∧ op ≠ 2 then [0]
  else
    let c := teCmd d
    let isInt := isIntFmt c.w
    let ws := elemBits c.w / 8
    reservedSet d (teReserved c.stream) ++
    whenBad [
      (!isFmt c.w, 8), (!isFmt c.a, 9), (isFmt c.w && isFmt c.a && !pairOk c.w c.a, 8),
      (c.stream && bit (field d 1 1) 1, 0), (!c.stream && isCq c.w, 0), (c.transb && elemBits c.w < 8, 1),
      (isFmt c.w && (if isInt then c.ofmt ≠ 3 else c.ofmt = 3), 8),
      (c.accIn && c.ofmt ≠ 0 && c.ofmt ≠ 3, 1),
      (c.k % 32 ≠ 0, if c.stream then 12 else 16),
      (elemBits c.a = 16 && (c.x % 2 ≠ 0 || c.xs % 2 ≠ 0), 9),
      (!c.stream && ws = 2 && (c.b % 2 ≠ 0 || c.bs % 2 ≠ 0), 8),
      (c.y % outBytes c.ofmt ≠ 0 || c.ys % outBytes c.ofmt ≠ 0, 10)]

/-- The byte ranges a command reads from the bin: X, its scales, W, its scales (operands 1, 3, 2, 4). -/
def TeCmd.ranges (c : TeCmd) : List (Nat × Nat × Nat × Nat × Nat) :=
  [(1, c.x, c.rows, c.xs, c.k * c.es), (3, c.sx, if isMx c.a then c.rows else 0, c.sxs, c.k / 32)] ++
    (if c.stream then []
     else if c.transb then
       [(2, c.b, c.k, c.bs, c.n * (elemBits c.w / 8)), (4, c.sb, if isMx c.w then c.k / 32 else 0, c.sbs, c.n)]
     else [(2, c.b, c.n, c.bs, packedBytes c.w c.k), (4, c.sb, if isMx c.w then c.n else 0, c.sbs, c.k / 32)])

/-- Steps 7 and after (R193, R196). -/
def teExtent (d : List Byte) : Check :=
  let c := teCmd d
  if c.stream ∧ 16 < c.rows then some (0x07, 7, 0)
  else if 256 < c.n then some (0x07, 6, 0)
  else if c.empty then none
  else
    let yr := byteRange c.y c.rows c.ys (c.n * outBytes c.ofmt)
    let out := c.ranges.findSome? fun r => binBounds r.1 r.2.1 r.2.2.1 r.2.2.2.1 r.2.2.2.2
    (out.orElse fun _ => binBounds 5 c.y c.rows c.ys (c.n * outBytes c.ofmt)).orElse fun _ =>
      if !c.stream && c.ranges.any (fun r => overlap yr (byteRange r.2.1 r.2.2.1 r.2.2.2.1 r.2.2.2.2)) then
        some (0x20, 0, 0) else none

/-! ### The arithmetic (R197 to R201) -/

/-- One operand element: its value and whether it came from blighted data. -/
structure TeElem where
  v : FV
  i : Int
  blight : Bool

/-- The sum of the exact products of one group, not yet scaled. -/
def groupSum (ws xs : List FV) : FV :=
  let ps := List.zipWith FV.mul ws xs
  if (ws ++ xs ++ ps).any FV.isNan then .nan
  else if ps.contains (.inf false) then (if ps.contains (.inf true) then .nan else .inf false)
  else if ps.contains (.inf true) then .inf true
  else
    let r := ps.foldl (fun (r : Int × Int) p =>
      match p with
      | .fin n m e => addExact r.1 r.2 (signedMan n m) e
      | _ => r) (0, 0)
    FV.ofInt r.1 r.2

/-- One group's contribution G (R199): `sw` and `sx` are the E8M0 scales, none for an operand without one. -/
def groupValue (ws xs : List FV) (sw sx : Option Nat) : FV :=
  if sw = some 0xFF ∨ sx = some 0xFF then .nan
  else
    match groupSum ws xs with
    | .fin n m e =>
      if m = 0 then .fin false 0 0
      else
        let k := fun (o : Option Nat) => match o with | some v => (v : Int) - 127 | none => 0
        f32 (toF32 (FV.scale (k sw + k sx) (.fin n m e)))
    | g => g

/-- Split into groups of `l`; `n` bounds their number. -/
def groupsOf {α : Type} (l : Nat) : Nat → List α → List (List α)
  | 0, _ => []
  | n + 1, xs => if xs = [] then [] else xs.take l :: groupsOf l n (xs.drop l)

/-- The accumulator after all groups, added one at a time in ascending k (R199). `sw g`, `sx g` are the scales of group
`g`. -/
def accumulate (l : Nat) (ws xs : List FV) (sw sx : Nat → Option Nat) (init : Nat) : Nat :=
  let gs := List.zip (groupsOf l (ws.length / l + 1) ws) (groupsOf l (xs.length / l + 1) xs)
  (gs.zip (List.range gs.length)).foldl
    (fun acc g => toF32 ((f32 acc).add (groupValue g.1.1 g.1.2 (sw g.2) (sx g.2)))) init

/-- The integer accumulator (R198). -/
def accumulateInt (ws xs : List Int) (init : Nat) : Nat :=
  wrap 32 ((init : Int) + (List.zipWith (· * ·) ws xs).foldl (· + ·) 0)

/-- The bytes of an output (R200). -/
def teOut (ofmt acc : Nat) : List Byte :=
  match ofmt with
  | 1 => leBytes 2 (bf16.encode false (f32 acc))
  | 2 => leBytes 2 (fp16.encode false (f32 acc))
  | 0 => leBytes 4 (toF32 (f32 acc))
  | _ => leBytes 4 acc

/-- A column of W: its K codes in ascending k with the value of each, its scales by block, and its blight. -/
structure TeCol where
  vals : List FV
  ints : List Int
  scale : Nat → Option Nat
  blight : Bool

/-! ### The weight sequence of stream mode (R183 to R188) -/

/-- One weight-data byte as the decode stage sees it: with the row head in force and the marks. -/
structure WByte where
  b : Byte
  blight : Bool
  head : List Byte
  headBlight : Bool

/-- The weight-data bytes of codewords, with row heads separated for codebook formats. -/
def weightBytes (cq : Bool) (head : List Byte) (hb : Bool) : List SinkWord → List WByte
  | [] => []
  | c :: cs =>
    if cq && c.off / 64 % 16 = 0 then
      let h := c.line.data.take 32
      ((c.line.data.drop 32).map fun b => ⟨b, c.line.blight, h, c.line.blight⟩) ++ weightBytes cq h c.line.blight cs
    else
      (c.line.data.map fun b => ⟨b, c.line.blight, head, hb⟩) ++ weightBytes cq head hb cs

/-- Where slice (`t`, column `n`) begins in the weight sequence, and its number of elements. -/
def TeCmd.slice (c : TeCmd) (t n : Nat) : Nat × Nat :=
  let kt := ktLen c.w
  let len := min kt (c.k - t * kt)
  (t * c.n * sliceBytes c.w kt + n * sliceBytes c.w len, len)

/-- The elements of one slice: values, integers, scales by block of the slice, and blight of what they use (R186, R202). -/
def sliceCol (w len : Nat) (bs : List WByte) : List FV × List Int × List Nat × Bool :=
  let h := sliceHeader w
  let body := bs.drop h
  let raw := body.map (·.b)
  let ks := List.range len
  let code := fun k => elemCode w raw k
  let val := fun k =>
    if isCq w then
      bf16.decode (field ((body.getD (elemPlace w k).1 ⟨0, false, [], false⟩).head) (2 * code k) 2)
    else elemValue w (code k)
  let marks := fun k =>
    let p := elemPlace w k
    ((body.drop p.1).take p.2.1).any fun b => b.blight || (isCq w && b.headBlight)
  (ks.map val, ks.map (fun k => if w = 0x01 then sgn 4 (code k) else sgn 8 (code k)),
    (List.range (len / 32)).map (fun g => ((bs.getD g ⟨0, false, [], false⟩).b).toNat),
    ks.any marks || (isMx w && (bs.take (len / 32)).any (·.blight)))

/-- Column `n` of a stream command, from its weight sequence. -/
def TeCmd.streamCol (c : TeCmd) (seq : List WByte) (n : Nat) : TeCol :=
  let kt := ktLen c.w
  let parts := (List.range ((c.k + kt - 1) / kt)).map fun t =>
    let p := c.slice t n
    sliceCol c.w p.2 ((seq.drop p.1).take (sliceBytes c.w p.2))
  let scales := (parts.map fun p => p.2.2.1).flatten
  { vals := (parts.map (·.1)).flatten, ints := (parts.map fun p => p.2.1).flatten,
    scale := fun g => if isMx c.w then some (scales.getD g 0) else none, blight := parts.any fun p => p.2.2.2 }

namespace State

/-- Column `n` of a block command, from the bin (R192). -/
def blockCol (s : State) (t : Nat) (c : TeCmd) (n : Nat) : TeCol :=
  let ks := List.range c.k
  let es := elemBits c.w / 8
  let codes :=
    if c.transb then ks.map fun k => s.binNat t (c.b + k * c.bs + n * es) es
    else
      let row := readBytes (s.tile t).bin (c.b + n * c.bs) (packedBytes c.w c.k)
      ks.map fun k => elemCode c.w row k
  let scaleAt := fun g => if c.transb then c.sb + g * c.sbs + n else c.sb + n * c.sbs + g
  -- a transposed fill of 32 rows spreads a mark over the columns it carries (R194, R202)
  let cols := if es = 2 then 32 else 64
  let dataMark :=
    if c.transb then ks.any fun k => s.binMarked t (c.b + k * c.bs + n / cols * cols * es)
      (min (cols * es) ((c.n - n / cols * cols) * es))
    else s.binMarked t (c.b + n * c.bs) (packedBytes c.w c.k)
  { vals := codes.map (elemValue c.w), ints := codes.map fun v => if c.w = 0x01 then sgn 4 v else sgn 8 v,
    scale := fun g => if isMx c.w then some (s.binNat t (scaleAt g) 1) else none,
    blight := dataMark || (isMx c.w && (List.range (c.k / 32)).any fun g => s.binMarked t (scaleAt g) 1) }

/-- The lattice after a TRANSB entry: each fill writes up to 32 rows of K, of up to 64 bytes of columns each; the fills of
one block of columns follow one another along K (R194, R251). The manual does not say which fill is the last. (log 91: DESIGN CHOICE) -/
def fillTransb (s : State) (t : Nat) (c : TeCmd) : State :=
  if !c.transb then s
  else
    let width := c.n * (elemBits c.w / 8)
    let fills := (List.range ((width + 63) / 64)).flatMap fun j => (List.range ((c.k + 31) / 32)).map fun i => (i, j)
    let cells := fills.flatMap fun f =>
      (List.range (min 32 (c.k - 32 * f.1))).flatMap fun r =>
        (List.range (min 64 (width - 64 * f.2))).map fun b => (64 * r + b, c.b + (32 * f.1 + r) * c.bs + 64 * f.2 + b)
    s.onTile t fun x =>
      { x with latticeData := cells.foldl (fun m p => SMap.put 0 m p.1 (SMap.look 0 x.bin p.2)) x.latticeData }

/-- Elements `k0` to `k0 + len - 1` of activation row `b`, with their scales, as the bin holds them (R178, R202). -/
def actRow (s : State) (t : Nat) (c : TeCmd) (b k0 len : Nat) : ActRow :=
  let x := c.x + b * c.xs + k0 * c.es
  let sx := c.sx + b * c.sxs + k0 / 32
  { bytes := readBytes (s.tile t).bin x (len * c.es),
    scales := if isMx c.a then readBytes (s.tile t).bin sx (len / 32) else [],
    blight := s.binMarked t x (len * c.es) || (isMx c.a && s.binMarked t sx (len / 32)) }

/-- The initial value of output (`b`, `n`) and its mark: the word in its place in Y under ACC_IN (R201, R202). -/
def initAt (s : State) (t : Nat) (c : TeCmd) (b n : Nat) : Nat × Bool :=
  let a := c.y + b * c.ys + n * outBytes c.ofmt
  if c.accIn then (s.binNat t a 4, s.binMarked t a 4) else (0, false)

end State

/-- The outputs of row `b`: the activations `r`, the columns `cols` and the initial values `init`. -/
def TeCmd.outRow (c : TeCmd) (cols : List TeCol) (b : Nat) (r : ActRow) (init : Nat → Nat × Bool) : List OutElem :=
  let l := groupLen c.w
  let codes := (List.range c.k).map fun k => elemCode c.a r.bytes k
  let xv := codes.map (elemValue c.a)
  let xi := codes.map (sgn 8)
  let sx := fun g => if isMx c.a then some ((r.scales.getD g 0).toNat) else none
  (cols.zip (List.range cols.length)).map fun p =>
    let os := outBytes c.ofmt
    let y := init p.2
    let perBlock := fun (f : Nat → Option Nat) g => f (g * l / 32)
    let acc := if isIntFmt c.w then accumulateInt p.1.ints xi y.1
      else accumulate l p.1.vals xv (perBlock p.1.scale) (perBlock sx) y.1
    { addr := c.y + b * c.ys + p.2 * os, bytes := teOut c.ofmt acc, blight := r.blight || p.1.blight || y.2 }

namespace State

/-- The outputs of rows `b0` to `b0 + m - 1` of a block command, from columns `cols`. -/
def teRows (s : State) (t : Nat) (c : TeCmd) (cols : List TeCol) (b0 m : Nat) : List (List OutElem) :=
  (List.range m).map fun i => c.outRow cols (b0 + i) (s.actRow t c (b0 + i) 0 c.k) (s.initAt t c (b0 + i))

/-- Write rows of outputs, one row after another. -/
def teWrite (s : State) (t : Nat) (env : Env) (e : Entry) (rows : List (List OutElem)) : State :=
  foldEach rows s fun r s => s.writeOut t 0 e.id env r

/-- Block mode, strip by strip: each strip's outputs are written before the next strip is read (R193). (log 26:
DEDUCED) -/
def teStrips (s : State) (t : Nat) (env : Env) (e : Entry) (c : TeCmd) (cols : List TeCol) (b : Nat) : Nat → State
  | 0 => s
  | n + 1 =>
    let m := min 16 (c.rows - b)
    let s := s.teWrite t env e (s.teRows t c cols b m)
    teStrips s t env e c cols (b + m) n

/-- The bin ranges a command reads, for parity (R125): its operands, and Y under ACC_IN. -/
def teReads (c : TeCmd) : List (Nat × Nat) :=
  let rs := c.ranges ++ (if c.accIn then [(5, c.y, c.rows, c.ys, c.n * 4)] else [])
  (rs.map fun r => (List.range r.2.2.1).map fun i => (r.2.1 + i * r.2.2.2.1, r.2.2.2.2)).flatten

/-- Codewords leave sink `k` for the running entry `e`; a parity error in one found by the decode stage marks it
blighted and is logged (R118, R203). -/
def takeSink (s : State) (t k : Nat) (e : Entry) (n : Nat) (env : Env) : Entry × State :=
  let x := s.tile t
  let buf := if k = 0 then x.sink0 else x.sink1
  let got := buf.take n
  let marked := (got.zip (List.range got.length)).map fun p =>
    if k = 0 ∧ env.sinkPar.contains p.2 then { p.1 with line := { p.1.line with blight := true } } else p.1
  let bad := if k = 0 then (List.range got.length).filter fun i => env.sinkPar.contains i else []
  let e := { e with taken := e.taken ++ marked }
  let s := (s.setEntry t e).onTile t fun x =>
    if k = 0 then { x with sink0 := buf.drop n } else { x with sink1 := buf.drop n }
  (e, foldEach bad s fun _ s => s.log (.tile t) .streamParity)

end State

/-- The K-tiles of a command (R178). -/
def TeCmd.ktiles (c : TeCmd) : Nat := (c.k + ktLen c.w - 1) / ktLen c.w

/-- The K-tiles whose weights begin within the first `n` bytes of the weight sequence. -/
def TeCmd.begun (c : TeCmd) (n : Nat) : Nat := ((List.range c.ktiles).filter fun j => (c.slice j 0).1 < n).length

/-- The bin ranges of K-tile `j` of the activation rows, with their scales. -/
def TeCmd.actRanges (c : TeCmd) (j : Nat) : List (Nat × Nat) :=
  let k0 := j * ktLen c.w
  let len := (c.slice j 0).2
  (List.range c.rows).flatMap fun b =>
    (c.x + b * c.xs + k0 * c.es, len * c.es) ::
      (if isMx c.a then [(c.sx + b * c.sxs + k0 / 32, len / 32)] else [])

namespace State

/-- The activation store takes K-tile `j` of every activation row from the bin (R178). -/
def loadActs (s : State) (t : Nat) (env : Env) (c : TeCmd) (e : Entry) (j : Nat) : Entry × State :=
  let s := s.binParitiesIn t env (c.actRanges j)
  let rows := (List.range c.rows).map fun b => s.actRow t c b (j * ktLen c.w) (c.slice j 0).2
  ({ e with acts := e.acts ++ [rows] }, s)

/-- A stream command whose first `n` bytes of weights have come loads what it has not: the activations of the K-tiles that
have begun and of the one after, and with the first weights the initial values in Y (R178, R201). (log 91: DESIGN
CHOICE) -/
def loadStores (s : State) (t : Nat) (env : Env) (c : TeCmd) (e : Entry) (n : Nat) : Entry × State :=
  let want := min c.ktiles (c.begun n + 1)
  let r := foldEach ((List.range want).drop e.acts.length) (e, s) fun j r => r.2.loadActs t env c r.1 j
  if n = 0 ∨ r.1.inits ≠ none then r
  else
    let s := if c.accIn then r.2.binParitiesIn t env ((List.range c.rows).map fun b => (c.y + b * c.ys, c.n * 4)) else r.2
    let inits := (List.range c.rows).map fun b => (List.range c.n).map (s.initAt t c b)
    ({ r.1 with inits := some inits }, s)

end State

/-- Activation row `b` as the activation store has taken it, K-tile by K-tile. -/
def Entry.actRow (e : Entry) (b : Nat) : ActRow :=
  let parts := e.acts.map fun rows => rows.getD b ⟨[], [], false⟩
  ⟨parts.flatMap (·.bytes), parts.flatMap (·.scales), parts.any (·.blight)⟩

/-- The outputs of a stream command, from its weights and from what its stores have taken. -/
def TeCmd.streamRows (c : TeCmd) (e : Entry) (seq : List WByte) : List (List OutElem) :=
  let cols := (List.range c.n).map (c.streamCol seq)
  (List.range c.rows).map fun b =>
    c.outRow cols b (e.actRow b) fun n => (((e.inits.getD []).getD b []).getD n (0, false))

/-- A STREAM_MM entry takes what sink 0 holds, loading its stores as the weights come; with the last codeword, it writes Y
(R178, R183 to R189, R193, R201 to R203). -/
def State.runStreamMm (s : State) (t : Nat) (env : Env) (e : Entry) : State :=
  let c := teCmd e.desc
  if c.empty then s.performed t e
  else
    let (e, s) := s.takeSink t 0 e (c.codewords - e.taken.length) env
    let cq := isCq c.w
    let headBad := match e.taken with
      | [] => none
      | f :: _ => if cq ∧ f.off / 64 % 16 ≠ 0 then some f.off else none
    match headBad with
    | some off => s.entryFault t e 0x21 0 off
    | none =>
      let seq := weightBytes cq [] false e.taken
      let (e, s) := s.loadStores t env c e seq.length
      let s := s.setEntry t e
      if e.taken.length < c.codewords then s
      else if seq.length < c.totalBytes then s.entryFault t e 0x21 1 ((e.taken.getLast?.map (·.off)).getD 0)
      else
        let s := s.teWrite t env e (c.streamRows e seq)
        ((s.countCycles t 0x60).countCycles t 0x68).performed t e

/-- BLOCK_MM (R191 to R195). -/
def execBlockMm (t : Nat) (env : Env) (s : State) : Res :=
  engineRow t 0 [0x02] env s fun t e s =>
    let c := teCmd e.desc
    if c.empty then s.performed t e
    else
      let s := s.binParitiesIn t env (State.teReads c)
      let cols := (List.range c.n).map (s.blockCol t c)
      let s := (s.fillTransb t c).teStrips t env e c cols 0 ((c.rows + 15) / 16)
      ((s.countCycles t 0x60).countCycles t 0x68).performed t e

end Sys2Proof.Machine
end

