-- ==== Sys2Proof/Machine/Copy.lean ====
section
/-! DEFINITION. The copy engine: places, units read and written whole, checks at ENQ, COPY and PERMUTE, remote writes
and remote reads (R240 to R256, R263, R348, R351, R404). -/

namespace Sys2Proof.Machine

/-! ### Places (R242) -/

/-- The 64-byte unit that holds a place. -/
def Place.line : Place → Place
  | .bin a => .bin (a / 64 * 64)
  | .own a => .own (a / 64 * 64)
  | .pillar l a => .pillar l (a / 64 * 64)
  | .tbin l a => .tbin l (a / 64 * 64)
  | .barn a => .barn (a / 64 * 64)
  | .ridge n a => .ridge n (a / 64 * 64)

/-- The byte's position in its unit. -/
def Place.off : Place → Nat
  | .bin a => a % 64
  | .own a => a % 64
  | .pillar _ a => a % 64
  | .tbin _ a => a % 64
  | .barn a => a % 64
  | .ridge _ a => a % 64

/-- One byte to be moved, in write order: from a place, or a pad byte. -/
structure ByteMove where
  src : Option Place
  pad : Byte
  dst : Place

/-- A unit being written: its data, the bytes given, and whether any came from a unit marked blighted (R263). -/
structure WriteUnit where
  at_ : Place
  data : List Byte
  mask : Nat
  blight : Bool

/-- Put one byte into the units written so far; a later byte replaces an earlier one (R247, R260). -/
def putUnit (p : Place) (b : Byte) (blight : Bool) : List WriteUnit → List WriteUnit
  | [] => [⟨p.line, setAt (zeros 64) p.off b, 2 ^ p.off, blight⟩]
  | u :: us =>
    if u.at_ = p.line then
      ⟨u.at_, setAt u.data p.off b, u.mask ||| 2 ^ p.off, u.blight || blight⟩ :: us
    else u :: putUnit p b blight us

/-- A piece of data for another module: bytes within one 256-byte block (R339). -/
structure RidgePiece where
  node : Nat
  addr : Nat
  bytes : List Byte
  /-- Bit `i`: line `i` of the block is blighted. -/
  blight : Nat

/-- Join pieces that follow one another inside one block. -/
def joinPieces : List RidgePiece → List RidgePiece
  | [] => []
  | p :: ps =>
    match joinPieces ps with
    | [] => [p]
    | q :: qs =>
      if p.node = q.node ∧ p.addr + p.bytes.length = q.addr ∧ p.addr / 256 = q.addr / 256 then
        ⟨p.node, p.addr, p.bytes ++ q.bytes, p.blight ||| q.blight⟩ :: qs
      else p :: q :: qs

/-- The pieces of one unit. (log 30: DEDUCED) -/
def unitPieces (u : WriteUnit) (node a : Nat) : List RidgePiece :=
  (maskRuns u.mask 0 64).map fun r =>
    ⟨node, a + r.1, (u.data.drop r.1).take r.2, if u.blight then 2 ^ (a % 256 / 64) else 0⟩

/-- The node number under which an entry keeps the lines that came over the mesh of this module; the two after it stand for
bins of its tiles and for the own pillar. -/
def meshNode : Nat := 2 ^ 15

/-- The offset of a place in the own pillar. -/
def ownOff : Place → Option Nat
  | .own off => some off
  | _ => none

/-- Requests of an entry that are in flight (R256, R261). -/
def Entry.inFlight (e : Entry) : Nat := e.asked.length + e.unplaced + e.unanswered.length

/-- The line named by node and address among the lines that have come. -/
def lineAmong (got : List (Nat × Nat × Line)) (node addr : Nat) : Option Line :=
  (got.find? fun g => g.1 = node && g.2.1 = addr).map (·.2.2)

/-- The DPA of a unit that is read over the mesh from a pillar or barn controller (R242). -/
def Place.meshDpa : Place → Option Nat
  | .pillar l off => some (l * 2 ^ 25 + off)
  | .barn d => some d
  | _ => none

/-- The name of a unit outside the tile among the lines of an entry, or in the hold (R400). -/
def Place.key : Place → Option (Nat × Nat)
  | .bin _ => none
  | .own _ => none
  | .pillar l off => some (meshNode, l * 2 ^ 25 + off)
  | .tbin l a => some (meshNode + 1, l * 2 ^ 18 + a)
  | .barn d => some (meshNode, d)
  | .ridge n a => some (n, a)

/-- The source units of groups of byte moves, each once. -/
def sourceLines (gs : List (List ByteMove)) : List Place := (gs.flatten.filterMap fun m => m.src.map Place.line).eraseDups

namespace State

/-- The lines that are there for entry `e`: those that the hold serves in a replay, and those that have come (R425). -/
def linesFor (s : State) (t : Nat) (e : Entry) : List (Nat × Nat × Line) := s.heldLines t e ++ e.got

/-- Does the hold serve the unit to entry `e` (R425)? A run reads nothing else (R405). -/
def served (s : State) (t : Nat) (e : Entry) (p : Place) : Bool :=
  s.inRun t ||
    match p.key with
    | some k => (lineAmong (s.heldLines t e) k.1 k.2).isSome
    | none => true

/-- Ask over the mesh for the source units of an entry that are not there, with at most 512 requests in flight (R256, R261).
None once they are all there; a bin of another tile is read once no line waits for staging room at that tile's stop
(R255). -/
def fetchPlaces (s : State) (t : Nat) (e : Entry) (ps : List Place) : Option State :=
  let got := s.linesFor t e
  let wanted := if s.inRun t then [] else (ps.filterMap Place.meshDpa).filter fun d => (lineAmong got meshNode d).isNone
  if wanted ≠ [] then
    let ask := (wanted.filter fun d => !e.asked.contains d).take (512 - e.inFlight)
    let s := s.onEntry t e.id fun o => { o with asked := o.asked ++ ask }
    some (s.sendMesh (ask.map fun d => meshReq (.entry t e.id) .read d))
  else if ps.any fun p =>
      !s.served t e p && match p with | .tbin l _ => !(s.tile (s.ptileOf l)).stageWait.isEmpty | _ => false then some s
  else none

/-- Read one unit (R254: staged lines are not seen); lines from the mesh and from the own pillar have come. What a run reads
that the hold does not have, the primary did not read; it is free. (log 60: DESIGN CHOICE) -/
def readPlace (s : State) (t : Nat) (e : Entry) (env : Env) (p : Place) : Line × State :=
  let got := s.linesFor t e
  let came := fun (node addr : Nat) =>
    match lineAmong got node addr with
    | some l => (l, s)
    | none =>
      let (v, s) := if s.inRun t then s.takeFree 512 else (0, s)
      (⟨leBytes 64 v.toNat, false⟩, s)
  match p with
  | .bin a =>
    let s := s.binParitiesIn t env [(a, 64)]
    (s.binRead t a 64, s)
  | .own off => ((lineAmong e.got (meshNode + 2) off).getD ⟨zeros 64, false⟩, s)
  | .pillar l off => came meshNode (l * 2 ^ 25 + off)
  | .tbin l a =>
    if s.served t e p then came (meshNode + 1) (l * 2 ^ 18 + a)
    else
      let u := s.ptileOf l
      let s := s.binErrors u env [(a, 64)]
      (s.binRead u a 64, s)
  | .barn d => came meshNode d
  | .ridge n a =>
    let here := fun (i : Nat) => got.find? fun g => g.1 = n && g.2.1 ≤ a + i && a + i < g.2.1 + g.2.2.data.length
    let (v, s) := if s.inRun t && !(List.range 64).any fun i => (here i).isSome then s.takeFree 512 else (0, s)
    let open_ := leBytes 64 v.toNat
    let data := (List.range 64).map fun i => ((here i).map fun g => g.2.2.data.getD (a + i - g.2.1) 0).getD (open_.getD i 0)
    (⟨data, got.any fun g => g.1 = n && g.2.1 / 64 = a / 64 && g.2.2.blight⟩, s)

/-- Read units in order. -/
def readPlaces (s : State) (t : Nat) (e : Entry) (env : Env) : List Place → List (Place × Line) × State
  | [] => ([], s)
  | p :: ps =>
    let (l, s) := s.readPlace t e env p
    let s := (p.key.map fun k => s.holdLine t e k.1 k.2 l).getD s
    let (rest, s) := readPlaces s t e env ps
    ((p, l) :: rest, s)

/-- The commit gate of tile `t` will send its commit message to receiver `r` too (R253). -/
def addReceiver (s : State) (t : Nat) (r : Receiver) : State :=
  s.onTile t fun x =>
    if x.gate.receivers.contains r then x else { x with gate := { x.gate with receivers := x.gate.receivers ++ [r] } }

/-- Send a remote write line towards the staging area of a tile of this module (R252); a run's is discarded, as its other
writes beyond the tile are (R405). -/
def sendLine (s : State) (t : Nat) (e : Entry) (u : Nat) (dest : LineDest) (w : WriteUnit) : State :=
  if s.inRun t then s
  else
    let l : StageLine := { src := .tile t, epoch := (s.tile t).epoch, q := e.q, dest, mask := w.mask,
                           line := ⟨w.data, w.blight⟩ }
    let s := s.addReceiver t (.tile u)
    let s := s.onTile u fun x => { x with inflight := x.inflight ++ [l] }
    s.onEntry t e.id fun o => { o with unplaced := o.unplaced + 1 }

/-- Send the write of a barn line of this module over the mesh (R242, R302). -/
def sendBarn (s : State) (t : Nat) (e : Entry) (d : Nat) (w : WriteUnit) : State :=
  if s.inRun t then s
  else
    let s := s.onEntry t e.id fun o => { o with unplaced := o.unplaced + 1 }
    s.sendMesh [meshReq (.entry t e.id) (lineWrite w.data w.mask w.blight) d]

/-- Write one unit (R252, R263) and sign the write (R404). Units of other modules travel as packets. -/
def writeUnit (s : State) (t : Nat) (e : Entry) (env : Env) (w : WriteUnit) : State :=
  let sgn := fun (kind a : Nat) (s : State) =>
    s.sign t { source := e.q + 1, entry := e.id, kind, blight := w.blight, addr := a, mask := w.mask, data := w.data }
  match w.at_ with
  | .bin a =>
    (sgn 0 a s).binLine t env a w.mask w.data w.blight
  | .own off => sgn 2 off (s.ownWrite t off env w.data w.mask w.blight)
  | .barn d => sgn 3 d ((s.holdData t 0 64).sendBarn t e d w)
  | .pillar l off => sgn 3 (l * 2 ^ 25 + off) (s.sendLine t e (s.ptileOf l) (.pillar off) w)
  | .tbin l a => sgn 3 (2 ^ 39 + l * 2 ^ 18 + a) (s.sendLine t e (s.ptileOf l) (.bin a) w)
  | .ridge n a => sgn 3 (a + n * 2 ^ 40 + 2 ^ 55) s

/-- The RECV number of another module's receiver of ADDR `a`: a logical tile, or 4,096 for its barn (R339, R350). -/
def recvOf (a : Nat) : Nat :=
  if 2 ^ 39 ≤ a then a / 2 ^ 18 % 2 ^ 12 else if a < 0x2000000000 then a / 2 ^ 25 else 4096

/-- Send a remote write packet; a refusal here faults the tile RIDGE_UNREACH (R345, R348, R353). -/
def sendPiece (s : State) (t : Nat) (e : Entry) (node addr : Nat) (bytes : List Byte) (blight : Nat) : State :=
  let pkt : Packet :=
    { op := 0x01, cls := 0, vcd := 0, zdir := 0, zset := 0, dst := node, src := s.node, len := bytes.length, blight,
      args := leBytes 5 addr ++ leBytes 2 t ++ leBytes 1 ((s.tile t).epoch.toNat % 256), data := bytes }
  if s.inRun t then s
  else
    let s := s.addReceiver t (.remote node (recvOf addr))
    let s := s.onEntry t e.id fun o => { o with unplaced := o.unplaced + 1 }
    match s.inject pkt 2 with
    | (some _, s) => s.entryFault t e 0x50 node addr
    | (none, s) => s

/-- The units of each group, in write order: a later byte of a group replaces an earlier one (R247, R260). -/
def groupUnits (lines : List (Place × Line)) (ms : List ByteMove) : List WriteUnit :=
  ms.foldl
    (fun us m =>
      match m.src with
      | none => putUnit m.dst m.pad false us
      | some p =>
        match lines.find? fun l => l.1 = p.line with
        | some l => putUnit m.dst (l.2.data.getD p.off 0) l.2.blight us
        | none => us) []

/-- Move bytes: every source unit is taken, then the destination units are made up group by group, each group's own (R33,
R247, R248, R260). A unit into which the entry moves a byte of a blighted unit is written blighted each time (R263). Units of
the bin are written; the other writes are left to be made in order. -/
def moveGroups (s : State) (t : Nat) (e : Entry) (env : Env) (gs : List (List ByteMove)) : State :=
  let (lines, s) := s.readPlaces t e env (sourceLines gs)
  let units := gs.flatMap (groupUnits lines)
  let dirty := (units.filter (·.blight)).map (·.at_)
  let units := units.map fun w => { w with blight := w.blight || dirty.contains w.at_ }
  let s := foldEach units s fun w s =>
    match w.at_ with
    | .bin _ => s.writeUnit t e env w
    | .ridge _ _ => s.writeUnit t e env w
    | p => s.onEntry t e.id fun o => { o with outs := o.outs ++ [.unit p w.mask ⟨w.data, w.blight⟩] }
  let pieces := joinPieces (units.map fun w =>
    match w.at_ with
    | .ridge n a => unitPieces w n a
    | _ => []).flatten
  s.onEntry t e.id fun o =>
    { o with moved := true, outs := o.outs ++ pieces.map fun p => .piece p.node p.addr p.bytes p.blight }

/-- The entry `id` of tile `t`, if it is still in a queue. -/
def entryAt (s : State) (t id : Nat) : Option Entry := (s.tile t).queue.find? fun o => o.id = id

/-- The port has served source `k` of tile `t`. -/
def tookTurn (s : State) (t k : Nat) : State := s.onTile t fun x => { x with port := k }

/-- The running entry `id` of source `k` reads the units of its own pillar that are left, one to each of its turns at the
port (R120). -/
def ownReads (s : State) (t k id : Nat) : Nat → State
  | 0 => s
  | n + 1 =>
    match (s.entryAt t id).bind (·.own) with
    | some (off :: rest) =>
      if s.portServes t k then
        let (l, s) := s.ownRead t off
        let s := s.onEntry t id fun o => { o with own := some rest, got := o.got ++ [(meshNode + 2, off, l)] }
        ownReads (s.tookTurn t k) t k id n
      else s
    | _ => s

/-- The running entry `id` of source `k` makes the writes that are left, in order: one to the own pillar in each of its turns
at the port (R120), any other while fewer than 512 of its requests are in flight (R256, R261). It is performed with the
last. -/
def ownWrites (s : State) (t k id : Nat) (env : Env) : Nat → State
  | 0 => s
  | n + 1 =>
    match s.entryAt t id with
    | none => s
    | some e =>
      let next := fun (s : State) => ownWrites (s.onEntry t id fun o => { o with outs := o.outs.drop 1 }) t k id env n
      match e.outs with
      | [] => s.onEntry t id fun o => { o with performed := true }
      | .unit p mask l :: _ =>
        let w : WriteUnit := ⟨p, l.data, mask, l.blight⟩
        if (ownOff p).isSome then
          if s.portServes t k then next ((s.writeUnit t e env w).tookTurn t k) else s
        else if e.inFlight < 512 then next (s.writeUnit t e env w)
        else s
      | .piece node addr bytes blight :: _ =>
        if e.inFlight < 512 then next (s.sendPiece t e node addr bytes blight) else s

/-- A running copy or cart entry, source `k` of own-pillar accesses, goes on with the moves `gs`: its source units are read,
those of the own pillar in its turns and the others over the mesh; once they are all there `moving` is done, its bytes are
moved, and then its writes are made. (log 39: DESIGN CHOICE) -/
def runMoves (s : State) (t k : Nat) (env : Env) (e : Entry) (gs : List (List ByteMove)) (moving : State → Entry → State) :
    State :=
  let ps := sourceLines gs
  let s := if e.own = none then s.onEntry t e.id fun o => { o with own := some (ps.filterMap ownOff) } else s
  let s := s.ownReads t k e.id ps.length
  let finish := fun (s : State) =>
    s.ownWrites t k e.id env (((s.entryAt t e.id).map (·.outs.length)).getD 0 + 1)
  if e.moved then finish s
  else
    match s.entryAt t e.id with
    | none => s
    | some e =>
      match s.fetchPlaces t e ps with
      | some s' => s'
      | none => if e.own = some [] then finish ((moving s e).moveGroups t e env gs) else s

end State

/-! ### The copy descriptor (R243 to R246) -/

/-- A copy command. -/
structure CpCmd where
  op : Nat
  padw : Bool
  far : Nat
  dir : Nat
  esz : Nat
  perm : Nat
  ltile : Nat
  node : Nat
  offmod : Bool
  n0 : Nat
  n1 : Nat
  n2 : Nat
  pad0 : Nat
  bin : Nat
  bs1 : Nat
  bs2 : Nat
  fa : Nat
  fs1 : Int
  fs2 : Int
  padv : Nat

/-- Read a copy descriptor. -/
def cpCmd (d : List Byte) : CpCmd :=
  { op := field d 0 1, padw := bit (field d 1 1) 0, far := field d 8 1 % 8, dir := field d 9 1 % 2,
    esz := field d 10 1 % 4, perm := field d 11 1 % 8, ltile := field d 12 2 % 4096, node := field d 14 2 % 2 ^ 15,
    offmod := bit (field d 14 2) 15, n0 := field d 16 2, n1 := field d 18 2, n2 := field d 20 2, pad0 := field d 22 2,
    bin := addr18 d 24, bs1 := addr18 d 28, bs2 := addr18 d 32, fa := field d 36 8, fs1 := sgn 32 (field d 44 4),
    fs2 := sgn 32 (field d 48 4), padv := field d 52 4 }

/-- Element bytes. -/
def CpCmd.sz (c : CpCmd) : Nat := 2 ^ c.esz

/-- Does the entry do nothing (R161)? -/
def CpCmd.empty (c : CpCmd) : Bool := c.n0 = 0 || c.n1 = 0 || c.n2 = 0

/-- The source axis that becomes destination axis `k` (R245). -/
def CpCmd.p (c : CpCmd) (k : Nat) : Nat :=
  let row := match c.perm with
    | 1 => [1, 0, 2] | 2 => [0, 2, 1] | 3 => [1, 2, 0] | 4 => [2, 0, 1] | 5 => [2, 1, 0] | _ => [0, 1, 2]
  row.getD k 0

/-- Does the permutation move axis 0, and so use the lattice (R245)? -/
def CpCmd.lattice (c : CpCmd) : Bool := c.op = 2 && c.p 0 ≠ 0

/-- The count of source axis `k`. -/
def CpCmd.n (c : CpCmd) (k : Nat) : Nat := if k = 0 then c.n0 else if k = 1 then c.n1 else c.n2

/-- A tensor: base and the strides of axes 1 and 2 (R240). -/
structure Tensor3 where
  base : Int
  s1 : Int
  s2 : Int

/-- The bin side and the far side. -/
def CpCmd.binSide (c : CpCmd) : Tensor3 := ⟨c.bin, c.bs1, c.bs2⟩
def CpCmd.farSide (c : CpCmd) : Tensor3 := ⟨c.fa, c.fs1, c.fs2⟩
/-- Source and destination (R244). -/
def CpCmd.src (c : CpCmd) : Tensor3 := if c.dir = 0 then c.farSide else c.binSide
def CpCmd.dst (c : CpCmd) : Tensor3 := if c.dir = 0 then c.binSide else c.farSide

/-- The address of an element of `sz` bytes. -/
def Tensor3.at_ (x : Tensor3) (sz i0 i1 i2 : Nat) : Int := x.base + i0 * sz + i1 * x.s1 + i2 * x.s2

/-- Pad elements that are written. -/
def CpCmd.pad (c : CpCmd) : Nat := if c.padw then c.pad0 else 0

/-- Rows of the source and of the destination: bytes to a row, rows along axis 1 and axis 2. -/
def CpCmd.srcRows (c : CpCmd) : Nat × Nat × Nat := (c.n0 * c.sz, c.n1, c.n2)
def CpCmd.dstRows (c : CpCmd) : Nat × Nat × Nat := ((c.n (c.p 0) + c.pad) * c.sz, c.n (c.p 1), c.n (c.p 2))

/-- The lowest byte and one past the highest over all index combinations (R163). -/
def Tensor3.extent (x : Tensor3) (r : Nat × Nat × Nat) : Int × Int :=
  let d1 := ((r.2.1 : Int) - 1) * x.s1
  let d2 := ((r.2.2 : Int) - 1) * x.s2
  (x.base + min 0 d1 + min 0 d2, x.base + max 0 d1 + max 0 d2 + r.1)

/-- Row starts in ascending order of axis 2, then axis 1. -/
def Tensor3.rows (x : Tensor3) (r : Nat × Nat × Nat) : List Int :=
  ((List.range r.2.2).map fun i2 => (List.range r.2.1).map fun i1 => x.at_ 0 0 i1 i2).flatten

/-- BOUNDS on operand `n`: the first byte, row by row, outside a buffer of `limit` bytes (R163). -/
def Tensor3.bounds (x : Tensor3) (r : Nat × Nat × Nat) (limit n : Nat) : Check :=
  let e := x.extent r
  if 0 ≤ e.1 ∧ e.2 ≤ limit then none
  else
    let bad := (x.rows r).findSome? fun a =>
      if a < 0 then some a else if (limit : Int) < a + r.1 then some (max a limit) else none
    some (0x07, n, (BitVec.ofInt 64 (bad.getD 0)).toNat)

/-! ### Checks at ENQ (R249) -/

/-- The reserved fields of a copy descriptor beyond its FARADDR. -/
def cpReserved : List ReservedPart :=
  headerReserved ++ [⟨8, 67, 5⟩, ⟨9, 73, 7⟩, ⟨10, 82, 6⟩, ⟨11, 91, 5⟩, ⟨12, 108, 4⟩, ⟨36, 327, 25⟩, ⟨56, 448, 64⟩] ++ hi14 [24, 28, 32]

/-- Step 5: the illegal fields. The strides of an axis of one element are tested too. (log 29: DEDUCED) -/
def cpIllegal (d : List Byte) : List Nat :=
  let c := cpCmd d
  let width := if c.far = 0 ∨ c.far = 3 then 18 else if c.far = 4 then 39 else 25
  let off := fun (v : Int) => v % (c.sz : Int) ≠ 0
  reservedSet d cpReserved ++
  whenBad [
    (c.op ≠ 1 && c.op ≠ 2, 0), (field d 1 1 / 2 ≠ 0, 1), (4 < c.far, 8), (c.esz = 3, 10), (5 < c.perm, 11),
    (c.op = 1 && c.perm ≠ 0, 0), (c.offmod && c.far < 2, 8), (c.far ≤ 4 && 2 ^ width ≤ c.fa % 2 ^ 39, 8),
    (c.esz < 3 && (off c.bin || off c.bs1 || off c.bs2 || off c.fa || off c.fs1 || off c.fs2), 10)]

/-- The far side of an entry after the substitutions of R242. -/
structure FarEnd where
  far : Nat
  ltile : Nat
  node : Option Nat
  own : Option Nat

/-- The place of byte `a` of a far side. -/
def FarEnd.place (f : FarEnd) (a : Nat) : Place :=
  match f.node with
  | some n => .ridge n (if f.far = 2 then f.ltile * 2 ^ 25 + a else if f.far = 3 then 2 ^ 39 + f.ltile * 2 ^ 18 + a else a)
  | none =>
    match f.far with
    | 0 => .bin a
    | 1 => .own a
    | 2 => .pillar f.ltile a
    | 3 => .tbin f.ltile a
    | _ =>
      if 0x2000000000 ≤ a then .barn a
      else if some (a / 2 ^ 25) = f.own then .own (a % 2 ^ 25)
      else .pillar (a / 2 ^ 25) (a % 2 ^ 25)

/-- The lines of the receivers of a remote write entry (R249, R252, R349); none for what is not staged. -/
def Place.staged : Place → Option (Nat × Nat)
  | .pillar l _ => some (0, l)
  | .tbin l _ => some (0, l)
  | .ridge _ a => some (1, State.recvOf a)
  | _ => none

namespace State

/-- The far side of a copy command of tile `t` (R242). -/
def farEnd (s : State) (t : Nat) (c : CpCmd) : FarEnd :=
  let own := s.ltileOf t
  if c.offmod ∧ c.node ≠ s.node then ⟨c.far, c.ltile, some c.node, own⟩
  else if some c.ltile = own ∧ c.far = 3 then ⟨0, c.ltile, none, own⟩
  else if some c.ltile = own ∧ c.far = 2 then ⟨1, c.ltile, none, own⟩
  else ⟨c.far, c.ltile, none, own⟩

/-- Step 6: MODE in a MEMORY-mode paddock (R72, R249). (log 29: DEDUCED) -/
def cpMode (s : State) (t : Nat) (d : List Byte) : Check :=
  let c := cpCmd d
  let f := s.farEnd t c
  let touches :=
    match f.node, f.own with
    | none, some l =>
      let e := c.farSide.extent (if c.dir = 0 then c.srcRows else c.dstRows)
      f.far = 4 && !c.empty && decide (e.1 < (l + 1) * 2 ^ 25 ∧ (l : Int) * 2 ^ 25 < e.2)
    | _, _ => false
  if s.modeOf t = 0 && ((f.node = none && f.far = 1) || touches) then some (0x08, 0, 0) else none

/-- The first line by which the destination passes 64 KiB in one receiver (R249, R349): the 1,025th different line. -/
def stageOver (lines : List Place) : Option Place :=
  let seen := lines.foldl
    (fun (st : List Place × Option Place) p =>
      if st.2.isSome || st.1.contains p then st
      else
        match p.staged with
        | none => st
        | some r =>
          if 1024 ≤ (st.1.filter fun q => q.staged = some r).length then (st.1, some p) else (p :: st.1, none))
    ([], none)
  seen.2

/-- Step 7 and after (R248, R249). ADDR of a staging area overfilled is the first line past its 64 KiB. (log 28: DEDUCED) -/
def cpExtent (s : State) (t : Nat) (d : List Byte) : Check :=
  let c := cpCmd d
  let f := s.farEnd t c
  if c.empty then none
  else
    let farRows := if c.dir = 0 then c.srcRows else c.dstRows
    let binRows := if c.dir = 0 then c.dstRows else c.srcRows
    let limit := if c.far = 0 ∨ c.far = 3 then 2 ^ 18 else if c.far = 4 then 0x6000000000 else 2 ^ 25
    let bounds := (c.binSide.bounds binRows (2 ^ 18) 1).orElse fun _ => c.farSide.bounds farRows limit 2
    let stage := fun (_ : Unit) =>
      if c.dir = 0 ∨ (f.node = none ∧ f.far < 2) then none
      else
        let lines := ((c.farSide.rows farRows).map fun a =>
          (linesOf a.toNat farRows.1).map fun k => (f.place (64 * k)).line).flatten
        (stageOver lines).map fun p =>
          (0x07, 3, match p with | .pillar l a => l * 2 ^ 25 + a | .tbin _ a => a | .ridge _ a => a | _ => 0)
    let overlapping := fun (_ : Unit) =>
      let a := c.src.extent c.srcRows
      let b := c.dst.extent c.dstRows
      let inPlace := c.op = 2 && c.perm = 1 && c.n2 = 1 && c.n0 = c.n1 && c.n0 ≤ (if c.esz = 2 then 16 else 32) &&
        c.fa = c.bin && c.fs1 = c.bs1 && c.pad = 0
      if f.node = none && f.far = 0 && decide (a.1 < b.2 ∧ b.1 < a.2) && !inPlace then some (0x30, 0, 0) else none
    (bounds.orElse stage).orElse overlapping

end State

/-! ### The moves of an entry (R245 to R250) -/

/-- One fill of the lattice: the first source index on axis 0 and on axis p(0), the index on the remaining axis, and how
many rows and columns it has (R250). -/
structure Fill where
  i0 : Nat
  k0 : Nat
  r : Nat
  rows : Nat
  cols : Nat

/-- The fills of an entry that uses the lattice, in order (R250). -/
def CpCmd.fills (c : CpCmd) : List Fill :=
  let w := 64 / c.sz
  let p0 := c.p 0
  (List.range (c.n (3 - p0))).flatMap fun r =>
    (List.range ((c.n p0 + 31) / 32)).flatMap fun b =>
      (List.range ((c.n0 + w - 1) / w)).map fun a =>
        { i0 := a * w, k0 := b * 32, r, rows := min 32 (c.n p0 - b * 32), cols := min w (c.n0 - a * w) }

/-- The elements of an entry in write order, in the groups that are written as one: destination rows with their pads, or
columns of a lattice fill (R247, R250). An element is its source, none for a pad, and its destination address. -/
def CpCmd.groups (c : CpCmd) : List (List (Option Int × Int)) :=
  let m0 := c.n (c.p 0)
  let row := fun (j1 j2 : Nat) => c.dst.at_ c.sz 0 j1 j2
  let padOf := fun (j1 j2 : Nat) =>
    (List.range c.pad).map fun k => ((none : Option Int), row j1 j2 + ((m0 + k) * c.sz : Nat))
  -- the source index of axis `a` when destination indices are j0, j1, j2
  let idx := fun (j : List Nat) (a : Nat) => ((List.range 3).find? fun k => c.p k = a).elim 0 fun k => j.getD k 0
  let elem := fun (j0 j1 j2 : Nat) =>
    let i := idx [j0, j1, j2]
    (some (c.src.at_ c.sz (i 0) (i 1) (i 2)), c.dst.at_ c.sz j0 j1 j2)
  if !c.lattice then
    (List.range (c.n (c.p 2))).flatMap fun j2 =>
      (List.range (c.n (c.p 1))).map fun j1 => (List.range m0).map (fun j0 => elem j0 j1 j2) ++ padOf j1 j2
  else
    let p0 := c.p 0
    -- destination indices of source index i0 on axis 0, k on axis p(0), r on the remaining axis
    let dest := fun (i0 k r : Nat) (d : Nat) =>
      let a := c.p d
      if a = 0 then i0 else if a = p0 then k else r
    c.fills.flatMap fun f =>
      (List.range f.cols).map fun x =>
        let i0 := f.i0 + x
        ((List.range f.rows).map fun y =>
            let k := f.k0 + y
            elem (dest i0 k f.r 0) (dest i0 k f.r 1) (dest i0 k f.r 2)) ++
          (if c.n p0 ≤ f.k0 + 32 then padOf (dest i0 0 f.r 1) (dest i0 0 f.r 2) else [])

/-- What the lattice is filled with, fill by fill: the byte of the lattice and the source address (R250). -/
def CpCmd.latticeBytes (c : CpCmd) : List (Nat × Nat) :=
  if !c.lattice then []
  else
    let p0 := c.p 0
    c.fills.flatMap fun f =>
      (List.range f.rows).flatMap fun y =>
        (List.range f.cols).flatMap fun x =>
          let i := fun (a : Nat) => if a = 0 then f.i0 + x else if a = p0 then f.k0 + y else f.r
          let a := (c.src.at_ c.sz (i 0) (i 1) (i 2)).toNat
          (List.range c.sz).map fun b => (64 * y + c.sz * x + b, a + b)

/-- The byte moves of an entry, by group. -/
def CpCmd.moves (c : CpCmd) (f : FarEnd) : List (List ByteMove) :=
  let from_ := fun (a : Nat) => if c.dir = 0 then f.place a else Place.bin a
  let to_ := fun (a : Nat) => if c.dir = 0 then Place.bin a else f.place a
  c.groups.map fun g =>
    g.flatMap fun e =>
      (List.range c.sz).map fun i =>
        { src := e.1.map fun a => from_ (a.toNat + i), pad := BitVec.ofNat 8 (c.padv / 256 ^ i),
          dst := to_ (e.2.toNat + i) : ByteMove }

/-- Cut `n` bytes at `a` on 256-byte boundaries; `k` bounds the pieces. -/
def cut256 (a n : Nat) : Nat → List (Nat × Nat)
  | 0 => []
  | k + 1 =>
    if n = 0 then []
    else
      let m := min n (256 - a % 256)
      (a, m) :: cut256 (a + m) (n - m) k

/-- The remote reads of an entry whose source is on another module: ADDR and length, each once (R339, R351). -/
def CpCmd.requests (c : CpCmd) (f : FarEnd) : List (Nat × Nat) :=
  ((c.src.rows c.srcRows).map fun a =>
    match f.place a.toNat with
    | .ridge _ x => cut256 x c.srcRows.1 (c.srcRows.1 / 256 + 2)
    | _ => []).flatten.eraseDups

namespace State

/-- Send remote reads; the `k`th of an entry carries RTAG `k mod 256` (R339, R351). A refusal here faults the tile. -/
def sendReads (s : State) (t node : Nat) (e : Entry) : Nat → List (Nat × Nat) → State
  | _, [] => s
  | k, r :: rs =>
    let pkt : Packet :=
      { op := 0x02, cls := 0, vcd := 0, zdir := 0, zset := 0, dst := node, src := s.node, len := r.2, blight := 0,
        args := leBytes 5 r.1 ++ leBytes 2 t ++ leBytes 1 (k % 256), data := [] }
    let s := s.onEntry t e.id fun o => { o with progress := k + 1, unanswered := o.unanswered ++ [k] }
    match s.inject pkt 2 with
    | (some _, s) => s.entryFault t e 0x50 node r.1
    | (none, s) => sendReads s t node e (k + 1) rs

/-- The lattice after a copy: its last fill stays (R250, R251). -/
def fillLattice (s : State) (t : Nat) (e : Entry) (c : CpCmd) (f : FarEnd) : State :=
  let from_ := fun (a : Nat) => if c.dir = 0 then f.place a else Place.bin a
  let cells := c.latticeBytes.map fun b => (b.1, from_ b.2)
  let lines := (s.readPlaces t e Env.none (cells.map fun b => b.2.line).eraseDups).1
  let put := fun (m : SMap Byte) (b : Nat × Place) =>
    match lines.find? fun l => l.1 = b.2.line with
    | some l => SMap.put 0 m b.1 (l.2.data.getD b.2.off 0)
    | none => m
  s.onTile t fun x => { x with latticeData := cells.foldl put x.latticeData }

/-- Run a copy entry. A far source on another module is first read by RRDs, at most 256 at a time (R351), one of this
module's pillars and barn memory over the mesh; then every byte is moved. What the hold serves in a replay is not read
again (R425). (log 30: DEDUCED, 39: DESIGN CHOICE) -/
def runCopy (s : State) (t : Nat) (env : Env) (e : Entry) : State :=
  let c := cpCmd e.desc
  if c.empty then s.performed t e
  else
    let f := s.farEnd t c
    let move := fun (s : State) =>
      s.runMoves t 1 env e (c.moves f) fun s e => (s.fillLattice t e c f).countCycles t 0x80
    match f.node with
    | some n =>
      if c.dir = 0 then
        let held := s.replayOf t ≠ none && (sourceLines (c.moves f)).all (s.served t e)
        let rs := if held then [] else c.requests f
        if e.unanswered ≠ [] then s
        else if e.progress < rs.length then s.sendReads t n e e.progress ((rs.drop e.progress).take 256)
        else move s
      else move s
    | none => move s

end State

/-- COPY (R242 to R249). -/
def execCopy (t : Nat) (env : Env) (s : State) : Res := engineRow t 2 [0x01] env s fun t e s => s.runCopy t env e

/-- PERMUTE (R245, R250, R251). -/
def execPermute (t : Nat) (env : Env) (s : State) : Res := engineRow t 2 [0x02] env s fun t e s => s.runCopy t env e

end Sys2Proof.Machine
end

