-- ==== Sys2Proof/Machine/Cart.lean ====
section
/-! DEFINITION. The cart: checks at ENQ, the index check, GATHER and SCATTER (R257 to R263). -/

namespace Sys2Proof.Machine

/-- A cart command. -/
structure CtCmd where
  op : Nat
  padw : Bool
  gshift : Nat
  esize : Nat
  count : Nat
  idx : Nat
  bin : Nat
  stride : Nat
  pbase : Nat
  bbase : Nat
  padv : Nat

/-- Read a cart descriptor (R257). -/
def ctCmd (d : List Byte) : CtCmd :=
  { op := field d 0 1, padw := bit (field d 1 1) 0, gshift := field d 8 1 % 16, esize := field d 10 2 % 2 ^ 14,
    count := field d 12 2 % 2 ^ 13, idx := addr18 d 16, bin := addr18 d 20, stride := addr18 d 24,
    pbase := field d 28 4 % 2 ^ 25, bbase := field d 32 8 % 2 ^ 39, padv := field d 40 4 }

/-- The reserved fields of a cart descriptor. -/
def ctReserved : List ReservedPart :=
  headerReserved ++ [⟨8, 68, 4⟩, ⟨9, 72, 8⟩, ⟨10, 94, 2⟩, ⟨12, 109, 3⟩, ⟨14, 112, 16⟩, ⟨28, 249, 7⟩, ⟨32, 295, 25⟩,
    ⟨44, 352, 160⟩] ++ hi14 [16, 20, 24]

/-- Step 5: the illegal fields (R262). -/
def ctIllegal (d : List Byte) : List Nat :=
  let c := ctCmd d
  reservedSet d ctReserved ++
  whenBad [
    (c.op ≠ 1 && c.op ≠ 2, 0), (field d 1 1 / 2 ≠ 0, 1), (c.op = 2 && c.padw, 0), (c.gshift < 2 || 13 < c.gshift, 8),
    (8192 < c.esize || c.esize % 4 ≠ 0, 10), (c.idx % 4 ≠ 0, 16), (c.bin % 4 ≠ 0, 20), (c.stride % 4 ≠ 0, 24),
    (c.pbase % 4 ≠ 0, 28), (c.bbase % 4 ≠ 0, 32)]

/-- Does the entry read no index (R161, R262)? -/
def CtCmd.empty (c : CtCmd) : Bool := c.count = 0 || c.esize = 0

/-- Step 7 (R262). -/
def ctExtent (d : List Byte) : Check :=
  let c := ctCmd d
  if 4096 < c.count then some (0x07, 1, 0)
  else if c.empty then none
  else (binBounds 2 c.idx 1 0 (4 * c.count)).orElse fun _ => binBounds 3 c.bin c.count c.stride c.esize

/-- Where an index entry sends its element (R258). -/
inductive IndexAt where
  | null
  | at_ (p : Place)
  /-- The check fails: code and far address (R259). -/
  | bad (code addr : Nat)

namespace State

/-- Decode and check one index entry of the cart of tile `t` (R258, R259). -/
def indexEntry (s : State) (t : Nat) (c : CtCmd) (v : Nat) : IndexAt :=
  if v = 0xFFFFFFFF then .null
  else if 2 ^ 31 ≤ v then
    let a := c.bbase + v % 2 ^ 31 * 2 ^ c.gshift
    if a < 0x2000000000 ∨ 0x6000000000 < a + c.esize then .bad 0x07 a else .at_ (.barn a)
  else
    let l := v / 2 ^ 19 % 2 ^ 12
    let a := c.pbase + v % 2 ^ 19 * 2 ^ c.gshift
    if 2 ^ 25 < a + c.esize then .bad 0x07 a
    else if some l = s.ltileOf t then (if s.modeOf t = 0 then .bad 0x08 a else .at_ (.own a))
    else .at_ (.pillar l a)

/-- Check the entries in index order; the first failure decides: code, DETAIL and ADDR (R259). -/
def indexCheck (s : State) (t : Nat) (c : CtCmd) (k : Nat) : Nat → Except (Nat × Nat × Nat) (List IndexAt)
  | 0 => .ok []
  | n + 1 =>
    let a := c.idx + 4 * k
    if SMap.look false (s.tile t).binBlight (a / 64) then .error (0x0F, 0x8000 + k, a / 64 * 64)
    else
      match s.indexEntry t c (s.binNat t a 4) with
      | .bad code addr => .error (code, 0x8000 + k, addr)
      | p =>
        match indexCheck s t c (k + 1) n with
        | .ok ps => .ok (p :: ps)
        | .error f => .error f

end State

/-- A place `i` bytes further on. -/
def Place.plus : Place → Nat → Place
  | .bin a, i => .bin (a + i)
  | .own a, i => .own (a + i)
  | .pillar l a, i => .pillar l (a + i)
  | .tbin l a, i => .tbin l (a + i)
  | .barn a, i => .barn (a + i)
  | .ridge n a, i => .ridge n (a + i)

/-- The byte moves of element `k` (R260). -/
def CtCmd.move (c : CtCmd) (k : Nat) (x : IndexAt) : List ByteMove :=
  let bin := fun i => Place.bin (c.bin + k * c.stride + i)
  match x with
  | .at_ p =>
    (List.range c.esize).map fun i =>
      if c.op = 1 then { src := some (p.plus i), pad := 0, dst := bin i } else { src := some (bin i), pad := 0, dst := p.plus i }
  | _ =>
    if c.op = 1 ∧ c.padw then
      (List.range c.esize).map fun i => { src := none, pad := BitVec.ofNat 8 (c.padv / 256 ^ (i % 4)), dst := bin i }
    else []

namespace State

/-- Move the elements of a cart entry (R260, R261). -/
def cartMoves (s : State) (t : Nat) (env : Env) (e : Entry) (c : CtCmd) (ps : List IndexAt) : State :=
  let groups := (ps.zip (List.range ps.length)).map fun p => c.move p.2 p.1
  s.runMoves t 2 env e groups fun s _ => s.countCycles t 0x88

/-- Run a cart entry: copy and check the whole index tensor when it starts, then move the elements (R259, R260). -/
def runCart (s : State) (t : Nat) (env : Env) (e : Entry) : State :=
  let c := ctCmd e.desc
  if c.empty then s.performed t e
  else
    if e.progress = 0 then
      let s := s.binParitiesIn t env [(c.idx, 4 * c.count)]
      let vs := (List.range c.count).map fun k => s.binNat t (c.idx + 4 * k) 4
      match s.indexCheck t c 0 c.count with
      | .error f => s.entryFault t e f.1 f.2.1 f.2.2
      | .ok ps =>
        let e := { e with progress := 1, index := vs }
        (s.setEntry t e).cartMoves t env e c ps
    else s.cartMoves t env e c (e.index.map (s.indexEntry t c))

end State

/-- GATHER (R258 to R260). -/
def execGather (t : Nat) (env : Env) (s : State) : Res := engineRow t 3 [0x01] env s fun t e s => s.runCart t env e

/-- SCATTER (R258 to R260). -/
def execScatter (t : Nat) (env : Env) (s : State) : Res := engineRow t 3 [0x02] env s fun t e s => s.runCart t env e

end Sys2Proof.Machine
end

