-- ==== Sys2Proof/Machine/Vector.lean ====
section
/-! DEFINITION. The vector engine: checks at ENQ, element-wise operations, scans, reductions, conversions and online
softmax, with blight (R209 to R233, R237). -/

namespace Sys2Proof.Machine

/-- One lane: the 32 bits it holds and whether they came from a blighted input. -/
structure Lane where
  v : Nat
  bl : Bool
  deriving DecidableEq, Repr

/-! ### The descriptor of OP 0x01 to 0x03 and 0x05 (R212, R213) -/

/-- A vector command. -/
structure VeCmd where
  op : Nat
  flags : Nat
  fn : Nat
  itype : Nat
  ofmt : Nat
  bmode : Nat
  cmode : Nat
  rows : Nat
  cols : Nat
  a : Nat
  as_ : Nat
  b : Nat
  bs : Nat
  c : Nat
  cs : Nat
  d : Nat
  ds : Nat
  immB : Nat
  immC : Nat
  s : Nat
  ss : Nat

/-- Read a vector descriptor. -/
def veCmd (d : List Byte) : VeCmd :=
  { op := field d 0 1, flags := field d 1 1, fn := field d 8 1, itype := field d 9 1 % 4, ofmt := field d 10 1,
    bmode := field d 11 1 % 4, cmode := field d 11 1 / 4 % 4, rows := field d 12 2, cols := field d 14 1 % 128,
    a := addr18 d 16, as_ := addr18 d 20, b := addr18 d 24, bs := addr18 d 28, c := addr18 d 32, cs := addr18 d 36,
    d := addr18 d 40, ds := addr18 d 44, immB := field d 48 4, immC := field d 52 4, s := addr18 d 56,
    ss := addr18 d 60 }

/-- Element bytes by ITYPE, and by output code (R213, R223). -/
def VeCmd.es (c : VeCmd) : Nat := if c.itype = 1 then 2 else 4
def outSize (ofmt : Nat) : Nat := if 0x10 ≤ ofmt then 4 else if ofmt = 0x0C ∨ ofmt = 0x0D then 2 else 1
def VeCmd.os (c : VeCmd) : Nat := outSize c.ofmt

/-- Floating-point input? -/
def VeCmd.fp (c : VeCmd) : Bool := c.itype < 2

/-- FNs of EW that read B; FMA reads C too (R214). -/
def VeCmd.usesB (c : VeCmd) : Bool := c.op = 1 && ((1 ≤ c.fn && c.fn ≤ 6) || (0x10 ≤ c.fn && c.fn ≤ 0x15))
def VeCmd.usesC (c : VeCmd) : Bool := c.op = 1 && c.fn = 4
/-- Segment flags (R219), ACC and AXIS (R221, R222), SAT (R223). -/
def VeCmd.seg (c : VeCmd) : Bool := c.op = 2 && bit c.flags 4
def VeCmd.excl (c : VeCmd) : Bool := bit c.flags 3
def VeCmd.acc (c : VeCmd) : Bool := c.op = 3 && bit c.flags 0
def VeCmd.axis1 (c : VeCmd) : Bool := c.op = 3 && bit c.flags 1
/-- ARGMAX or ARGMIN. -/
def VeCmd.isArg (c : VeCmd) : Bool := c.op = 3 && (c.fn = 0x21 || c.fn = 0x22)
/-- A conversion to an MX format (R224). -/
def VeCmd.mx (c : VeCmd) : Bool := c.op = 5 && 0x04 ≤ c.ofmt && c.ofmt ≤ 0x06

/-- Is FN listed for the OP and the input type (R214, R219, R222, R223)? -/
def fnOk (op fn : Nat) (fp : Bool) : Bool :=
  match op with
  | 1 => if fp then fn ≤ 0x0C else fn ≤ 0x06 || (0x10 ≤ fn && fn ≤ 0x15)
  | 2 => fn = 1 || fn = 5 || fn = 6
  | 3 => fn = 1 || fn = 5 || fn = 6 || (0x20 ≤ fn && fn ≤ 0x22)
  | _ => fn = 0

/-- Does CONVERT from floating point allow this OFMT (R223)? -/
def ofmtListed (ofmt : Nat) : Bool := [0x00, 0x02, 0x03, 0x04, 0x05, 0x06, 0x0C, 0x0D, 0x10, 0x11].contains ofmt

/-- Are FN, ITYPE and OFMT allowed together for an OP (R214, R219, R222, R223)? -/
def typeOk (op fn itype ofmt : Nat) : Bool :=
  let fp := decide (itype < 2)
  itype < 3 && fnOk op fn fp &&
    if op = 5 then if fp then ofmtListed ofmt else [0x00, 0x0C, 0x0D, 0x10, 0x11].contains ofmt
    else if op = 3 && (fn = 0x21 || fn = 0x22) then ofmt = 0x11
    else if fp then ofmt = 0x10 || ofmt = 0x0C
    else ofmt = 0x11

/-- The fields whose values are tested together, by byte offset: OP, FN, ITYPE, OFMT. -/
def typeKeys : List Nat := [0, 8, 9, 10]

/-- Every combination of the four that is allowed. -/
def allowedTypes : List (List Nat) :=
  [1, 2, 3, 5].flatMap fun op => (List.range 0x23).flatMap fun fn => [0, 1, 2].flatMap fun it =>
    ([0x00, 0x02, 0x03, 0x04, 0x05, 0x06, 0x0C, 0x0D, 0x10, 0x11].filter (typeOk op fn it)).map fun f => [op, fn, it, f]

/-- Is the combination of the members of `v` that `mask` selects not allowed, whatever the others are? -/
def comboBad (v : List Nat) (mask : Nat) : Bool :=
  allowedTypes.all fun w => (List.range 4).any fun i => bit mask i && w.getD i 0 ≠ v.getD i 0

/-- The lowest members of the combinations that are not allowed and hold no smaller one that is not (R112): one field, or fields
that are allowed but together. (log 27: DEDUCED) -/
def typeFields (v : List Nat) : List Nat :=
  let bad := ((List.range 16).drop 1).filter (comboBad v)
  let least := bad.filter fun m => bad.all fun k => k = m || k &&& m ≠ k
  least.filterMap fun m => (typeKeys.zipIdx.find? fun k => bit m k.2).map (·.1)

/-- The FLAGS bits an OP defines (R212). -/
def flagsOf (op : Nat) : Nat := match op with | 2 => 0x18 | 3 => 0x03 | 5 => 0x04 | _ => 0

/-- Are FLAGS bits set that other OPs define and this one does not: a combination with OP (R112)? Bits [7:5] are reserved. -/
def flagsBad (d : List Byte) : Bool := field d 1 1 % 32 &&& (31 - flagsOf (field d 0 1)) ≠ 0

/-- Reserved fields (R212). -/
def veReserved : List ReservedPart :=
  headerReserved ++ [⟨1, 13, 3⟩, ⟨9, 74, 6⟩, ⟨11, 92, 4⟩, ⟨14, 119, 1⟩, ⟨15, 120, 8⟩] ++ hi14 [16, 20, 24, 28, 32, 36, 40, 44, 56, 60]

/-- Step 5 for OP 0x01 to 0x03 and 0x05 (R233). -/
def veIllegal (d : List Byte) : List Nat :=
  let c := veCmd d
  let es := c.es
  let tile := fun (m b bs : Nat) => m < 3 && (b % es ≠ 0 || (m ≠ 1 && bs % es ≠ 0))
  (if typeOk c.op c.fn c.itype c.ofmt then [] else typeFields [c.op, c.fn, c.itype, c.ofmt]) ++
    reservedSet d veReserved ++ whenBad [
    (flagsBad d, 0), (c.acc && c.isArg, 1),
    (c.mx && c.cols ≠ 0 && c.cols ≠ 32 && c.cols ≠ 64, 10),
    (c.a % es ≠ 0 || c.as_ % es ≠ 0, 9), (c.usesB && tile c.bmode c.b c.bs, 9), (c.usesC && tile c.cmode c.c c.cs, 9),
    (c.d % c.os ≠ 0 || (!c.axis1 && c.ds % c.os ≠ 0), 10),
    (c.seg && c.c % 8 ≠ 0, 32), (c.seg && c.cs % 8 ≠ 0, 36)]

/-- Operands read: number, base, count, stride, width, and whether it is a tile operand. -/
def VeCmd.reads (c : VeCmd) : List (Nat × Nat × Nat × Nat × Nat × Bool) :=
  let opnd := fun (n m b bs : Nat) =>
    match m with
    | 0 => [(n, b, c.rows, bs, c.cols * c.es, true)]
    | 1 => [(n, b, 1, 0, c.cols * c.es, false)]
    | 2 => [(n, b, c.rows, bs, c.es, false)]
    | _ => []
  [(1, c.a, c.rows, c.as_, c.cols * c.es, true)] ++ (if c.usesB then opnd 2 c.bmode c.b c.bs else []) ++
    (if c.usesC then opnd 3 c.cmode c.c c.cs else []) ++ (if c.seg then [(3, c.c, c.rows, c.cs, 8, false)] else [])

/-- Operands written: number, base, count, stride, width. -/
def VeCmd.writes (c : VeCmd) : List (Nat × Nat × Nat × Nat × Nat) :=
  (if c.op = 3 then
    (if c.axis1 then [(4, c.d, 1, 0, c.cols * c.os)] else [(4, c.d, c.rows, c.ds, c.os)])
   else [(4, c.d, c.rows, c.ds, c.cols * c.os)]) ++
    (if c.mx then [(5, c.s, c.rows, c.ss, c.cols / 32)] else [])

/-- May the output lie exactly on this input (R232)? -/
def VeCmd.coincides (c : VeCmd) (r : Nat × Nat × Nat × Nat × Nat × Bool) : Bool :=
  c.op ≠ 3 && r.2.2.2.2.2 && c.os ≤ c.es && c.d = r.2.1 && c.ds = r.2.2.2.1

/-- Steps 7 and after for OP 0x01 to 0x03 and 0x05 (R217, R232, R233). -/
def veExtent (d : List Byte) : Check :=
  let c := veCmd d
  let bcast := fun (m : Nat) => m = 1 || m = 2
  if 64 < c.cols then some (0x07, 6, 0)
  else if 64 < c.rows ∧ ((c.usesB && bcast c.bmode) || (c.usesC && bcast c.cmode)) then some (0x07, 7, 0)
  else if c.rows = 0 ∨ c.cols = 0 then none
  else
    let rs := c.reads.map fun r => binBounds r.1 r.2.1 r.2.2.1 r.2.2.2.1 r.2.2.2.2.1
    let ws := c.writes.map fun w => binBounds w.1 w.2.1 w.2.2.1 w.2.2.2.1 w.2.2.2.2
    ((rs ++ ws).findSome? id).orElse fun _ =>
      if c.reads.any fun r => c.writes.any fun w =>
          !(w.1 = 4 && c.coincides r) &&
            overlap (byteRange r.2.1 r.2.2.1 r.2.2.2.1 r.2.2.2.2.1) (byteRange w.2.1 w.2.2.1 w.2.2.2.1 w.2.2.2.2)
      then some (0x28, 0, 0) else none

/-! ### Online softmax descriptors (R225, R229) -/

/-- Bytes of a KV element (R227) and of a query element (R225). -/
def kvSize (fmt : Nat) : Nat := if fmt = 0x0C then 2 else 1
def qSize (ty : Nat) : Nat := if ty = 1 then 2 else 4
/-- Bytes of one query's state (R226). -/
def stateBytes (dim : Nat) : Nat := 64 + 4 * dim

/-- An ATTN command. -/
structure AttnCmd where
  init : Bool
  kvfmt : Nat
  qtype : Nat
  nq : Nat
  src : Nat
  nkeys : Nat
  dim : Nat
  q : Nat
  qs : Nat
  scale : Nat
  st : Nat
  kv : Nat
  kvs : Nat

/-- Read an ATTN descriptor. -/
def attnCmd (d : List Byte) : AttnCmd :=
  { init := bit (field d 1 1) 0, kvfmt := field d 8 1, qtype := field d 9 1 % 4, nq := field d 10 1 % 32,
    src := field d 11 1 % 2, nkeys := field d 12 2, dim := field d 14 2 % 512, q := addr18 d 16, qs := addr18 d 20,
    scale := field d 24 4, st := addr18 d 28, kv := addr18 d 32, kvs := addr18 d 36 }

/-- The codewords an ATTN entry takes from sink 1 (R227). -/
def AttnCmd.codewords (c : AttnCmd) : Nat :=
  if c.src = 1 ∨ c.nq = 0 ∨ c.dim = 0 then 0 else c.nkeys * 2 * c.dim * kvSize c.kvfmt / 64

/-- Step 5 for ATTN. -/
def attnIllegal (d : List Byte) : List Nat :=
  let c := attnCmd d
  let ks := kvSize c.kvfmt
  reservedSet d (headerReserved ++ [⟨1, 9, 7⟩, ⟨9, 74, 6⟩, ⟨10, 85, 3⟩, ⟨11, 89, 7⟩, ⟨14, 121, 7⟩, ⟨40, 320, 192⟩] ++
    hi14 [16, 20, 28, 32, 36]) ++ whenBad [
    (c.kvfmt ≠ 0x02 && c.kvfmt ≠ 0x03 && c.kvfmt ≠ 0x0C, 8), (1 < c.qtype, 9), (c.dim % 32 ≠ 0, 14),
    (c.q % qSize c.qtype ≠ 0 || c.qs % qSize c.qtype ≠ 0, 9), (c.st % 64 ≠ 0, 28),
    (c.src = 1 && (c.kv % ks ≠ 0 || c.kvs % ks ≠ 0), 8)]

/-- Steps 7 and after for ATTN (R232, R233). -/
def attnExtent (d : List Byte) : Check :=
  let c := attnCmd d
  let stR := byteRange c.st 1 0 (c.nq * stateBytes c.dim)
  let qR := byteRange c.q c.nq c.qs (c.dim * qSize c.qtype)
  let stB := binBounds 10 c.st 1 0 (c.nq * stateBytes c.dim)
  let clash (b : Bool) : Check := if b then some (0x28, 0, 0) else none
  if 16 < c.nq then some (0x07, 8, 0)
  else if 256 < c.dim then some (0x07, 9, 0)
  else if c.nq = 0 ∨ c.dim = 0 then none
  else if c.nkeys = 0 then
    if c.init then stB.orElse fun _ => clash (overlap stR qR) else none
  else
    let recW := 2 * c.dim * kvSize c.kvfmt
    let n := if c.src = 1 then c.nkeys else 0
    ((stB.orElse fun _ => binBounds 11 c.q c.nq c.qs (c.dim * qSize c.qtype)).orElse fun _ =>
      binBounds 12 c.kv n c.kvs recW).orElse fun _ =>
      clash (overlap stR qR || overlap stR (byteRange c.kv n c.kvs recW))

/-- An SM_MERGE or SM_FINAL command. -/
structure SmCmd where
  final : Bool
  ofmt : Nat
  nq : Nat
  dim : Nat
  st : Nat
  st2 : Nat
  d : Nat
  ds : Nat

/-- Read it. -/
def smCmd (d : List Byte) : SmCmd :=
  { final := field d 0 1 = 8, ofmt := field d 8 1, nq := field d 10 1 % 32, dim := field d 12 2 % 512,
    st := addr18 d 16, st2 := addr18 d 20, d := addr18 d 24, ds := addr18 d 28 }

/-- Step 5 for SM_MERGE and SM_FINAL. What only one of the two operations allows counts as a combination with OP. -/
def smIllegal (d : List Byte) : List Nat :=
  let c := smCmd d
  let os := outSize c.ofmt
  reservedSet d (headerReserved ++ [⟨1, 13, 3⟩, ⟨9, 72, 8⟩, ⟨10, 85, 3⟩, ⟨11, 88, 8⟩, ⟨12, 105, 7⟩, ⟨14, 112, 16⟩,
    ⟨32, 256, 256⟩] ++ hi14 [16, 20, 24, 28]) ++ whenBad [
    (flagsBad d, 0),
    (c.ofmt ≠ 0 && c.ofmt ≠ 0x10 && c.ofmt ≠ 0x0C, 8), (c.final && (c.ofmt = 0 || (c.st2 ≠ 0 && c.st2 % 64 = 0)), 0),
    (!c.final && (c.ofmt = 0x10 || c.ofmt = 0x0C || c.d ≠ 0 || c.ds ≠ 0), 0),
    (c.dim % 32 ≠ 0, 12), (c.st % 64 ≠ 0, 16), (c.st2 % 64 ≠ 0, 20),
    (c.final && (c.d % os ≠ 0 || c.ds % os ≠ 0), 8)]

/-- Steps 7 and after for SM_MERGE and SM_FINAL. -/
def smExtent (d : List Byte) : Check :=
  let c := smCmd d
  let w := c.nq * stateBytes c.dim
  let ow := c.dim * outSize c.ofmt
  if 16 < c.nq then some (0x07, 8, 0)
  else if 256 < c.dim then some (0x07, 9, 0)
  else if c.nq = 0 ∨ c.dim = 0 then none
  else
    let stR := byteRange c.st 1 0 w
    if c.final then
      ((binBounds 4 c.d c.nq c.ds ow).orElse fun _ => binBounds 10 c.st 1 0 w).orElse fun _ =>
        if overlap stR (byteRange c.d c.nq c.ds ow) then some (0x28, 0, 0) else none
    else
      ((binBounds 10 c.st 1 0 w).orElse fun _ => binBounds 10 c.st2 1 0 w).orElse fun _ =>
        if overlap stR (byteRange c.st2 1 0 w) then some (0x28, 0, 0) else none

/-- Step 5 of a vector entry. -/
def vectorIllegal (d : List Byte) : List Nat :=
  let op := field d 0 1
  if op = 0 ∨ op = 4 ∨ 8 < op then [0]
  else if op < 6 then veIllegal d
  else if op = 6 then attnIllegal d
  else smIllegal d

/-- Steps 7 and after of a vector entry. -/
def vectorExtent (d : List Byte) : Check :=
  let op := field d 0 1
  if op < 6 then veExtent d else if op = 6 then attnExtent d else smExtent d

/-! ### Lane operations -/

/-- The FP result of EW on FP32 patterns (R214, R215, R218). -/
def ewF (fn a b c : Nat) : Nat :=
  match fn with
  | 0x01 => fAdd a b
  | 0x02 => fSub a b
  | 0x03 => fMul a b
  | 0x04 => fFma a b c
  | 0x05 => fMin a b
  | 0x06 => fMax a b
  | 0x07 => fAbs a
  | 0x08 => fNeg a
  | 0x09 => fExp2 a
  | 0x0A => fLog2 a
  | 0x0B => fRcp a
  | 0x0C => fRsqrt a
  | _ => a

/-- The INT32 result of EW (R214, R216). -/
def ewI (fn a b c : Nat) : Nat :=
  let sa := sgn 32 a
  let sb := sgn 32 b
  match fn with
  | 0x01 => wrap 32 (sa + sb)
  | 0x02 => wrap 32 (sa - sb)
  | 0x03 => wrap 32 (sa * sb)
  | 0x04 => wrap 32 (sa * sb + sgn 32 c)
  | 0x05 => if sb < sa then b else a
  | 0x06 => if sa < sb then b else a
  | 0x10 => a &&& b
  | 0x11 => a ||| b
  | 0x12 => a ^^^ b
  | 0x13 => a * 2 ^ (b % 32) % 2 ^ 32
  | 0x14 => a / 2 ^ (b % 32)
  | 0x15 => wrap 32 (sa / 2 ^ (b % 32))
  | _ => a

/-- The EW operation by input type; it is op(x, y) of scans and reductions too (R219, R222). -/
def ewOp (fp : Bool) (fn a b c : Nat) : Nat := if fp then ewF fn a b c else ewI fn a b c

/-- The largest finite magnitude exponent target: the code of a value converted to OFMT (R210, R223). -/
def convertTo (fp : Bool) (ofmt : Nat) (sat : Bool) (v : Nat) : List Byte :=
  let x := if fp then f32 v else FV.ofInt (sgn 32 v) 0
  match ofmt with
  | 0x10 => leBytes 4 (fp32.encode sat x)
  | 0x0C => leBytes 2 (bf16.encode sat x)
  | 0x0D => leBytes 2 (fp16.encode sat x)
  | 0x02 => leBytes 1 (e4m3.encode sat x)
  | 0x03 => leBytes 1 (e5m2.encode sat x)
  | 0x00 => leBytes 1 (wrap 8 (x.toInt (-128) 127))
  | _ => if fp then leBytes 4 (wrap 32 (x.toInt (-(2 ^ 31)) (2 ^ 31 - 1))) else leBytes 4 v

namespace State

/-- `n` elements of the command's input type from `a`, each a lane. -/
def veRow (s : State) (t : Nat) (c : VeCmd) (a n : Nat) : List Lane :=
  (List.range n).map fun i =>
    let p := a + i * c.es
    let v := s.binNat t p c.es
    ⟨if c.itype = 1 then v * 65536 else v, s.binMarked t p c.es⟩

/-- Row `r` of B or C by its mode (R213). -/
def veOperand (s : State) (t : Nat) (c : VeCmd) (mode base stride imm r : Nat) : List Lane :=
  match mode with
  | 0 => s.veRow t c (base + r * stride) c.cols
  | 1 => s.veRow t c base c.cols
  | 2 => List.replicate c.cols ((s.veRow t c (base + r * stride) 1).headD ⟨0, false⟩)
  | _ => List.replicate c.cols ⟨imm, false⟩

/-- The output elements of row `r` of D. -/
def veOut (c : VeCmd) (sat : Bool) (r : Nat) (ls : List Lane) : List OutElem :=
  (ls.zip (List.range ls.length)).map fun p =>
    { addr := c.d + r * c.ds + p.2 * c.os, bytes := convertTo c.fp c.ofmt sat p.1.v, blight := p.1.bl }

/-- EW: row `r` (R214, R237). -/
def ewRow (s : State) (t : Nat) (c : VeCmd) (r : Nat) : List OutElem :=
  let a := s.veRow t c (c.a + r * c.as_) c.cols
  let z := List.replicate c.cols ⟨0, false⟩
  let b := if c.usesB then s.veOperand t c c.bmode c.b c.bs c.immB r else z
  let d := if c.usesC then s.veOperand t c c.cmode c.c c.cs c.immC r else z
  veOut c false r ((a.zip (b.zip d)).map fun p =>
    ⟨ewOp c.fp c.fn p.1.v p.2.1.v p.2.2.v, p.1.bl || p.2.1.bl || p.2.2.bl⟩)

/-- Does the output lie exactly on an input whose rows share bytes, so that each row is written before the next is read
(R232)? (log 26: DEDUCED) -/
def eachRow (c : VeCmd) : Bool := c.reads.any fun r => c.coincides r && decide (r.2.2.2.1 < r.2.2.2.2.1)

/-- Write the rows of an entry, row by row or all at once. -/
def veWriteRows (s : State) (t : Nat) (env : Env) (e : Entry) (c : VeCmd) (row : State → Nat → List OutElem) : State :=
  if eachRow c then
    foldEach (List.range c.rows) s fun r s => s.writeOut t 1 e.id env (row s r)
  else s.writeOut t 1 e.id env ((List.range c.rows).map (row s)).flatten

end State

/-! ### Scans (R219, R220) -/

/-- A lane of a scan: its value, its segment flag, and its marks. -/
structure ScanLane where
  v : Nat
  f : Bool
  bl : Bool
  deriving DecidableEq, Repr

/-- One level of the scan tree at distance `d`. -/
def scanLevel (op : Nat → Nat → Nat) (d : Nat) (ls : List ScanLane) : List ScanLane :=
  (ls.zip (List.range ls.length)).map fun p =>
    if p.2 < d then p.1
    else
      let x := ls.getD (p.2 - d) ⟨0, true, false⟩
      if p.1.f then p.1 else ⟨op x.v p.1.v, p.1.f || x.f, p.1.bl || x.bl⟩

/-- The six levels. -/
def scanTree (op : Nat → Nat → Nat) (ls : List ScanLane) : List ScanLane :=
  [1, 2, 4, 8, 16, 32].foldl (fun ls d => scanLevel op d ls) ls

/-- The identity of a scan operation (R220). -/
def scanIdentity (fp : Bool) (fn : Nat) : Nat :=
  match fn with
  | 5 => if fp then 0x7F800000 else 0x7FFFFFFF
  | 6 => if fp then 0xFF800000 else 0x80000000
  | _ => 0

namespace State

/-- One row of a scan with the carry in: the lanes to write and the carry out (R219, R237). A blighted flag word marks
every output of its row and the carry; an exclusive output too is marked by the element at its own place. -/
def scanRow (s : State) (t : Nat) (c : VeCmd) (r : Nat) (cin : Lane) : List Lane × Lane :=
  let a := s.veRow t c (c.a + r * c.as_) c.cols
  let fa := c.c + r * c.cs
  let word := if c.seg then s.binNat t fa 8 else 0
  let fbl := c.seg && s.binMarked t fa 8
  let start := (a.zip (List.range c.cols)).map fun p => (⟨p.1.v, bit word p.2, p.1.bl⟩ : ScanLane)
  let incl := (scanTree (fun x y => ewOp c.fp c.fn x y 0) start).map fun l =>
    if l.f then (⟨l.v, l.bl || fbl⟩ : Lane) else ⟨ewOp c.fp c.fn cin.v l.v 0, l.bl || cin.bl || fbl⟩
  let carry := incl.getD (c.cols - 1) ⟨0, false⟩
  let out :=
    if !c.excl then incl
    else (List.range c.cols).map fun k =>
      let v := if bit word k then scanIdentity c.fp c.fn else if k = 0 then cin.v else (incl.getD (k - 1) ⟨0, false⟩).v
      ⟨v, (incl.getD k ⟨0, false⟩).bl⟩
  (out, carry)

/-- All rows of a scan from row `r` on, each read before it is written. -/
def scanRows (s : State) (t : Nat) (env : Env) (e : Entry) (c : VeCmd) (each : Bool) (r : Nat) (carry : Lane)
    (acc : List OutElem) : Nat → State
  | 0 => s.writeOut t 1 e.id env acc
  | n + 1 =>
    let (ls, carry) := s.scanRow t c r carry
    let out := veOut c false r ls
    if each then scanRows (s.writeOut t 1 e.id env out) t env e c each (r + 1) carry [] n
    else scanRows s t env e c each (r + 1) carry (acc ++ out) n

end State

/-! ### Reductions (R221, R222) -/

/-- One level of the reduction tree: neighbours are joined, an odd last member passes on. -/
def pairUp {α : Type} (op : α → α → α) : List α → List α
  | x :: y :: ls => op x y :: pairUp op ls
  | ls => ls

/-- The fixed six-level tree over the lanes that are present. -/
def treeReduce {α : Type} (op : α → α → α) (ls : List α) : List α :=
  pairUp op (pairUp op (pairUp op (pairUp op (pairUp op (pairUp op ls)))))

/-- A member of a reduction: value, index, mark. -/
structure RedElem where
  v : Nat
  i : Nat
  bl : Bool
  deriving DecidableEq, Repr

/-- op(x, y) of a reduction. (log 36: DEDUCED) -/
def redOp (c : VeCmd) (x y : RedElem) : RedElem :=
  let bl := x.bl || y.bl
  let pick := fun (takeY : Bool) => if takeY then { y with bl } else { x with bl }
  match c.fn with
  | 0x21 =>
    if c.fp then
      let a := f32 x.v
      let b := f32 y.v
      pick (!a.isNan && (b.isNan || a.below b))
    else pick (decide (sgn 32 x.v < sgn 32 y.v))
  | 0x22 =>
    if c.fp then
      let a := f32 x.v
      let b := f32 y.v
      pick (if a.isNan then !b.isNan else b.below a)
    else pick (decide (sgn 32 y.v < sgn 32 x.v))
  | 0x20 => ⟨ewOp c.fp 0x01 x.v y.v 0, x.i, bl⟩
  | fn => ⟨ewOp c.fp fn x.v y.v 0, x.i, bl⟩

/-- A lane entering a reduction: its square for SUMSQ. -/
def redIn (c : VeCmd) (i : Nat) (l : Lane) : RedElem :=
  ⟨if c.fn = 0x20 then ewOp c.fp 0x03 l.v l.v 0 else l.v, i, l.bl⟩

namespace State

/-- The result of a reduction as an output element at `a`, joined with D_old under ACC. -/
def redOut (s : State) (t : Nat) (c : VeCmd) (a : Nat) (x : RedElem) : OutElem :=
  if c.isArg then { addr := a, bytes := leBytes 4 x.i, blight := x.bl }
  else
    let x :=
      if c.acc then
        let old := s.binNat t a c.os
        redOp { c with fn := if c.fn = 0x20 then 0x01 else c.fn }
          ⟨if c.ofmt = 0x0C then old * 65536 else old, 0, s.binMarked t a c.os⟩ x
      else x
    { addr := a, bytes := convertTo c.fp c.ofmt false x.v, blight := x.bl }

/-- REDUCE down the rows: the accumulators after rows `r` to `r + n - 1`. -/
def redDown (s : State) (t : Nat) (c : VeCmd) (r : Nat) (acc : List RedElem) : Nat → List RedElem
  | 0 => acc
  | n + 1 =>
    let row := (s.veRow t c (c.a + r * c.as_) c.cols).map (redIn c r)
    redDown s t c (r + 1) (if r = 0 then row else List.zipWith (redOp c) acc row) n

/-- The read ranges of a vector command, for parity (R125), with D_old under ACC. -/
def veReads (c : VeCmd) : List (Nat × Nat) :=
  let rs := c.reads.map fun r => (r.2.1, r.2.2.1, r.2.2.2.1, r.2.2.2.2.1)
  let ds := if c.acc then c.writes.map fun w => (w.2.1, w.2.2.1, w.2.2.2.1, w.2.2.2.2) else []
  ((rs ++ ds).map fun r => (List.range r.2.1).map fun i => (r.1 + i * r.2.2.1, r.2.2.2)).flatten

/-- A vector entry has been performed; the counters of R239 count free amounts. -/
def vePerformed (s : State) (t : Nat) (e : Entry) : State := ((s.countCycles t 0x70).countCycles t 0x78).performed t e

end State

/-- A row of the vector engine over a tile of rows and columns (R161). -/
def veRowOp (t op : Nat) (env : Env) (s : State) (f : Entry → VeCmd → State → State) : Res :=
  engineRow t 1 [op] env s fun t e s =>
    let c := veCmd e.desc
    if c.rows = 0 ∨ c.cols = 0 then s.performed t e
    else (f e c (s.binParitiesIn t env (State.veReads c))).vePerformed t e

/-- EW. -/
def execEw (t : Nat) (env : Env) (s : State) : Res :=
  veRowOp t 0x01 env s fun e c s => s.veWriteRows t env e c fun s r => s.ewRow t c r

/-- SCAN. -/
def execScan (t : Nat) (env : Env) (s : State) : Res :=
  veRowOp t 0x02 env s fun e c s =>
    s.scanRows t env e c (State.eachRow c) 0 ⟨c.immB, false⟩ [] c.rows

/-- REDUCE: under ACC, D_old is the value in D before the entry (R222). -/
def execReduce (t : Nat) (env : Env) (s : State) : Res :=
  veRowOp t 0x03 env s fun e c s =>
    if c.axis1 then
      let acc := s.redDown t c 0 [] c.rows
      s.writeOut t 1 e.id env ((acc.zip (List.range acc.length)).map fun p => s.redOut t c (c.d + p.2 * c.os) p.1)
    else
      s.writeOut t 1 e.id env ((List.range c.rows).flatMap fun r =>
        let ls := (s.veRow t c (c.a + r * c.as_) c.cols).zip (List.range c.cols)
        ((treeReduce (redOp c) (ls.map fun p => redIn c p.2 p.1)).take 1).map (s.redOut t c (c.d + r * c.ds)))

/-! ### Conversions (R223, R224) -/

/-- ⌊log2 |x|⌋ of a finite non-zero value. -/
def floorLog2 (x : FV) : Int :=
  match x with
  | .fin _ m e => e + (Nat.log2 m : Int)
  | _ => 0

/-- The scale byte and the element bytes of one MX block (R224). -/
def mxBlock (ofmt : Nat) (ls : List Lane) : Byte × List Byte :=
  let xs := ls.map fun l => f32 l.v
  if xs.any fun x => x.isNan || x.isInf then (0xFF, ls.map fun _ => 0)
  else
    let mags := xs.filterMap fun x => match x with
      | .fin _ m e => if m = 0 then none else some (e + (Nat.log2 m : Int))
      | _ => none
    let emax : Int := match ofmt with | 0x05 => 8 | 0x06 => 15 | _ => 0
    let e : Int :=
      match mags with
      | [] => 0
      | g :: gs => max 0 (min 254 (gs.foldl max g - emax + 127))
    let conv := fun (x : FV) =>
      match ofmt with
      | 0x04 => BitVec.ofNat 8 (wrap 8 ((x.scale (133 - e)).toInt (-127) 127))
      | 0x05 => BitVec.ofNat 8 (e4m3.encode true (x.scale (127 - e)))
      | _ => BitVec.ofNat 8 (e5m2.encode true (x.scale (127 - e)))
    (BitVec.ofNat 8 e.toNat, xs.map conv)

namespace State

/-- CONVERT: row `r`, elements of D; for MX the blocks' elements. -/
def convertRow (s : State) (t : Nat) (c : VeCmd) (r : Nat) : List OutElem :=
  let a := s.veRow t c (c.a + r * c.as_) c.cols
  if c.mx then
    ((List.range (c.cols / 32)).map fun g =>
      let blk := (a.drop (32 * g)).take 32
      let bl := blk.any (·.bl)
      let out := (mxBlock c.ofmt blk).2
      (out.zip (List.range 32)).map fun p =>
        ({ addr := c.d + r * c.ds + 32 * g + p.2, bytes := [p.1], blight := bl } : OutElem)).flatten
  else veOut c (bit c.flags 2) r a

/-- The scales of row `r` of an MX conversion. -/
def convertScales (s : State) (t : Nat) (c : VeCmd) (r : Nat) : List OutElem :=
  let a := s.veRow t c (c.a + r * c.as_) c.cols
  (List.range (c.cols / 32)).map fun g =>
    let blk := (a.drop (32 * g)).take 32
    { addr := c.s + r * c.ss + g, bytes := [(mxBlock c.ofmt blk).1], blight := blk.any (·.bl) }

end State

/-- CONVERT: each row's elements and scales are computed from that row as it is read (R224, R232). The scales are written
last, over elements of D that lie on the same bytes: the manual gives no order between the two. (log 91: DESIGN CHOICE) -/
def execConvert (t : Nat) (env : Env) (s : State) : Res :=
  veRowOp t 0x05 env s fun e c s =>
    let scales := fun (s : State) (r : Nat) => if c.mx then s.convertScales t c r else []
    let done :=
      if State.eachRow c then
        (List.range c.rows).foldl
          (fun (p : List OutElem × State) r =>
            (p.1 ++ scales p.2 r, p.2.writeOut t 1 e.id env (p.2.convertRow t c r))) ([], s)
      else
        ((List.range c.rows).flatMap (scales s), s.writeOut t 1 e.id env ((List.range c.rows).flatMap (s.convertRow t c)))
    done.2.writeOut t 1 e.id env done.1

/-! ### Online softmax (R226 to R231) -/

/-- The softmax state of one query. -/
structure SmState where
  m : Nat
  l : Nat
  acc : List Nat
  bl : Bool
  deriving DecidableEq, Repr

/-- x − y, taken as +0.0 when both are +∞ (R228). -/
def smDiff (x y : Nat) : Nat := if x = 0x7F800000 ∧ y = 0x7F800000 then 0 else fSub x y

namespace State

/-- Read the state of query `q` at `base` (R226). -/
def smRead (s : State) (t base dim q : Nat) : SmState :=
  let a := base + q * stateBytes dim
  { m := s.binNat t a 4, l := s.binNat t (a + 4) 4,
    acc := (List.range dim).map fun d => s.binNat t (a + 64 + 4 * d) 4, bl := s.binMarked t a (stateBytes dim) }

/-- Write the state of query `q` back, with zero in its reserved bytes. -/
def smWrite (s : State) (t : Nat) (env : Env) (e : Entry) (base dim q : Nat) (x : SmState) : State :=
  let bytes := leBytes 4 x.m ++ leBytes 4 x.l ++ zeros 56 ++ (x.acc.map (leBytes 4)).flatten
  s.writeOut t 1 e.id env [{ addr := base + q * stateBytes dim, bytes, blight := x.bl }]

end State

/-- One record: the FP32 patterns of K and V, and its mark. -/
structure KvRecord where
  k : List Nat
  v : List Nat
  bl : Bool
  deriving DecidableEq, Repr

/-- Decode `2 × dim` elements of a record's bytes. -/
def kvRecord (fmt dim : Nat) (bs : List Byte) (bl : Bool) : KvRecord :=
  let ks := kvSize fmt
  let el := fun i => toF32 (elemValue fmt (field bs (i * ks) ks))
  { k := (List.range dim).map el, v := (List.range dim).map fun i => el (dim + i), bl }

/-- The dot product of R228: chunks of 64 in ascending d, then the tree over the lanes present. -/
def smDot (dim : Nat) (q k : List Nat) : Nat :=
  let lanes := (List.range (min 64 dim)).map fun c =>
    (List.range ((dim + 63) / 64)).foldl
      (fun t h => if 64 * h + c < dim then fFma (q.getD (64 * h + c) 0) (k.getD (64 * h + c) 0) t else t) 0
  (treeReduce fAdd lanes).headD 0

/-- One key past one query (R228, R237). -/
def smKey (dim scale : Nat) (q : List Nat) (x : SmState) (r : KvRecord) : SmState :=
  let s := fMul (smDot dim q r.k) scale
  let bl := x.bl || r.bl
  if s = 0xFF800000 then { x with bl }
  else
    let mn := fMax x.m s
    let a := fExp2 (smDiff x.m mn)
    let p := fExp2 (smDiff s mn)
    { m := mn, l := fFma x.l a p, acc := List.zipWith (fun acc v => fFma p v (fMul acc a)) x.acc r.v, bl }

namespace State

/-- The query rows of an ATTN entry as FP32 patterns. -/
def attnQuery (s : State) (t : Nat) (c : AttnCmd) (q : Nat) : List Nat :=
  (List.range c.dim).map fun d =>
    let v := s.binNat t (c.q + q * c.qs + d * qSize c.qtype) (qSize c.qtype)
    if c.qtype = 1 then v * 65536 else v

/-- The records of an ATTN entry: from the codewords it took, or from the bin. -/
def attnRecords (s : State) (t : Nat) (c : AttnCmd) (e : Entry) : List KvRecord :=
  let w := 2 * c.dim * kvSize c.kvfmt
  (List.range c.nkeys).map fun j =>
    if c.src = 1 then
      let a := c.kv + j * c.kvs
      kvRecord c.kvfmt c.dim (readBytes (s.tile t).bin a w) (s.binMarked t a w)
    else
      let ws := (e.taken.drop (j * (w / 64))).take (w / 64)
      kvRecord c.kvfmt c.dim (ws.map fun x => x.line.data).flatten (ws.any fun x => x.line.blight)

/-- The bin ranges an ATTN entry reads. -/
def attnReads (c : AttnCmd) : List (Nat × Nat) :=
  if c.nkeys = 0 then []
  else
    (List.range c.nq).map (fun q => (c.q + q * c.qs, c.dim * qSize c.qtype)) ++
      (if c.init then [] else [(c.st, c.nq * stateBytes c.dim)]) ++
      (if c.src = 1 then (List.range c.nkeys).map fun j => (c.kv + j * c.kvs, 2 * c.dim * kvSize c.kvfmt) else [])

end State

/-- An ATTN entry takes its codewords from sink 1, and with the last of them runs every key past every query. -/
def State.runAttn (s : State) (t : Nat) (env : Env) (e : Entry) : State :=
  let c := attnCmd e.desc
  if c.nq = 0 ∨ c.dim = 0 ∨ (c.nkeys = 0 ∧ !c.init) then s.performed t e
  else
    let (e, s) := s.takeSink t 1 e (c.codewords - e.taken.length) env
    if e.taken.length < c.codewords then s
    else
      let s := s.binParitiesIn t env (State.attnReads c)
      let recs := s.attnRecords t c e
      let states := (List.range c.nq).map fun q =>
        let x := if c.init then ⟨0xFF800000, 0, List.replicate c.dim 0, false⟩ else s.smRead t c.st c.dim q
        let qm := c.nkeys ≠ 0 && s.binMarked t (c.q + q * c.qs) (c.dim * qSize c.qtype)
        recs.foldl (smKey c.dim c.scale (s.attnQuery t c q)) { x with bl := x.bl || qm }
      let s := foldEach (states.zip (List.range c.nq)) s fun p s => s.smWrite t env e c.st c.dim p.2 p.1
      s.vePerformed t e

/-- The merge of two states, the first the earlier (R230). -/
def smMerge (x y : SmState) : SmState :=
  let bl := x.bl || y.bl
  if y.m = 0xFF800000 then { x with bl }
  else if x.m = 0xFF800000 then { y with bl }
  else
    let m := fMax x.m y.m
    let a1 := fExp2 (smDiff x.m m)
    let a2 := fExp2 (smDiff y.m m)
    { m, l := fFma x.l a1 (fMul y.l a2), acc := List.zipWith (fun p q => fFma p a1 (fMul q a2)) x.acc y.acc, bl }

/-- SM_MERGE. -/
def execSmMerge (t : Nat) (env : Env) (s : State) : Res :=
  engineRow t 1 [0x07] env s fun t e s =>
    let c := smCmd e.desc
    if c.nq = 0 ∨ c.dim = 0 then s.performed t e
    else
      let w := c.nq * stateBytes c.dim
      let s := s.binParitiesIn t env [(c.st, w), (c.st2, w)]
      let s := foldEach (List.range c.nq) s fun q s =>
        s.smWrite t env e c.st c.dim q (smMerge (s.smRead t c.st c.dim q) (s.smRead t c.st2 c.dim q))
      s.vePerformed t e

/-- SM_FINAL: acc × RCP(l), or zero where l is zero (R231). -/
def execSmFinal (t : Nat) (env : Env) (s : State) : Res :=
  engineRow t 1 [0x08] env s fun t e s =>
    let c := smCmd e.desc
    if c.nq = 0 ∨ c.dim = 0 then s.performed t e
    else
      let s := s.binParitiesIn t env [(c.st, c.nq * stateBytes c.dim)]
      let os := outSize c.ofmt
      let out := ((List.range c.nq).map fun q =>
        let x := s.smRead t c.st c.dim q
        let zero := x.l % 2 ^ 31 = 0
        let r := fRcp x.l
        (x.acc.zip (List.range c.dim)).map fun p =>
          ({ addr := c.d + q * c.ds + p.2 * os,
             bytes := convertTo true c.ofmt false (if zero then 0 else fMul p.1 r), blight := x.bl } : OutElem)).flatten
      (s.writeOut t 1 e.id env out).vePerformed t e

end Sys2Proof.Machine
end

