-- ==== Sys2Proof/Machine/Enq.lean ====
section
/-! DEFINITION. The engine queues: the pillar stream and sync descriptors, the checks and placing of ENQ, starting and
completing entries, the pillar stream's reads, the two engines that take from sinks, WAITQ, COMMIT and HALT (R101, R109
to R121, R158, R206, R236, R279). -/

namespace Sys2Proof.Machine

/-! ### Pillar stream entries (R116, R117) -/

/-- Step 5: the illegal fields. -/
def psIllegal (d : List Byte) : List Nat :=
  let c := psCmd d
  reservedSet d (headerReserved ++ [⟨8, 89, 7⟩, ⟨20, 162, 6⟩, ⟨21, 168, 24⟩, ⟨32, 256, 256⟩] ++ hi14 [24, 28]) ++
  whenBad [
    (field d 0 1 ≠ 1, 0), (field d 1 1 ≠ 0, 1), (c.off % 64 ≠ 0, 8), (c.sink = 3, 20), (c.bin % 64 ≠ 0, 24),
    (c.bstride % 64 ≠ 0, 28)]

/-- Step 7: the first codeword, in run order, outside the pillar or the bin. -/
def psExtent (d : List Byte) : Check :=
  let c := psCmd d
  if c.runlen = 0 ∨ c.runs = 0 then none
  else
    let x : Tensor3 := ⟨c.off, 64 * c.stride, 0⟩
    (x.bounds (64 * c.runlen, c.runs, 1) (2 ^ 25) 0).orElse fun _ =>
      if c.sink = 2 then binBounds 0 c.bin c.runs c.bstride (64 * c.runlen) else none

/-! ### Sync entries (R276, R279) -/

/-- A sync command. -/
structure SyCmd where
  op : Nat
  explicit : Bool
  tally : Nat
  timeout : Nat
  flag : Nat
  node : Nat
  offmod : Bool
  epoch : BitVec 32
  status : Nat
  value : BitVec 64

/-- Read a sync descriptor. -/
def syCmd (d : List Byte) : SyCmd :=
  { op := field d 0 1, explicit := bit (field d 1 1) 0, tally := field d 8 1, timeout := field d 9 1 % 32,
    flag := field d 10 2 % 128, node := field d 12 2 % 2 ^ 15, offmod := bit (field d 12 2) 15,
    epoch := BitVec.ofNat 32 (field d 16 4), status := field d 20 4 % 2 ^ 19, value := BitVec.ofNat 64 (field d 24 8) }

/-- Does the entry name a tally? -/
def SyCmd.tallies (c : SyCmd) : Bool := c.op = 1 || c.op = 2

/-- Step 5: the illegal fields. -/
def syIllegal (d : List Byte) : List Nat :=
  let c := syCmd d
  reservedSet d (headerReserved ++ [⟨9, 77, 3⟩, ⟨10, 87, 9⟩, ⟨14, 112, 16⟩, ⟨20, 179, 13⟩, ⟨32, 256, 256⟩]) ++
  whenBad [
    (c.op = 0 || 4 < c.op, 0), (field d 1 1 / 2 ≠ 0, 1), (c.explicit && c.op ≠ 2, 0), (c.tallies && 192 ≤ c.tally, 8),
    (c.offmod && c.op ≠ 3, 0), (c.status ≠ 0 && c.op = 3, 0), (c.status % 16 ≠ 0, 20)]

namespace State

/-- Is tally `id` of tile `t` bound to gang `g`, with a local part there (R267, R279)? -/
def tallyBound (s : State) (t id g : Nat) : Bool :=
  let n := id % 64
  match id / 64 with
  | 0 =>
    let p := SMap.look TallyNode.reset s.tally.pad (64 * paddockOf t + n)
    p.bound && p.gang = g
  | 1 =>
    let p := SMap.look TallyNode.reset s.tally.dev n
    p.bound && p.gang = g
  | 2 =>
    let c := SMap.look Crew.reset s.tally.crew n
    c.bound && c.isLocal && c.gang = g
  | _ => false

/-- Step 7 and after of a sync entry; a run takes the tally as the primary found it, bound (R405). -/
def syExtent (s : State) (t : Nat) (d : List Byte) : Check :=
  let c := syCmd d
  if c.status ≠ 0 ∧ (c.status < 0x40000 ∨ 0x44000 < c.status + 16) then some (0x07, 1, c.status)
  else if !c.tallies then none
  else if !s.inRun t && !(((s.tile t).gang.map (s.tallyBound t c.tally)).getD false) then some (0x38, c.tally, 0)
  else if (s.tile t).arrived.contains c.tally then some (0x39, c.tally, 0)
  else none

/-! ### ENQ (R110 to R113) -/

/-- Step 6: MODE for a queue's entry in a MEMORY-mode paddock (R72). -/
def enqMode (s : State) (t q : Nat) (d : List Byte) : Check :=
  let own := match q with
    | 0 => decide (field d 0 1 = 1)
    | 1 => decide (field d 0 1 = 6 ∧ (attnCmd d).src = 0)
    | 4 => true
    | _ => false
  if q = 2 then s.cpMode t d else if own && s.modeOf t = 0 then some (0x08, 0, 0) else none

/-- Steps 5 to 7 and the checks of the queue's chapter. -/
def enqEntry (s : State) (t q : Nat) (d : List Byte) : Check :=
  let bad := match q with
    | 0 => teIllegal d
    | 1 => vectorIllegal d
    | 2 => cpIllegal d
    | 3 => ctIllegal d
    | 4 => psIllegal d
    | _ => syIllegal d
  ((illegal bad).orElse fun _ => s.enqMode t q d).orElse fun _ =>
    match q with
    | 0 => teExtent d
    | 1 => vectorExtent d
    | 2 => s.cpExtent t d
    | 3 => ctExtent d
    | 4 => psExtent d
    | _ => s.syExtent t d

/-- The 64 bytes of the descriptor at crib address `a`. -/
def descAt (s : State) (t a : Nat) : List Byte := readBytes (s.tile t).crib (a - 0x40000) 64

/-- The checks of ENQ in the order of R112; `bad` says that the descriptor's read finds a parity error. -/
def enqCheck (s : State) (t q a : Nat) (bad : Bool) : Check :=
  if 5 < q then some (0x01, 0, 0)
  else if !inCrib a || a % 64 ≠ 0 then some (0x0D, 0, a)
  else if bad then some (0x06, 0, a)
  else if SMap.look false (s.tile t).cribBlight ((a - 0x40000) / 64) then some (0x0F, 0, a)
  else
    let d := s.descAt t a
    if s.fuses.grade = 3 ∧ (q < 2 ∨ (q = 4 ∧ (psCmd d).sink < 2)) then some (0x09, 0, 0)
    else s.enqEntry t q d

end State

/-- Entries a queue holds (R109). -/
def queueDepth (q : Nat) : Nat := if q = 4 then 32 else if q = 3 ∨ q = 5 then 8 else 16

/-- The incomplete entries of queue `q`. -/
def Tile.entriesOf (x : Tile) (q : Nat) : List Entry := x.queue.filter fun e => e.q = q

namespace State

/-- Place an entry in its queue, and retire the ENQ (R113, R114, R174). An ARRIVE's tally is noted for R274. -/
def issueEntry (s : State) (t : Nat) (e : Entry) : State :=
  let c := syCmd e.desc
  let s := s.onTile t fun x =>
    { x with queue := x.queue ++ [e], issued := SMap.put 0 x.issued e.q (SMap.look 0 x.issued e.q + 1),
             nextId := x.nextId + 1, dirty := true, stalledEntry := none, core := .running,
             arrived := if e.q = 5 ∧ c.op = 1 then x.arrived ++ [c.tally] else x.arrived }
  let s := s.sign t { source := e.q + 1, entry := e.id, kind := 5, blight := false, addr := 0, mask := 0, data := [] }
  (s.trace t 1 e.q e.tag.toNat e.qindex).retire t

/-- The entry that an ENQ at the tile's PC issues. -/
def newEntry (s : State) (t q a : Nat) (tag : BitVec 16) : Entry :=
  let x := s.tile t
  { id := x.nextId, q, desc := s.descAt t a, tag, pc := x.pc, qindex := SMap.look 0 x.issued q, started := false,
    performed := false, progress := 0, taken := [], index := [], asked := [], unplaced := 0, unanswered := [], got := [],
    own := none, moved := false, outs := [], acts := [], inits := none }

/-! ### Starved and left-over streams (R121, R206, R236) -/

/-- The codewords an entry has still to take from sink `k`. -/
def sinkNeed (k : Nat) (e : Entry) : Nat :=
  let all :=
    if k = 0 ∧ e.q = 0 then (teCmd e.desc).codewords
    else if k = 1 ∧ e.q = 1 ∧ field e.desc 0 1 = 6 then (attnCmd e.desc).codewords else 0
  all - e.taken.length

end State

/-- How far the entries of a tile's queues get without another command: those that complete, the codewords that each stream
entry has still to deliver and each engine entry to take, and how many each sink then holds. -/
structure Flow where
  done : List Nat
  left : List (Nat × Nat)
  buf0 : Nat
  buf1 : Nat

namespace State

/-- The codewords that an entry has still to deliver to a sink or to take from one. -/
def wordsLeft (e : Entry) : Nat :=
  if e.q = 4 then (if (psCmd e.desc).sink < 2 then (psCmd e.desc).total - e.progress else 0)
  else if e.q < 2 then sinkNeed e.q e else 0

/-- Does an entry need the lattice? -/
def needsLattice (e : Entry) : Bool :=
  (e.q = 0 && field e.desc 0 1 = 2 && (teCmd e.desc).transb) || (e.q = 2 && (cpCmd e.desc).lattice)

/-- The codewords that entry `e` has left in `f`. -/
def flowLeft (f : Flow) (e : Entry) : Nat := ((f.left.find? fun p => p.1 = e.id).map (·.2)).getD 0

/-- Does entry `e` run when the entries done in `f` are complete (R113, R195, R251)? -/
def flowRuns (x : Tile) (f : Flow) (e : Entry) : Bool :=
  let gone := fun (o : Entry) => f.done.contains o.id
  !gone e && (x.entriesOf e.q).all (fun o => e.id ≤ o.id || gone o) &&
    (e.started ||
      ((List.range 6).all (fun b => !bit (field e.desc 2 1) b || (x.entriesOf b).all fun o => e.id ≤ o.id || gone o) &&
        (!needsLattice e || x.queue.all fun o => e.id ≤ o.id || gone o || !needsLattice o)))

/-- Sink `k` moves: the engine entry that runs takes what the sink holds and what the stream entry that runs delivers, and
the stream entry fills the buffer again (R118). -/
def flowSink (x : Tile) (k : Nat) (f : Flow) : Flow :=
  let runs := x.queue.filter fun e => flowRuns x f e && 0 < flowLeft f e
  let from_ := runs.find? fun e => e.q = 4 && (psCmd e.desc).sink = k
  let to_ := runs.find? fun e => e.q = k
  let rem := (from_.map (flowLeft f)).getD 0
  let need := (to_.map (flowLeft f)).getD 0
  let buf := if k = 0 then f.buf0 else f.buf1
  let m := min need (buf + rem)
  let rem' := rem - (m - buf)
  let fill := min rem' (32 - (buf - m))
  let set := fun (o : Option Entry) (n : Nat) (l : List (Nat × Nat)) =>
    match o with
    | some e => l.map fun p => if p.1 = e.id then (p.1, n) else p
    | none => l
  let buf' := buf - m + fill
  { f with left := set from_ (rem' - fill) (set to_ (need - m) f.left), buf0 := if k = 0 then buf' else f.buf0,
           buf1 := if k = 0 then f.buf1 else buf' }

/-- One round: entries that run and have no codewords left complete, and both sinks move. -/
def flowRound (x : Tile) (f : Flow) : Flow :=
  let f := { f with done := f.done ++ (x.queue.filter fun e => flowRuns x f e && flowLeft f e = 0).map (·.id) }
  flowSink x 1 (flowSink x 0 f)

/-- Rounds until nothing moves: each but the last completes an entry, uses one up or fills a buffer. Waits for tallies, flags
and memory are taken to end. -/
def flow (x : Tile) : Flow :=
  let f : Flow := { done := [], left := x.queue.map fun e => (e.id, wordsLeft e), buf0 := x.sink0.length,
                    buf1 := x.sink1.length }
  (List.range (4 * x.queue.length + 4)).foldl (fun f _ => flowRound x f) f

/-- Does an engine wait for data of sink `k` that no queued stream entry will supply? (log 33: DEDUCED) -/
def starved (x : Tile) (k : Nat) : Bool :=
  match (x.entriesOf k).head? with
  | some e =>
    e.started && !e.performed && 0 < sinkNeed k e && (x.sink k).isEmpty && flowLeft (flow x) e = sinkNeed k e
  | none => false

/-- Is a stream entry paused on a full buffer of which no engine entry will take codewords? (log 33: DEDUCED) -/
def leftOver (x : Tile) : Bool :=
  match (x.entriesOf 4).head? with
  | some p =>
    let c := psCmd p.desc
    p.started && p.progress < c.total && c.sink < 2 && 32 ≤ (x.sink c.sink).length &&
      flowLeft (flow x) p = c.total - p.progress
  | none => false

/-- The core's waits fault on streams that will never move; where a starved engine and a paused stream are both there,
STREAM_STARVED is raised (R121, R206, R236). (log 33: DEDUCED) -/
def streamCheck (s : State) (t : Nat) : State :=
  let x := s.tile t
  let mask := match x.core with
    | .waitq m => m
    | .draining => 63
    | _ => 0
  if (bit mask 0 && starved x 0) || (bit mask 1 && starved x 1) then s.coreFault t 0x10 0 0
  else if bit mask 4 && leftOver x then s.coreFault t 0x11 0 0
  else s

/-- At COMMIT every queue has drained: codewords left in a sink fault, else the step is presented to the gate (R101,
R121). -/
def present (s : State) (t : Nat) : State :=
  let x := s.tile t
  if x.core = .draining ∧ x.queue = [] then
    if x.sink0 ≠ [] ∨ x.sink1 ≠ [] then s.coreFault t 0x11 0 0
    else s.onTile t fun x => { x with core := .atGate }
  else s

/-! ### Starting entries (R113, R195, R251) -/

/-- May this entry start: no entry of its queue is running, its DEPS are met, and it can take the lattice if it needs it? -/
def mayStart (x : Tile) (e : Entry) : Bool :=
  !((x.entriesOf e.q).any fun o => o.id < e.id) &&
    (List.range 6).all (fun b => !bit (field e.desc 2 1) b || (x.entriesOf b).all fun o => e.id ≤ o.id) &&
    (!needsLattice e || (x.lattice = none && !(x.queue.any fun o => o.id < e.id && needsLattice o)))

/-! ### What a tile's entries want of its pillar (R68, R83) -/

/-- The moves of a copy or cart entry, as far as they are known: those of an index entry are once it has been copied. -/
def movesOf (s : State) (t : Nat) (e : Entry) : List (List ByteMove) :=
  if e.q = 2 then let c := cpCmd e.desc; c.moves (s.farEnd t c)
  else if e.q = 3 then
    let c := ctCmd e.desc
    (e.index.zip (List.range e.index.length)).map fun p => c.move p.2 (s.indexEntry t c p.1)
  else []

/-- All own-pillar accesses of a stream, copy or cart entry of tile `t`, in order, and how many of them it has made (R117,
R120). -/
def ownAccesses (s : State) (t : Nat) (e : Entry) : List Nat × Nat :=
  if e.q = 4 then
    let c := psCmd e.desc
    ((List.range c.total).map fun k => (c.place k).1, e.progress)
  else
    let gs := s.movesOf t e
    let reads := (sourceLines gs).filterMap ownOff
    let writes := gs.flatMap fun g => ((g.map fun m => m.dst.line).eraseDups).filterMap ownOff
    let all := reads ++ writes
    let left :=
      if e.moved then (e.outs.filter fun o => match o with | .unit (.own _) _ _ => true | _ => false).length
      else ((e.own.map (·.length)).getD reads.length) + writes.length
    (all, all.length - left)

/-- The own-pillar offsets that a running entry of tile `t` has still to access. -/
def ownOffs (s : State) (t : Nat) (e : Entry) : List Nat :=
  if !e.started || e.performed then [] else let a := s.ownAccesses t e; a.1.drop a.2

/-- The banks of its own pillar that tile `t` needs (R68). -/
def banksNeeded (s : State) (t : Nat) : List Nat :=
  ((s.tile t).queue.flatMap (s.ownOffs t)).map fieldBank |>.eraseDups

/-- The bank in which a running entry of tile `t` stays for more than 16 accesses on end around the next one it makes (R83).
(log 41: DEDUCED) -/
def sequence (s : State) (t : Nat) (e : Entry) : Option Nat :=
  if !e.started || e.performed then none
  else
    let a := s.ownAccesses t e
    match (a.1.drop a.2).head? with
    | none => none
    | some off =>
      let same := fun o => decide (fieldBank o = fieldBank off)
      let n := ((a.1.take a.2).reverse.takeWhile same).length + ((a.1.drop a.2).takeWhile same).length
      if 16 < n then some (fieldBank off) else none

/-- The banks in which a running entry of tile `t` stays (R83). -/
def sequences (s : State) (t : Nat) : List Nat := (s.tile t).queue.filterMap (s.sequence t)

/-- Refreshes that idle banks of pillar `t` owe are issued (R82). -/
def settle (s : State) (t : Nat) : State :=
  if (s.pillar t).owed = [] then s else s.settleBanks t (s.sequences t)

/-- The running stream entry reads its codewords in order, one to each of its turns at the port, while it has room for
them (R117, R118, R120). -/
def streamReads (s : State) (t id : Nat) : Nat → State
  | 0 => s
  | n + 1 =>
    match s.entryAt t id with
    | none => s
    | some e =>
      if s.portServes t 0 then
        let c := psCmd e.desc
        let p := c.place e.progress
        let (l, s) := s.ownRead t p.1
        let s :=
          if c.sink = 2 then s.binWrite t 4 e.id p.2 l.data l.blight
          else s.onTile t fun x =>
            if c.sink = 0 then { x with sink0 := x.sink0 ++ [⟨p.1, l⟩] } else { x with sink1 := x.sink1 ++ [⟨p.1, l⟩] }
        let s := s.onEntry t id fun o =>
          { o with progress := e.progress + 1, performed := decide (c.total ≤ e.progress + 1) }
        streamReads (s.tookTurn t 0) t id n
      else s

end State

/-- ENQ (R110 to R114); a traced one waits while the trace ring has no room (R174). -/
def execEnq (t : Nat) (q : BitVec 3) (ra : BitVec 5) (tag : BitVec 16) (bad : Bool) (s : State) : Res :=
  yilac t (encodeYilac (.enq t q ra tag bad)) s fun t s =>
    let a := ((s.tile t).rd ra).toNat
    match s.enqCheck t q.toNat a bad with
    | some f => s.coreFault t f.1 f.2.1 f.2.2
    | none =>
      let e := s.newEntry t q.toNat a tag
      if s.tileBlocked t 1 then s
      else if ((s.tile t).entriesOf q.toNat).length < queueDepth q.toNat then (s.touch t a 64).issueEntry t e
      else (s.touch t a 64).onTile t fun x => { x with core := .stalled, stalledEntry := some e }

/-- ENQ_STALL_END: a place is free, and the stalled ENQ completes (R113, R130). -/
def execEnqStallEnd (t : Nat) (s : State) : Res :=
  guardUnit (isTile t) (s.asRun t fun t s =>
    match (s.tile t).stalledEntry with
    | some e =>
      if (s.tile t).core = .stalled ∧ !s.tileBlocked t 1 ∧ ((s.tile t).entriesOf e.q).length < queueDepth e.q then
        (s.countCycles t 0x50).issueEntry t e
      else s
    | none => s)

/-- Is every queue of a WAITQ mask empty? -/
def Tile.drained (x : Tile) (mask : Nat) : Bool := x.queue.all fun e => !bit mask e.q

/-- WAITQ (R99, R206, R236). -/
def execWaitq (t : Nat) (mask : BitVec 6) (s : State) : Res :=
  yilac t (encodeYilac (.waitq t mask)) s fun t s =>
    if (s.tile t).drained mask.toNat then s.retire t
    else (s.onTile t fun x => { x with core := .waitq mask.toNat }).streamCheck t

/-- WAITQ_SATISFIED: the awaited queues are empty, and the core goes on. -/
def execWaitqSatisfied (t : Nat) (s : State) : Res :=
  guardUnit (isTile t) (s.asRun t fun t s =>
    match (s.tile t).core with
    | .waitq mask =>
      if (s.tile t).drained mask then (s.onTile t fun x => { x with core := .running }).retire t else s
    | _ => s)

/-- COMMIT: past STEPS it faults STEP_LIMIT, as a fault of the core; else it waits for the queues and presents the step (R101,
R158, R170). (log 33: DEDUCED) -/
def execCommit (t : Nat) (s : State) : Res :=
  yilac t (encodeYilac (.commit t)) s fun t s =>
    let x := s.tile t
    let limit := (x.gang.bind fun g => (s.gang g).sheaf).map (·.steps)
    if (limit.map fun n => decide (n ≤ x.stepsDone)).getD false then s.coreFault t 0x4A 0 0
    else ((s.onTile t fun x => { x with core := .draining }).streamCheck t).present t

/-- HALT: it stops the core for good, or faults UNCOMMITTED (R101). The step it cuts short reaches no gate, so a check of
it ends. -/
def execHalt (t : Nat) (s : State) : Res :=
  yilac t (encodeYilac (.halt t)) s fun t s =>
    if (s.tile t).dirty then s.coreFault t 0x0B 0 0
    else ((s.countRetired t).onTile t fun x => { x with core := .halted }).dropCheck t

/-- ENTRY_START (R113, R195, R251). -/
def execEntryStart (t q : Nat) (s : State) : Res :=
  guardUnit (isTile t && isEngineQueue q) (s.asRun t fun t s =>
    match s.headEntry t q with
    | some e =>
      if !e.started && State.mayStart (s.tile t) e then
        let s := s.onTile t fun x => if State.needsLattice e then { x with lattice := some q } else x
        ((s.settle t).setEntry t { e with started := true }).streamCheck t
      else s
    | none => s)

/-- ENTRY_COMPLETE: the entry's reads and writes are performed, its barn writes accepted, its remote writes placed, and its
place is freed (R114); a traced one waits while the trace ring has no room (R174). -/
def execEntryComplete (t q : Nat) (s : State) : Res :=
  guardUnit (isTile t && isEngineQueue q) (s.asRun t fun t s =>
    match s.headEntry t q with
    | some e =>
      if e.performed ∧ e.unplaced = 0 ∧ e.unanswered = [] ∧ !s.tileBlocked t 2 then
        let s := if q = 5 then s.syncDone t else s
        let s := s.onTile t fun x =>
          { x with queue := x.queue.filter fun o => o.id ≠ e.id,
                   lattice := if State.needsLattice e then none else x.lattice }
        (((s.settle t).trace t 2 q e.tag.toNat e.qindex).streamCheck t).present t
      else s
    | none => s)

/-- PILLAR_STREAM_READ (R117, R118, R120). -/
def execPillarStreamRead (t : Nat) (env : Env) (s : State) : Res :=
  engineRow t 4 [0x01] env s fun t e s =>
    (if (psCmd e.desc).total ≤ e.progress then s.performed t e
     else s.streamReads t e.id ((s.tile t).streamRoom e)).streamCheck t

/-- STREAM_MM (R183 to R189, R202, R203). -/
def execStreamMm (t : Nat) (env : Env) (s : State) : Res :=
  engineRow t 0 [0x01] env s fun t e s => (s.runStreamMm t env e).streamCheck t

/-- ATTN (R226 to R229, R233, R236). -/
def execAttn (t : Nat) (env : Env) (s : State) : Res :=
  engineRow t 1 [0x06] env s fun t e s => (s.runAttn t env e).streamCheck t

end Sys2Proof.Machine
end

