-- ==== Sys2Proof/Machine/Tally.lean ====
section
/-! DEFINITION. Tallies and flags: the sync queue's entries, the tally tree, crew tallies, flags, and what a lost tile or
gang does to them (R266 to R291, R352). -/

namespace Sys2Proof.Machine

/-- Take out the first element that satisfies a test. -/
def takeFirst {α : Type} (f : α → Bool) : List α → Option (α × List α)
  | [] => none
  | x :: xs =>
    if f x then some (x, xs)
    else (takeFirst f xs).map fun r => (r.1, x :: r.2)

/-- Take out the first element that satisfies a test and that no earlier element of the same key precedes; `seen` are the
keys passed. -/
def takeOrdered {α β : Type} [DecidableEq β] (key : α → β) (f : α → Bool) (seen : List β) : List α → Option (α × List α)
  | [] => none
  | x :: xs =>
    if f x && !seen.contains (key x) then some (x, xs)
    else (takeOrdered key f (key x :: seen) xs).map fun r => (r.1, x :: r.2)

/-- The mesh destination and source of a message of the tree: tiles by number, paddock nodes from 5,000 up, the apex
6,000. A tile's withdrawal travels as its arrivals do. (log 53: DEDUCED) -/
def TallyMsg.path : TallyMsg → TallyPart × Nat
  | .arrival at_ _ src _ => (at_, if at_ = .apex then 5000 + src else src)
  | .release at_ _ _ => (at_, match at_ with | .leaf t => 5000 + paddockOf t | _ => 6000)
  | .withdrawal at_ _ src => (at_, if at_ = .apex then 5000 + paddockOf src else src)

/-- RESULT byte of the status word (R277). -/
def SyncResult.byte : SyncResult → Nat
  | .ok => 0
  | .participantLost => 1
  | .ownerLost => 2
  | .timeout => 3

/-- The fault code when STATUS is zero (R277, R292). -/
def SyncResult.code : SyncResult → Nat
  | .ok => 0
  | .participantLost => 0x3A
  | .ownerLost => 0x3B
  | .timeout => 0x3C

/-- The leaf copy of a tally that has not been bound. -/
def Leaf.reset : Leaf := { arrival := 0, released := 0 }

namespace State

/-! ### Parts of the tree -/

/-- Change the tally logic. -/
def onTally (s : State) (f : TallyNet → TallyNet) : State := { s with tally := f s.tally }

/-- A paddock node's part of tally `id` (scope 0 paddock tally, 1 and 2 combining parts). -/
def padNode (s : State) (p id : Nat) : TallyNode :=
  let k := 64 * p + id % 64
  match id / 64 with
  | 0 => SMap.look .reset s.tally.pad k
  | 1 => SMap.look .reset s.tally.padDev k
  | _ => SMap.look .reset s.tally.padCrew k

/-- Change a paddock node's part. -/
def onPadNode (s : State) (p id : Nat) (f : TallyNode → TallyNode) : State :=
  let k := 64 * p + id % 64
  match id / 64 with
  | 0 => s.onTally fun n => { n with pad := SMap.modify .reset n.pad k f }
  | 1 => s.onTally fun n => { n with padDev := SMap.modify .reset n.padDev k f }
  | _ => s.onTally fun n => { n with padCrew := SMap.modify .reset n.padCrew k f }

/-- The device tally `n` at the apex, and changing it. -/
def devNode (s : State) (n : Nat) : TallyNode := SMap.look .reset s.tally.dev n
def onDev (s : State) (n : Nat) (f : TallyNode → TallyNode) : State :=
  s.onTally fun x => { x with dev := SMap.modify .reset x.dev n f }

/-- Crew tally `n`, and changing it. -/
def crew (s : State) (n : Nat) : Crew := SMap.look .reset s.tally.crew n
def onCrew (s : State) (n : Nat) (f : Crew → Crew) : State :=
  s.onTally fun x => { x with crew := SMap.modify .reset x.crew n f }

/-- Flag `f`, and changing it. -/
def flag (s : State) (f : Nat) : Flag := SMap.look .reset s.tally.flags f
def onFlag (s : State) (f : Nat) (g : Flag → Flag) : State :=
  s.onTally fun x => { x with flags := SMap.modify .reset x.flags f g }

/-- Put a message of the tree on its way. -/
def sendTally (s : State) (m : TallyMsg) : State := s.onTally fun n => { n with msgs := n.msgs ++ [m] }

/-- The physical tiles of gang `g`, and those of one paddock. -/
def gangTiles (s : State) (g : Nat) : List Nat := (s.gang g).tiles.map s.ptileOf
def gangIn (s : State) (g p : Nat) : List Nat := (s.gangTiles g).filter fun t => paddockOf t = p

/-- The leaf of tile `t` for tally `id`. -/
def leaf (s : State) (t id : Nat) : Leaf := SMap.look .reset (s.tile t).leaves id
def onLeaf (s : State) (t id : Nat) (f : Leaf → Leaf) : State :=
  s.onTile t fun x => { x with leaves := SMap.modify .reset x.leaves id f }

/-! ### How a sync entry ends (R271, R273, R277, R284, R285) -/

/-- Is a release of tally `id` on its way to the leaf of tile `t`, or to its paddock node? -/
def releaseComing (s : State) (t id : Nat) : Bool :=
  s.tally.msgs.any fun m =>
    match m with
    | .release at_ i _ => i = id && (at_ = .leaf t || at_ = .node (paddockOf t))
    | _ => false

/-- Is tally `id` lost at the leaf of tile `t`: lost at its part, and no release that went before is on its way (R285,
R288)? (log 53: DEDUCED) -/
def lostAt (s : State) (t id : Nat) : Bool := (s.padNode (paddockOf t) id).lost && !s.releaseComing t id

/-- The result a sync entry has now, none while it must wait; `lost` says whether its tally is lost. -/
def syncResult (s : State) (t : Nat) (c : SyCmd) (lost : Bool) : Option SyncResult :=
  let l := s.leaf t c.tally
  match c.op with
  | 1 => if lost then some .participantLost else if l.released = l.arrival then some .ok else none
  | 2 =>
    let target := if c.explicit then c.epoch else l.arrival
    if serialGE 32 l.released.toNat target.toNat then some .ok else if lost then some .participantLost else none
  | 4 =>
    let f := s.flag c.flag
    if serialGE 64 f.value.toNat c.value.toNat then some .ok else if f.frozen then some .ownerLost else none
  | _ => some .ok

/-- The result a sync entry has now. -/
def syncOutcome (s : State) (t : Nat) (c : SyCmd) : Option SyncResult := s.syncResult t c (s.lostAt t c.tally)

/-- The status word of an entry that ends with `r` (R277). -/
def statusWord (s : State) (t : Nat) (c : SyCmd) (r : SyncResult) : List Byte :=
  leBytes 4 r.byte ++ (if c.op = 4 then zeros 4 ++ leBytes 8 (s.flag c.flag).value.toNat
    else leBytes 4 (s.leaf t c.tally).released.toNat ++ zeros 8)

/-- The record of a sync item in the signature (R404). -/
def signSync (s : State) (t : Nat) (e : Entry) (data : List Byte) : State :=
  s.sign t { source := 6, entry := e.id, kind := 4, blight := false, addr := 0, mask := 2 ^ data.length - 1,
             data := padTo 64 data }

/-- Hold an item in the commit gate (R271, R283). -/
def holdItem (s : State) (t : Nat) (i : HeldItem) : State :=
  s.onTile t fun x => { x with gate := { x.gate with held := x.gate.held ++ [i] } }

/-- How the hold says that sync entry `e` of tile `t` ended, in a replay or a run (R400, R405, R425). -/
def heldWait (s : State) (t : Nat) (e : Entry) : Option HeldWait :=
  (s.replayOf t).bind fun c => c.waits.find? fun h => h.qindex = e.qindex

/-- The result and status word of a sync entry of a sampled step go to the hold (R400). -/
def holdWait (s : State) (t : Nat) (e : Entry) (r : SyncResult) (w : List Byte) : State :=
  s.onCheck t fun c => if c.phase.replaying then c else { c with waits := c.waits ++ [⟨e.qindex, r, w⟩], extra := c.extra + 64 }

/-- A sync entry ends with result `r` and status word `w`: an ARRIVE that is OK records its arrival, the status word is
written or a result other than OK faults the tile, and the entry is performed (R271, R277). -/
def endSyncWith (s : State) (t : Nat) (e : Entry) (r : SyncResult) (word : List Byte) : State :=
  let c := syCmd e.desc
  let s :=
    if c.op = 1 ∧ r = .ok then
      let a := (s.leaf t c.tally).arrival + 1
      let s := s.onLeaf t c.tally fun l => { l with arrival := a }
      (s.holdItem t (.arrival c.tally a)).signSync t e (leBytes 1 c.tally ++ leBytes 4 a.toNat)
    else s
  let s := s.holdWait t e r word
  let done := fun (s : State) => s.setEntry t { e with performed := true }
  if c.status ≠ 0 then
    let s := s.signBytes t 6 e.id 1 c.status word false 2
    done (s.onTile t fun x => { x with crib := writeBytes x.crib (c.status - 0x40000) word })
  else if r = .ok then done s
  else s.entryFault t e r.code (if c.op = 4 then c.flag + 0x100 else c.tally) 0

/-- A sync entry ends with result `r`. -/
def endSync (s : State) (t : Nat) (e : Entry) (r : SyncResult) : State :=
  s.endSyncWith t e r (s.statusWord t (syCmd e.desc) r)

/-- Count the cycles for which a gated tile was gated (R130). -/
def countGated (s : State) (t : Nat) : State := if gated (s.tile t) then s.countCycles t 0x58 else s

/-- The waiting sync entry of tile `t`. -/
def waiter (s : State) (t : Nat) : Option Entry :=
  match s.headEntry t 5 with
  | some e => if e.started && !e.performed && e.progress = 1 then some e else none
  | none => none

/-- Wake tile `t`, in its clock domain: its waiting entry ends if it now has a result (R272, R283). -/
def wake (s : State) (t : Nat) : State :=
  s.inClock (paddockOf t)
    (match s.waiter t with
    | some e =>
      match s.syncOutcome t (syCmd e.desc) with
      | some r => (s.countGated t).endSync t e r
      | none => s
    | none => s)

/-- The clock domain of a TALLY page: TCLK of a paddock's tally node, HCLK of the device apex (R49). -/
def nodeClock (p : Nat) : Nat := if p < 16 then p else 36

/-- The clock domain of a part of the tally tree. -/
def partClock : TallyPart → Nat
  | .node p => p
  | .apex => 36
  | .leaf t => paddockOf t

/-- A release has been taken at the leaf of tile `t`: a waiter it satisfies ends OK, also when the tally has become lost
behind it; another ends now if the tally is lost (R272, R288). -/
def wakeReleased (s : State) (t id : Nat) : State :=
  match s.waiter t with
  | some e =>
    let c := syCmd e.desc
    if c.tallies && c.tally = id && s.syncResult t c false = some .ok then (s.countGated t).endSync t e .ok else s.wake t
  | none => s

/-- Wake tiles. -/
def wakeAll (s : State) (ts : List Nat) : State := foldEach ts s fun t s => s.wake t

/-- A sync row: the entry ends if it has a result, else it waits. In a replay or a run it ends as the hold says that the
primary's did; one that the hold does not have ends at once in a run (R405, R425). (log 60: DESIGN CHOICE) -/
def syncRow (s : State) (t : Nat) (e : Entry) : State :=
  match s.heldWait t e, s.syncOutcome t (syCmd e.desc) with
  | some h, _ => s.endSyncWith t e h.result h.word
  | none, some r => s.endSync t e r
  | none, none => if s.inRun t then s.endSync t e .ok else s.setEntry t { e with progress := 1 }

/-! ### Crew tallies (R286, R289 to R291, R352) -/

/-- The parts of crew tally `n` on this module become lost: counts clear and local waiters wake (R285, R286). -/
def crewLost (s : State) (n : Nat) : State :=
  let s := s.onCrew n fun c => { c with lost := true, localCount := [], rowCount := [], acreCount := [], estCount := [] }
  let s := foldEach (List.range 16) s fun p s =>
    s.onPadNode p (128 + n) fun x => if x.bound then { x with lost := true, counted := [] } else x
  let c := s.crew n
  if c.isLocal then s.wakeAll (s.gangTiles c.gang) else s

/-- A crew packet (R339). -/
def crewPkt (s : State) (op n level : Nat) (epoch : BitVec 32) (dst : Nat) : Packet :=
  { op, cls := 2, vcd := 0, zdir := 0, zset := 0, dst, src := s.node, len := 0, blight := 0,
    args := leBytes 4 epoch.toNat ++ leBytes 1 n ++ leBytes 1 level ++ leBytes 2 (s.crew n).crew, data := [] }

/-- The module that holds the part of level `l` above this module (R352). -/
def partNode (s : State) (l : Nat) : Nat :=
  if l = 1 then s.node / 32 * 32 else if l = 2 then s.node / 1024 * 1024 else 0

/-- The modules below a part of level `l` on this module. -/
def partChildren (s : State) (l : Nat) : List Nat :=
  (List.range (s.ringLen (l - 1))).map fun i => s.partNode l + i * 32 ^ (l - 1)

/-- The children counted at level `l`, and how many are expected. -/
def crewCount (c : Crew) (l : Nat) : List Nat := if l = 1 then c.rowCount else if l = 2 then c.acreCount else c.estCount
def crewExp (c : Crew) (l : Nat) : Nat := if l = 1 then c.expRow else if l = 2 then c.expAcre else c.expEst
/-- Replace the children counted at level `l`. -/
def setCrewCount (c : Crew) (l : Nat) (xs : List Nat) : Crew :=
  if l = 1 then { c with rowCount := xs } else if l = 2 then { c with acreCount := xs } else { c with estCount := xs }
/-- Lower the expected count of level `l`: the EXP field of C_CFG itself, so that a read shows the lowered count (R286).
(log 53: DEDUCED) -/
def lowerCrewExp (c : Crew) (l : Nat) : Crew :=
  if l = 1 then { c with expRow := c.expRow - 1 }
  else if l = 2 then { c with expAcre := c.expAcre - 1 } else { c with expEst := c.expEst - 1 }

/-- A release reaches the device part: it is passed to the paddock nodes of the local gang (R290). -/
def crewRelease (s : State) (n : Nat) (epoch : BitVec 32) : State :=
  let s := s.onCrew n fun c => { c with epoch, localCount := [] }
  foldEach (List.range 16) s fun p s =>
    if (s.padNode p (128 + n)).bound then s.sendTally (.release (.node p) (128 + n) epoch) else s

/-- A crew packet is taken at this module. Packets it sends to parts of this module are taken at once; `fuel` bounds how
many follow one another, which the three levels bound. -/
def takeCrew (s : State) (pkt : Packet) : Nat → State
  | 0 => s
  | fuel + 1 =>
    let send := fun (s : State) (p : Packet) =>
      match s.inject p 2 with
      | (some q, s) => takeCrew s q fuel
      | (none, s) => s
    let n := pkt.arg 12 1 % 64
    let l := pkt.arg 13 1
    let epoch := BitVec.ofNat 32 (pkt.arg 8 4)
    let c := s.crew n
    let known := c.bound && c.crew = pkt.arg 14 2
    let stray := s.log (.tally 16) .tallyStray
    match pkt.op with
    | 0x18 =>
      if !known || l = 0 || 3 < l then stray
      else if c.lost then s
      else
        let xs := crewCount c l
        let xs := if xs.contains pkt.src then xs else xs ++ [pkt.src]
        let s := s.onCrew n fun c => setCrewCount c l xs
        if xs.length < crewExp c l then s
        else if l < c.level then send s (s.crewPkt 0x18 n (l + 1) epoch (s.partNode (l + 1)))
        else
          let e := c.epoch + 1
          let s := s.onCrew n fun c => { setCrewCount c l [] with epoch := e }
          foldEach xs s fun d s => send s (s.crewPkt 0x19 n (l - 1) e d)
    | 0x19 =>
      let here := decide (pkt.src = s.node ∧ epoch = c.epoch)
      let s := if !known || !(here || epoch = c.epoch + 1) then stray else s
      let xs := crewCount c l
      if l = 0 then s.crewRelease n epoch
      else
        let s := s.onCrew n fun c => { setCrewCount c l [] with epoch }
        foldEach xs s fun d s => send s (s.crewPkt 0x19 n (l - 1) epoch d)
    | 0x1A =>
      if !known || l = 0 then s
      else
        let s := (s.onCrew n fun c => lowerCrewExp c l).crewLost n
        let s := if l < c.level then send s (s.crewPkt 0x1A n (l + 1) epoch (s.partNode (l + 1))) else s
        foldEach (s.partChildren l) s fun d s => send s (s.crewPkt 0x1B n (l - 1) epoch d)
    | 0x1B =>
      if !known then s
      else
        let s := s.crewLost n
        if l = 0 then s else foldEach (s.partChildren l) s fun d s => send s (s.crewPkt 0x1B n (l - 1) epoch d)
    | _ => s

/-- Send a crew packet from this module's device part to the row part. -/
def sendRow (s : State) (op n : Nat) (epoch : BitVec 32) : State :=
  match s.inject (s.crewPkt op n 1 epoch (s.partNode 1)) 2 with
  | (some p, s) => s.takeCrew p 10
  | (none, s) => s

/-! ### Arrivals, releases and withdrawals (R272, R275, R285) -/

/-- The paddocks that have a part of device or crew tally `id`. -/
def partsOf (s : State) (id : Nat) : List Nat := (List.range 16).filter fun p => (s.padNode p id).bound

/-- An arrival of tile or paddock `src` at a part. (log 53: DEDUCED) -/
def takeArrival (s : State) (p id src : Nat) (epoch : BitVec 32) : State :=
  let stray := s.log (.tally 16) .tallyStray
  if p < 16 then
    let x := s.padNode p id
    if !x.bound then stray
    else if x.lost then s
    else
      let counted := if x.counted.contains src then x.counted else x.counted ++ [src]
      if counted.length < x.expected then s.onPadNode p id fun x => { x with counted }
      else if id < 64 then
        let e := x.epoch + 1
        let s := s.onPadNode p id fun x => { x with counted := [], epoch := e }
        foldEach (s.gangIn x.gang p) s fun t s => s.sendTally (.release (.leaf t) id e)
      else (s.onPadNode p id fun x => { x with counted }).sendTally (.arrival .apex id p epoch)
  else if id < 128 then
    let n := id % 64
    let x := s.devNode n
    if !x.bound then stray
    else if x.lost then s
    else
      let counted := if x.counted.contains src then x.counted else x.counted ++ [src]
      let parts := s.partsOf id
      if parts.all fun q => counted.contains q then
        let e := x.epoch + 1
        let s := s.onDev n fun x => { x with counted := [], epoch := e }
        foldEach parts s fun q s => s.sendTally (.release (.node q) id e)
      else s.onDev n fun x => { x with counted }
  else
    let n := id % 64
    let x := s.crew n
    if !x.bound then stray
    else if x.lost then s
    else
      let counted := if x.localCount.contains src then x.localCount else x.localCount ++ [src]
      let s := s.onCrew n fun c => { c with localCount := counted }
      if (s.partsOf id).all fun q => counted.contains q then s.sendRow 0x18 n epoch else s

/-- A release reaches a part or a leaf, which takes its epoch, passes it on and wakes the leaf's waiter; an unbound part logs it and
passes it on all the same. (log 94: DESIGN CHOICE) -/
def takeRelease (s : State) (at_ : TallyPart) (id : Nat) (epoch : BitVec 32) : State :=
  match at_ with
  | .leaf t => (s.onLeaf t id fun l => { l with released := epoch }).wakeReleased t id
  | .node p =>
    let x := s.padNode p id
    let s := if x.bound ∧ epoch = x.epoch + 1 then s else s.log (.tally 16) .tallyStray
    let s := s.onPadNode p id fun x => { x with epoch, counted := [] }
    foldEach (s.gangIn x.gang p) s fun t s => s.sendTally (.release (.leaf t) id epoch)
  | .apex => s

/-- A withdrawal of tile `src` reaches a part: its expected count falls by one and the tally becomes lost there, its
waiters waking, but for those to which a release is on its way; at the apex it becomes lost at every part (R285, R288). -/
def takeWithdrawal (s : State) (p id src : Nat) : State :=
  let lose := fun (x : TallyNode) => { x with expected := x.expected - 1, counted := [], lost := true }
  if p < 16 then
    let x := s.padNode p id
    if !x.bound then s
    else
      let s := (s.onPadNode p id lose).wakeAll (s.gangIn x.gang p)
      if id < 64 then s else s.sendTally (.withdrawal .apex id src)
  else if id < 128 then
    let n := id % 64
    let x := s.devNode n
    if !x.bound then s
    else
      let s := s.onDev n lose
      let s := foldEach (s.partsOf id) s fun q s => s.onPadNode q id fun x => { x with counted := [], lost := true }
      s.wakeAll (s.gangTiles x.gang)
  else
    let n := id % 64
    if !(s.crew n).bound then s
    else
      let s := (s.onCrew n fun c => { c with localExpected := c.localExpected - 1 }).crewLost n
      s.sendRow 0x1A n (s.crew n).epoch

/-- The participation of physical tile `t` of gang `g` is withdrawn from every tally bound to the gang (R285). -/
def withdrawTile (s : State) (t g : Nat) : State :=
  foldEach (List.range 192) s fun id s =>
    let x := s.padNode (paddockOf t) id
    if x.bound && x.gang = g then s.sendTally (.withdrawal (.node (paddockOf t)) id t) else s

/-! ### Binding (R268, R269, R289) -/

/-- Give the leaf of every tile the tally's epoch as both its epochs (R268). -/
def bindLeaves (s : State) (ts : List Nat) (id : Nat) (epoch : BitVec 32) : State :=
  foldEach ts s fun t s => s.onLeaf t id fun _ => { arrival := epoch, released := epoch }

/-- Bind the combining parts of device or crew tally `id` for gang `g`. -/
def bindParts (s : State) (id g : Nat) (epoch : BitVec 32) : State :=
  foldEach (List.range 16) s fun p s =>
    let ts := s.gangIn g p
    if ts = [] then s
    else s.onPadNode p id fun _ => { bound := true, gang := g, lost := false, expected := ts.length, counted := [], epoch }

/-- Unbind a part; its epoch and gang field stay. -/
def unbound (x : TallyNode) : TallyNode := { x with bound := false, lost := false, expected := 0, counted := [] }

/-- Is an entry of a tally of gang `g` waiting, or has an arrival been counted (R269)? -/
def tallyBusy (s : State) (ps : List Nat) (id g : Nat) : Bool :=
  (ps.any fun p => (s.padNode p id).counted ≠ []) ||
    (ps.any fun p => (s.gangIn g p).any fun t =>
      match s.waiter t with
      | some e => (syCmd e.desc).tallies && (syCmd e.desc).tally = id
      | none => false)

/-- A write of `T_CFG` `n` on TALLY page `p` (R268, R269). (log 53: DEDUCED) -/
def writeTCfg (s : State) (p n v : Nat) : State :=
  let g := v % 256
  let live := (s.gang g).live
  let cfg := s.log (.tally p) .tallyConfig
  if p < 16 then
    let x := s.padNode p n
    if bit v 8 then
      if x.bound then cfg
      else
        let ts := s.gangIn g p
        if live ∧ ts ≠ [] then
          (s.onPadNode p n fun x => { x with bound := true, gang := g, lost := false, expected := ts.length, counted := [] }).bindLeaves
            ts n x.epoch
        else cfg.onPadNode p n fun x => { x with gang := g }
    else if x.bound then
      if s.tallyBusy [p] n x.gang then s.log (.tally p) .tallyBusy else s.onPadNode p n unbound
    else s.onPadNode p n fun x => { x with gang := g }
  else
    let x := s.devNode n
    let id := 64 + n
    if bit v 8 then
      if x.bound then cfg
      else if live then
        let ts := s.gangTiles g
        let s := s.onDev n fun x => { x with bound := true, gang := g, lost := false, expected := ts.length, counted := [] }
        (s.bindParts id g x.epoch).bindLeaves ts id x.epoch
      else cfg.onDev n fun x => { x with gang := g }
    else if x.bound then
      if x.counted ≠ [] || s.tallyBusy (List.range 16) id x.gang then s.log (.tally p) .tallyBusy
      else foldEach (s.partsOf id) (s.onDev n unbound) fun q s => s.onPadNode q id unbound
    else s.onDev n fun x => { x with gang := g }

/-- May a crew tally with these fields be bound here (R289)? -/
def crewOk (s : State) (c : Crew) : Bool :=
  let x := s.node % 32
  let y := s.node / 32 % 32
  let z := s.node / 1024
  let fits := fun (e d : Nat) => e ≠ 0 && e ≤ s.ringLen d
  c.level ≠ 0 && (List.range c.level).all s.coordValid &&
    (!c.isLocal || ((s.gang c.gang).live && (s.gang c.gang).crew = c.crew)) &&
    (x ≠ 0 || fits c.expRow 0) && (!(x = 0 && y = 0 && 2 ≤ c.level) || fits c.expAcre 1) &&
    (!(x = 0 && y = 0 && z = 0 && c.level = 3) || fits c.expEst 2)

/-- A write of `C_CFG` `n` (R269, R289). -/
def writeCCfg (s : State) (n v : Nat) : State :=
  let c := s.crew n
  let id := 128 + n
  let busy := c.localCount ≠ [] || c.rowCount ≠ [] || c.acreCount ≠ [] || c.estCount ≠ [] ||
    (c.isLocal && s.tallyBusy (List.range 16) id c.gang)
  if c.bound then
    if bit v 27 then s.log (.tally 16) .tallyConfig
    else if busy then s.log (.tally 16) .tallyBusy
    else foldEach (s.partsOf id) (s.onCrew n fun c => { c with bound := false, lost := false }) fun q s => s.onPadNode q id unbound
  else
    let c : Crew :=
      { c with crew := v % 2 ^ 16, gang := bits v 23 16, isLocal := bit v 24, level := bits v 26 25,
               expRow := bits v 37 32, expAcre := bits v 45 40, expEst := bits v 53 48 }
    let s := s.onCrew n fun _ => c
    if !bit v 27 then s
    else if !s.crewOk c then s.log (.tally 16) .tallyConfig
    else
      let ts := if c.isLocal then s.gangTiles c.gang else []
      let s := s.onCrew n fun c =>
        { c with bound := true, lost := false, localExpected := ts.length, localCount := [], rowCount := [],
                 acreCount := [], estCount := [] }
      if c.isLocal then (s.bindParts id c.gang c.epoch).bindLeaves ts id c.epoch else s

/-! ### Flags (R282 to R284, R287) -/

/-- Wake every tile that waits on flag `f`. -/
def wakeFlag (s : State) (f : Nat) : State :=
  let ts := (s.tiles.map (·.1)).filter fun t =>
    match s.waiter t with
    | some e => (syCmd e.desc).op = 4 && (syCmd e.desc).flag = f
    | none => false
  s.wakeAll ts

/-- Flag memory takes an update from a tile of a gang and crew; one that left its gate before the flag froze and comes
after is discarded (R282, R283, R288). (log 53: DEDUCED) -/
def takeFlagAdd (s : State) (m : FlagMsg) : State :=
  let f := s.flag m.f
  let owner := match f.kind with
    | 1 => decide (m.gang = some f.ownerId)
    | 2 => decide (m.crew = f.ownerId)
    | _ => false
  if owner && !f.frozen then (s.onFlag m.f fun f => { f with value := f.value + m.v }).wakeFlag m.f
  else s.log (.tally 16) .flagStray

/-- A host write of `FLAG` `f` (R282). -/
def writeFlag (s : State) (f : Nat) (v : BitVec 64) : State :=
  let x := s.flag f
  if (x.kind = 0 ∨ x.kind = 3) ∧ !x.frozen then (s.onFlag f fun x => { x with value := v }).wakeFlag f
  else s.log (.tally 16) .flagStray

/-- A host write of `FLAG_OWNER` `f`: any write clears FROZEN. -/
def writeFlagOwner (s : State) (f v : Nat) : State :=
  s.onFlag f fun x => { x with ownerId := v % 2 ^ 16, kind := bits v 17 16, frozen := false }

/-- Gang `g` ends (R269, R284, R286, R287): its paddock and device tallies are unbound; a crew tally whose LOCAL gang it
is sends a withdrawal and loses LOCAL; on a reset its flags freeze, on a dissolve they return to the host, unfrozen. -/
def gangGone (s : State) (g : Nat) (reset : Bool) : State :=
  let crewOf := (s.gang g).crew
  let s := foldEach (List.range 64) s fun n s =>
    let s := foldEach (List.range 16) s fun p s =>
      let x := s.padNode p n
      if x.bound && x.gang = g then s.onPadNode p n unbound else s
    let d := s.devNode n
    let s :=
      if d.bound && d.gang = g then
        foldEach (s.partsOf (64 + n)) (s.onDev n unbound) fun q s => s.onPadNode q (64 + n) unbound
      else s
    let c := s.crew n
    if c.bound && c.isLocal && c.gang = g then
      let s := s.onCrew n fun c => { c with isLocal := false, localCount := [], localExpected := 0 }
      let s := foldEach (s.partsOf (128 + n)) s fun q s => s.onPadNode q (128 + n) unbound
      s.sendRow 0x1A n (s.crew n).epoch
    else s
  foldEach (List.range 128) s fun f s =>
    let x := s.flag f
    if x.kind = 1 ∧ x.ownerId = g then
      if reset then (s.onFlag f fun x => { x with frozen := true }).wakeFlag f
      else s.onFlag f fun x => { x with kind := 0, ownerId := 0, frozen := false }
    else if reset ∧ x.kind = 2 ∧ x.ownerId = crewOf then (s.onFlag f fun x => { x with frozen := true }).wakeFlag f
    else s

end State

/-! ### Rows -/

/-- ARRIVE (R271). -/
def execArrive (t : Nat) (s : State) : Res := engineRow t 5 [0x01] Env.none s fun t e s => s.syncRow t e

/-- WAIT_TALLY (R273). -/
def execWaitTally (t : Nat) (s : State) : Res := engineRow t 5 [0x02] Env.none s fun t e s => s.syncRow t e

/-- FLAG_ADD: it is recorded in the gate and completes at once; a VALUE of zero updates nothing (R279, R283). -/
def execFlagAdd (t : Nat) (s : State) : Res :=
  engineRow t 5 [0x03] Env.none s fun t e s =>
    let c := syCmd e.desc
    let node := if c.offmod ∧ c.node ≠ s.node then some c.node else none
    let s :=
      if c.value = 0 then s
      else (s.holdItem t (.flagAdd c.flag c.value node)).signSync t e (leBytes 2 c.flag ++ leBytes 8 c.value.toNat)
    s.setEntry t { e with performed := true }

/-- FLAG_WAIT (R284, R287). -/
def execFlagWait (t : Nat) (s : State) : Res := engineRow t 5 [0x04] Env.none s fun t e s => s.syncRow t e

/-- SYNC_TIMEOUT: the waiting entry's limit, if it has one, is reached (R278). -/
def execSyncTimeout (t : Nat) (s : State) : Res :=
  guardUnit (isTile t) (s.asRun t fun t s =>
    match s.waiter t with
    | some e => if (syCmd e.desc).timeout = 0 then s else (s.countGated t).endSync t e .timeout
    | none => s)

namespace State

/-- Is this message an arrival at the part of page `p` (a paddock, 16 the apex) for tally `id`? -/
def isArrival (p id : Nat) : TallyMsg → Bool
  | .arrival at_ i _ _ => i = id && at_ = (if p < 16 then .node p else .apex)
  | _ => false
/-- Is it a release to a part or leaf? -/
def isRelease (at_ : TallyPart) (id : Nat) : TallyMsg → Bool
  | .release a i _ => i = id && a = at_
  | _ => false
/-- Is it a withdrawal? -/
def isWithdrawal (p id : Nat) : TallyMsg → Bool
  | .withdrawal at_ i _ => i = id && at_ = (if p < 16 then .node p else .apex)
  | _ => false

end State

/-- TALLY_ARRIVAL: the oldest arrival on its way to the part that none of its own source precedes is counted (R23, R272,
R275). -/
def execTallyArrival (p : Nat) (id : BitVec 8) (s : State) : Res :=
  guardUnit (isTallyPage p)
    (s.inClock (State.nodeClock p) (match takeOrdered TallyMsg.path (State.isArrival p id.toNat) [] s.tally.msgs with
    | some (.arrival _ i src e, rest) => (s.onTally fun n => { n with msgs := rest }).takeArrival p i src e
    | _ => s))

/-- TALLY_RELEASE (R272). -/
def execTallyRelease (p : TallyPart) (id : BitVec 8) (s : State) : Res :=
  guardUnit (isTallyPart p)
    (s.inClock (State.partClock p) (match takeOrdered TallyMsg.path (State.isRelease p id.toNat) [] s.tally.msgs with
    | some (.release at_ i e, rest) => (s.onTally fun n => { n with msgs := rest }).takeRelease at_ i e
    | _ => s))

/-- TALLY_WITHDRAWAL (R285). -/
def execTallyWithdrawal (p : Nat) (id : BitVec 8) (s : State) : Res :=
  guardUnit (isTallyPage p)
    (s.inClock (State.nodeClock p) (match takeOrdered TallyMsg.path (State.isWithdrawal p id.toNat) [] s.tally.msgs with
    | some (.withdrawal _ i src, rest) => (s.onTally fun n => { n with msgs := rest }).takeWithdrawal p i src
    | _ => s))

/-- FLAG_UPDATE: flag memory takes the oldest update on its way to the flag that none of its own source precedes (R23,
R282, R283). -/
def execFlagUpdate (f : Nat) (s : State) : Res :=
  guardUnit (f < 128)
    (s.inClock 36 (match takeOrdered FlagMsg.src (fun m => decide (m.f = f)) [] s.tally.flagMsgs with
    | some (m, rest) => (s.onTally fun n => { n with flagMsgs := rest }).takeFlagAdd m
    | none => s))

end Sys2Proof.Machine
end

