-- ==== Sys2Proof/Machine/Gate.lean ====
section
/-! DEFINITION. The commit gate and the staging areas: releasing a step, staging, applying and discarding remote writes,
and the draw of tithe epochs at a step's start (R39 to R42, R252 to R255, R349, R350, R397). -/

namespace Sys2Proof.Machine

/-! ### The tithe draw (R397) -/

/-- The 64-bit value z of R397. -/
def titheZ (seed : BitVec 64) (g : Nat) (epoch : BitVec 32) : BitVec 64 :=
  let z := seed ^^^ (BitVec.ofNat 64 g <<< 32) ^^^ epoch.zeroExtend 64
  let z := (z ^^^ (z >>> 30)) * 0xBF58476D1CE4E5B9
  let z := (z ^^^ (z >>> 27)) * 0x94D049BB133111EB
  z ^^^ (z >>> 31)

/-- The modulus q of a tithe code. -/
def titheQ (code : Nat) : Nat :=
  match code with
  | 1 => 63
  | 2 => 15
  | 3 => 3
  | _ => 1

/-- Is step epoch `epoch` of gang `g` a tithe epoch? -/
def titheEpoch (code : Nat) (seed : BitVec 64) (g : Nat) (epoch : BitVec 32) : Bool :=
  1 ≤ code && code ≤ 4 && (titheZ seed g epoch).toNat % 2 ^ 32 % titheQ code = 0

namespace State

/-- Is a repeat of physical tile `t` for a strike still to be made, or under way (R414)? -/
def repeating (s : State) (t : Nat) : Bool :=
  s.tithe.steps.any fun p => decide (p.2.phase = .repeats) && (p.1 = t || p.2.repeats.contains t)

/-- Tile `t` starts a step: in a tithe epoch it is a primary that asks for a place (R397, R399). -/
def startStep (s : State) (t : Nat) : State :=
  let x := s.tile t
  match x.gang with
  | some g =>
    let G := s.gang g
    let steps := s.tithe.steps.filter fun p => p.1 ≠ t
    let s : State := { s with tithe := { s.tithe with steps } }
    if s.getF 0x3040 0 0 = 1 ∧ titheEpoch G.tithe G.seed g x.epoch then
      { s with tithe := { s.tithe with steps := steps ++ [(t, TitheStep.begin x)] } }
    else s
  | none => s

/-- Is the step of tile `t` sampled and without a verdict (R39)? -/
def sampled (s : State) (t : Nat) : Bool := s.tithe.steps.any fun p => p.1 = t && !p.2.dropped

/-- Does tile `t` make a run for another tile's step, whose COMMIT opens no gate (R405)? -/
def placeRuns (s : State) (t : Nat) : Bool := ((s.runAt t).map fun r => decide (r.1 ≠ t)).getD false

/-! ### Opening the gate (R39, R253) -/

/-- Send one held item of a step of tile `t`, of gang `gang` and crew `crew` (R271, R283, R352). -/
def sendHeld (t : Nat) (gang : Option Nat) (crew : Nat) (i : HeldItem) (s : State) : State :=
  match i with
  | .arrival id e => s.sendTally (.arrival (.node (paddockOf t)) id t e)
  | .flagAdd f v none => s.onTally fun n => { n with flagMsgs := n.flagMsgs ++ [{ src := .tile t, f, v, gang, crew }] }
  | .flagAdd f v (some node) =>
    (s.inject { op := 0x1C, cls := 2, vcd := 0, zdir := 0, zset := 0, dst := node, src := s.node, len := 8, blight := 0,
                args := leBytes 1 f ++ zeros 5 ++ leBytes 2 crew, data := leBytes 8 v.toNat } 2).2

/-- Does a live change past its start stop the gangs of paddock `p`, or that of physical tile `t` (R453)? -/
def upkeepHolds (s : State) (t : Nat) : Bool :=
  match s.st.upkeep with
  | some u =>
    let active := match u.phase with | .queued => false | .ended _ => false | _ => true
    active && ((u.op = 6 && u.arg % 16 = paddockOf t) || (u.op = 2 && s.ptileOf (u.arg % 4096) = t))
  | none => false

/-- Does the fence in progress stop the gang of tile `t` (R416)? -/
def fenceHolds (s : State) (t : Nat) : Bool :=
  match s.fence.queue with
  | j :: _ => j.stopping && j.pt = t
  | [] => false

/-- Is gang `g` stopped at step boundaries: by a live change, a sweep or a fence, or by the quiesce of a paddock that has
one of its tiles (R37, R416, R420, R453, R467)? -/
def heldGang (s : State) (g : Nat) : Bool :=
  (s.gangTiles g).any fun t =>
    s.getF ((Page.paddock (paddockOf t)).base + 0xC) 1 1 = 1 || s.st.sweep = some (paddockOf t) || s.upkeepHolds t ||
      s.fenceHolds t

/-- Does something hold tile `t` at the step boundary: its gang is stopped there, or a repeat of the tile must end first (R37,
R414)? -/
def heldTile (s : State) (t : Nat) : Bool := (((s.tile t).gang.map s.heldGang).getD false) || s.repeating t

/-- A running tile begins its next step, or stops at the step boundary, where it shows the state of a core at the gate (R37,
R42, R136, R397). (log 21: DESIGN CHOICE) -/
def beginStep (s : State) (t : Nat) : State :=
  if (s.tile t).core ≠ .running then s
  else if s.heldTile t then
    s.onTile t fun x => { x with core := .atGate, gate := { x.gate with phase := .boundary } }
  else s.startStep t

/-- A tile stopped at a step boundary goes on once nothing holds it. -/
def leaveBoundary (s : State) (t : Nat) : State :=
  let x := s.tile t
  if x.core = .atGate ∧ x.gate.phase = .boundary ∧ !s.heldTile t then
    (s.onTile t fun x => { x with core := .running, gate := { x.gate with phase := .closed } }).startStep t
  else s

/-- Every acknowledgement is in: the held items are sent in issue order, the step epoch advances, and the next step may
start (R39, R42, R158, R253). A tile that has been stopped meanwhile stays so: its release was handled first, so the step
stands and the abort applies to the step that follows (R41). (log 88: DEDUCED) -/
def gateFinish (s : State) (t : Nat) : State :=
  let x := s.tile t
  let crew := (x.gang.map fun g => (s.gang g).crew).getD 0
  let s := foldEach x.gate.held s (sendHeld t x.gang crew)
  let runs := decide (x.core = .atGate)
  let s := s.onTile t fun x =>
    { x with epoch := x.epoch + 1, stepsDone := x.stepsDone + 1, dirty := false, issued := [], arrived := [],
             core := if runs then .running else x.core,
             gate := { phase := .closed, held := [], receivers := [], awaiting := [] } }
  if runs then (s.retire t).beginStep t else s

/-- The gate opens: the release is traced, and commit messages go to every receiver of the step (R39, R175, R253). (log 54:
DEDUCED) -/
def gateOpen (s : State) (t : Nat) : State :=
  let s := s.trace t 4 0xFF 0 0
  let x := s.tile t
  let rs := x.gate.receivers
  let s := foldEach rs s (sendCommit t x.epoch false)
  let s := s.onTile t fun x => { x with gate := { x.gate with phase := .acking, awaiting := rs } }
  if rs = [] then s.gateFinish t else s

/-- The release that an acknowledgement of receiver `r` belongs to: the oldest kept by a reset of the tile that awaits it, of
step `epoch` where the acknowledgement names one. -/
def keptRelease (x : Tile) (r : Receiver) (epoch : Option (BitVec 32)) : Option Release :=
  x.released.find? fun k => k.awaiting.contains r && (epoch = none || epoch = some k.epoch)

/-- The gate of tile `t` takes the acknowledgement of a receiver: for a release that a reset has left, and otherwise for that
of its own step; the last one sends what was held (R41, R253, R350). -/
def gateAck (s : State) (t : Nat) (r : Receiver) (epoch : Option (BitVec 32)) : State :=
  let x := s.tile t
  match keptRelease x r epoch with
  | some k =>
    let k' := { k with awaiting := k.awaiting.erase r }
    if k'.awaiting = [] then
      foldEach k.held (s.onTile t fun x => { x with released := x.released.erase k }) (sendHeld t k.gang k.crew)
    else s.onTile t fun x => { x with released := x.released.replace k k' }
  | none =>
    if x.gate.phase = .acking ∧ x.gate.awaiting.contains r ∧ (epoch = none ∨ epoch = some x.epoch) then
      let left := x.gate.awaiting.erase r
      let s := s.onTile t fun x => { x with gate := { x.gate with awaiting := left } }
      if left = [] then s.gateFinish t else s
    else s

end State

/-! ### Receivers (R252 to R255, R349) -/

/-- The staging area of a receiver and what is on its way to it. -/
structure RecvState where
  staging : List StageLine
  inflight : List StageLine
  stageWait : List StageLine
  commits : List CommitMsg
  applying : List (CommitMsg × Nat)

/-- The sender that a number names: a tile of this module, or tile `n mod 8192` of the module at node `n / 8192 - 1`. -/
def senderOf (n : Nat) : Sender := if n < 8192 then .tile n else .remote (n / 8192 - 1) (n % 8192)

/-- Lines that a staging area holds (R252, R349). -/
def stageRoom (t : Nat) : Nat := if t < 4352 then 1024 else 16384

/-- The line of a destination. -/
def LineDest.line : LineDest → LineDest
  | .bin a => .bin (a / 64 * 64)
  | .pillar o => .pillar (o / 64 * 64)
  | .barn d => .barn (d / 64 * 64)

/-- Does a line belong to this sender and step: the whole epoch for a tile of this module, the ETAG for another (R253,
R350)? -/
def StageLine.ofStep (l : StageLine) (src : Sender) (epoch : BitVec 32) : Bool :=
  l.src = src &&
    match src with
    | .tile _ => l.epoch = epoch
    | .remote _ _ => l.epoch.toNat % 256 = epoch.toNat % 256

/-- Do two lines share one staged line (R255)? -/
def StageLine.shares (a b : StageLine) : Bool := a.dest.line = b.dest.line && a.ofStep b.src b.epoch

/-- A line over one staged before: later bytes replace earlier ones, and a whole line replaces the mark too (R33, R255). -/
def StageLine.over (o l : StageLine) : StageLine :=
  { o with
    mask := o.mask ||| l.mask
    line := ⟨mergeBytes (bit l.mask) o.line.data l.line.data,
             if l.mask = 2 ^ 64 - 1 then l.line.blight else o.line.blight || l.line.blight⟩ }

/-- Merge a line into the staged lines. (log 31: DEDUCED) -/
def stageInto (l : StageLine) : List StageLine → List StageLine
  | [] => [l]
  | o :: os => if o.shares l then o.over l :: os else o :: stageInto l os

namespace State

/-- A receiver of this module: a tile, or 4,352 for barn staging. -/
def recv (s : State) (t : Nat) : RecvState :=
  if t < 4352 then
    let x := s.tile t
    ⟨x.staging, x.inflight, x.stageWait, x.commits, x.applying⟩
  else ⟨s.ridge.staging, s.ridge.inflight, s.ridge.stageWait, s.ridge.commits, s.ridge.applying⟩

/-- Replace a receiver's staging state. -/
def setRecv (s : State) (t : Nat) (r : RecvState) : State :=
  if t < 4352 then
    s.onTile t fun x =>
      { x with staging := r.staging, inflight := r.inflight, stageWait := r.stageWait, commits := r.commits,
               applying := r.applying }
  else
    { s with ridge :=
      { s.ridge with staging := r.staging, inflight := r.inflight, stageWait := r.stageWait, commits := r.commits,
                     applying := r.applying } }

/-- Is there room for a line at a receiver (R255)? (log 31: DEDUCED) -/
def stageFits (s : State) (t : Nat) (l : StageLine) : Bool :=
  let st := (s.recv t).staging
  st.any (fun o => o.shares l) || st.length < stageRoom t

/-- Record the number of lines a staging area holds, for its PEAK field (R265, R366). A PEAK cleared by host software reads
zero until the next line is placed. (log 12: DESIGN CHOICE) -/
def stagePeak (s : State) (t : Nat) : State :=
  let n := (s.recv t).staging.length
  if t < 4352 then s.peakF ((Page.tile t).base + 0x98) 26 16 n else s.peakF 0x4811C 30 16 n

/-- A line has been placed: a sender of this module counts it (R114); another is answered with a WACK once the last line
of its packet, which carries `q = 1`, is placed (R348). -/
def placed (s : State) (l : StageLine) : State :=
  match l.src with
  | .tile u =>
    match s.headEntry u l.q with
    | some e => s.setEntry u { e with unplaced := e.unplaced - 1 }
    | none => s
  | .remote node tile =>
    if l.q = 1 then
      (s.inject { op := 0x04, cls := 1, vcd := 0, zdir := 0, zset := 0, dst := node, src := s.node, len := 0, blight := 0,
                  args := zeros 5 ++ leBytes 2 tile ++ leBytes 1 (l.epoch.toNat % 256), data := [] } 2).2
    else s

/-- Place a line in a receiver's staging area. -/
def placeLine (s : State) (t : Nat) (l : StageLine) : State :=
  let r := s.recv t
  ((s.setRecv t { r with staging := stageInto l r.staging }).stagePeak t).placed l

/-- A line arrives at a receiver: it is placed, or waits for room behind those that wait already (R252, R255). -/
def stageArrive (s : State) (t : Nat) (l : StageLine) : State :=
  let r := s.recv t
  if r.stageWait = [] && s.stageFits t l then s.placeLine t l
  else s.setRecv t { r with stageWait := r.stageWait ++ [l] }

/-- Apply one staged line of message `m` to the bin of receiver `t` (R125, R253). -/
def applyBin (t : Nat) (env : Env) (l : StageLine) (s : State) : State :=
  match l.dest with
  | .bin a =>
    (s.logApplied t l.dest l.mask l.line).binLine t env a l.mask l.line.data l.line.blight
  | _ => s

/-- The write of a staged line of message `m` to a pillar, through its host and mesh queue, or to barn memory, through the
ridge lane (R77, R253, R349). -/
def applyReq (s : State) (t : Nat) (m : CommitMsg) (l : StageLine) : Option MemReq :=
  let op := lineWrite l.line.data l.mask l.line.blight
  match l.dest with
  | .bin _ => none
  | .pillar off => (s.ltileOf t).map fun k => meshReq (.staged t m) op (k * 2 ^ 25 + off)
  | .barn d => some (meshReq (.staged t m) op d)

/-- The name by which a sender of this module knows a receiver. -/
def recvName (t : Nat) : Receiver := if t < 4352 then .tile t else .barn

/-- Acknowledge a commit message, or an abort message of another module; an abort of this module needs no
acknowledgement (R253, R350). -/
def acknowledge (s : State) (t : Nat) (m : CommitMsg) : State :=
  match m.src with
  | .tile u => if m.abort then s else s.onTile u fun x => { x with acks := x.acks ++ [recvName t] }
  | .remote node tile =>
    let recv := if t < 4352 then (s.ltileOf t).getD 0 else 4096
    (s.inject { op := 0x12, cls := 2, vcd := 0, zdir := 0, zset := 0, dst := node, src := s.node, len := 0, blight := 0,
                args := commitArgs m.epoch recv tile, data := [] } 2).2

/-- A receiver handles a commit or abort message: it applies or discards the step's lines, those that still wait for room
among the discarded, and acknowledges once every line is written. Lines that are applied leave the staging area, and free
their room, when the message is handled. (log 31: DEDUCED) -/
def takeCommit (s : State) (t : Nat) (env : Env) (m : CommitMsg) : State :=
  let r := s.recv t
  let mine := r.staging.filter fun l => l.ofStep m.src m.epoch
  let rest := r.staging.filter fun l => !l.ofStep m.src m.epoch
  if m.abort then
    let drop := fun (ls : List StageLine) => ls.filter fun l => !l.ofStep m.src m.epoch
    let s := s.setRecv t { r with staging := rest, inflight := drop r.inflight, stageWait := drop r.stageWait }
    (s.acknowledge t m).drainHosts
  else
    let s := s.setRecv t { r with staging := rest }
    let s := foldEach mine s (applyBin t env)
    let reqs := mine.filterMap (s.applyReq t m)
    if reqs = [] then s.acknowledge t m
    else
      let r := s.recv t
      (s.setRecv t { r with applying := r.applying ++ [(m, reqs.length)] }).sendMesh reqs

/-- A line of message `m` has been written; the last one lets receiver `t` acknowledge (R253). -/
def lineApplied (s : State) (t : Nat) (m : CommitMsg) : State :=
  let r := s.recv t
  match r.applying.find? fun a => a.1 = m with
  | none => s
  | some (_, n) =>
    if n ≤ 1 then (s.setRecv t { r with applying := r.applying.filter fun a => a.1 ≠ m }).acknowledge t m
    else s.setRecv t { r with applying := r.applying.map fun a => if a.1 = m then (m, n - 1) else a }

/-- The oldest message of a sender at a receiver is handled, if it is a commit (`abort` false) or an abort: messages from
one source come in the order they were sent (R23). -/
def commitRow (s : State) (t src : Nat) (abort : Bool) (env : Env) : State :=
  let r := s.recv t
  match takeFirst (fun m => decide (m.src = senderOf src)) r.commits with
  | some (m, rest) =>
    if m.abort = abort then ((s.setRecv t { r with commits := rest }).upset env).takeCommit t env m else s
  | none => s

/-- The clock domain of a receiver: TCLK of a tile's paddock, LCLK of the barn staging area (R49, R349). -/
def recvClock (t : Nat) : Nat := if t < 4352 then paddockOf t else 37

end State

/-! ### Rows -/

/-- GATE_RELEASE: the step presented at the gate is released, unless a sampled step still waits for its verdict (R39). A
gate whose gang was held at the step boundary lets the next step start once the hold is lifted (R37, R42). A traced release
waits while the trace ring has no room (R174). -/
def execGateRelease (t : Nat) (s : State) : Res :=
  guardUnit (isTile t)
    (s.inClock (paddockOf t) (let x := s.tile t
     match x.core, x.gate.phase with
     | .atGate, .closed => if s.sampled t || s.placeRuns t || s.tileBlocked t 4 then s else s.gateOpen t
     | .atGate, .boundary => s.leaveBoundary t
     | _, _ => s))

/-- GATE_ABORT (R41, R253). -/
def execGateAbort (t : Nat) (s : State) : Res := guardUnit (isTile t) (s.inClock (paddockOf t) (if s.placeRuns t then s else s.gateAbort t))

/-- REMOTE_WRITE_STAGE: the oldest line of sender `src` on its way to receiver `t` arrives (R252, R255). -/
def execRemoteWriteStage (t src : Nat) (s : State) : Res :=
  guardUnit (isReceiver t)
    (s.inClock (State.recvClock t) (let r := s.recv t
     match takeFirst (fun l => decide (l.src = senderOf src)) r.inflight with
     | some (l, rest) => (s.setRecv t { r with inflight := rest }).stageArrive t l
     | none => s))

/-- STAGE_ROOM_FREE: the line that has waited longest is placed when there is room for it; its sender counts the cycles
(R255, R265). -/
def execStageRoomFree (t : Nat) (s : State) : Res :=
  guardUnit (isReceiver t)
    (s.inClock (State.recvClock t) (let r := s.recv t
     match r.stageWait with
     | l :: rest =>
       if s.stageFits t l then
         let s := match l.src with
           | .tile u => s.countCycles u 0x90
           | .remote _ _ => s
         ((s.setRecv t { r with stageWait := rest }).placeLine t l).drainHosts
       else s
     | [] => s))

/-- STAGE_FULL: a line of sender `src` has waited 2^20 TCLK, and the entry that sent it faults (R255). (log 32:
DEDUCED) -/
def execStageFull (t src : Nat) (s : State) : Res :=
  guardUnit (isReceiver t)
    (s.inClock (State.recvClock t) (match senderOf src with
    | .tile u =>
      match (s.recv t).stageWait.find? fun l => decide (l.src = .tile u) with
      | some l =>
        match s.headEntry u l.q with
        | some e => s.entryFault u e 0x31 ((s.ltileOf t).getD 0xFFFF) 0
        | none => s
      | none => s
    | .remote _ _ => s))

/-- STAGE_COMMIT (R253, R349, R350). -/
def execStageCommit (t src : Nat) (env : Env) (s : State) : Res :=
  guardUnit (isReceiver t) (s.inClock (State.recvClock t) (s.commitRow t src false env))

/-- STAGE_ABORT (R253, R350). -/
def execStageAbort (t src : Nat) (s : State) : Res :=
  guardUnit (isReceiver t) (s.inClock (State.recvClock t) (s.commitRow t src true Env.none))

/-- STAGE_ACK: the acknowledgement of receiver `src` reaches the gate of tile `t` (R253). -/
def execStageAck (t src : Nat) (s : State) : Res :=
  guardUnit (isTile t)
    (s.inClock (paddockOf t) (let x := s.tile t
     let r := State.recvName src
     if x.acks.contains r then (s.onTile t fun x => { x with acks := x.acks.erase r }).gateAck t r none else s))

end Sys2Proof.Machine
end

