-- ==== Sys2Proof/Machine/Sheaf.lean ====
section
/-! DEFINITION. Sheaves, queues and gangs: taking and checking a sheaf, forming and starting a gang, completion, gang and
tile resets, granary snapshots, and the doorbell, dispatch and trace rings (R27 to R29, R134, R137 to R175, R427, R428,
R475). -/

namespace Sys2Proof.Machine

/-! ### The sheaf (R145) -/

/-- A sheaf as read. -/
structure SheafCmd where
  format : Nat
  gang : Nat
  form : Bool
  dissolve : Bool
  trace : Bool
  ordered : Bool
  checkpoint : Bool
  tithe : Nat
  imageLen : Nat
  nranges : Nat
  image : Nat
  tilemap : Nat
  ranges : Nat
  steps : Nat
  arg : Word
  cookie : Nat
  granary : Nat
  epoch0 : Nat
  crew : Nat
  /-- A reserved field or bit is not zero. -/
  dirty : Bool

/-- Read the 64 bytes of a sheaf. -/
def sheafCmd (d : List Byte) : SheafCmd :=
  let fl := field d 2 1
  let hi := fun (o : Nat) => field d o 8 / 2 ^ 39 ≠ 0
  { format := field d 0 1, gang := field d 1 1, form := bit fl 0, dissolve := bit fl 1, trace := bit fl 2,
    ordered := bit fl 3, checkpoint := bit fl 4, tithe := field d 3 1 % 8, imageLen := field d 4 2,
    nranges := field d 6 1, image := field d 8 8 % 2 ^ 39, tilemap := field d 16 8 % 2 ^ 39,
    ranges := field d 24 8 % 2 ^ 39, steps := field d 32 4, arg := BitVec.ofNat 32 (field d 36 4),
    cookie := field d 40 8, granary := field d 48 8 % 2 ^ 39, epoch0 := field d 56 4, crew := field d 60 2,
    dirty := fl / 32 ≠ 0 || field d 3 1 / 8 ≠ 0 || field d 7 1 ≠ 0 || hi 8 || hi 16 || hi 24 || hi 48 ||
      field d 62 2 ≠ 0 }

/-- Is the image used (R150)? -/
def SheafCmd.usesImage (c : SheafCmd) : Bool := c.imageLen ≠ 0 && c.steps ≠ 0

/-- Check 2 (R146, R149, R150). -/
def SheafCmd.formatBad (c : SheafCmd) : Bool :=
  c.format ≠ 1 || c.dirty || 4 < c.tithe || (c.usesImage && c.image % 64 ≠ 0) || (c.form && c.tilemap % 64 ≠ 0) ||
    (c.nranges ≠ 0 && c.ranges % 64 ≠ 0) ||
    (!c.form && (c.tithe ≠ 0 || c.granary ≠ 0 || c.epoch0 ≠ 0 || c.crew ≠ 0)) ||
    (!c.checkpoint && c.granary ≠ 0) || (c.form && c.checkpoint && c.granary % 4096 ≠ 0)

/-- The first address past device memory of `n` bytes at `a` (R163). -/
def pastMemory (a n : Nat) : Option Nat := if a + n ≤ 0x6000000000 then none else some (max a 0x6000000000)

/-- The logical tiles of a tile map, in rank order (R147). -/
def mapTiles (m : List Byte) : List Nat := (List.range 4096).filter fun l => (m.getD (l / 8) 0).getLsbD (l % 8)

/-- Check 12 and the ranges of a table: the failure, or the non-empty ranges (R148, R149). -/
def readRanges (tbl : List Byte) (i : Nat) : Nat → Except (Nat × Nat) (List Range)
  | 0 => .ok []
  | n + 1 =>
    let e := (tbl.drop (16 * i)).take 16
    let base := field e 0 8
    let lines := field e 8 4
    if base / 2 ^ 39 ≠ 0 ∨ field e 12 1 / 2 ≠ 0 ∨ field e 13 3 ≠ 0 ∨ base % 64 ≠ 0 then .error (0x40, 0)
    else
      match if lines = 0 then none else pastMemory base (64 * lines) with
      | some a => .error (0x07, a)
      | none =>
        match readRanges tbl (i + 1) n with
        | .error f => .error f
        | .ok rs => if lines = 0 then .ok rs else .ok (⟨base, lines, field e 12 1 % 2 = 1⟩ :: rs)

/-- Does an output range overlap an input range (R159)? -/
def rangesClash (rs : List Range) : Bool :=
  rs.any fun a => rs.any fun b =>
    a.output && !b.output && a.base < b.base + 64 * b.lines && b.base < a.base + 64 * a.lines

/-- Bytes of a granary area for a gang of `n` tiles (R427). -/
def granaryBytes (n : Nat) : Nat := 0x1000 + 2 * n * 0x44000

namespace State

/-! ### The trace ring (R174, R475) -/

/-- Does the ring have no room for another record? -/
def ringFull (s : State) : Bool :=
  decide (2 ^ ringLog2 (s.getF 0x6048 11 8) ≤ (s.reg 0x604C + 2 ^ 32 - s.reg 0x6050) % 2 ^ 32)

/-- Write one record: to the ring while EN is set and there is room, and to the port while it is enabled; a record that
neither takes, or that the full ring drops, is counted. -/
def putTrace (s : State) (e : TraceEvent) : State :=
  let port := s.getF 0x6060 0 0 = 1
  let s := if port then s.emit (.tracePort e.bytes) else s
  if s.getF 0x6048 0 0 = 0 then if port then s else s.addF 0x6058 63 0 1
  else if s.ringFull then s.addF 0x6058 63 0 1
  else
    let w := s.reg 0x604C
    let dpa := s.getF 0x6040 38 0 + 32 * (w % 2 ^ ringLog2 (s.getF 0x6048 11 8))
    let s := if 0x2000000000 ≤ dpa ∧ dpa + 32 ≤ 0x6000000000 then s.postHalf (.post none) dpa e.bytes else s
    s.setF 0x604C 31 0 (w + 1)

/-- Must a record wait for room in the ring: modes 1 and 2, the ring enabled and full? (log 54: DEDUCED) -/
def traceWaits (s : State) (e : TraceEvent) : Bool := e.mode ≠ 3 && s.getF 0x6048 0 0 = 1 && s.ringFull

/-- Take the first record that need not wait; a fault report that waited for it is made. -/
def takeTrace (s : State) : State :=
  match takeFirst (fun e => !s.traceWaits e) s.traceQ with
  | some (e, rest) =>
    let s := { s with traceQ := rest }.putTrace e
    match e.fault with
    | some (t, i) => s.reportFault t i
    | none => s
  | none => s

/-! ### Queues (R137 to R144) -/

/-- A register of the doorbell page of queue `q`. -/
def dbReg (q off : Nat) : Nat := (Page.doorbell q).base + off

/-- The ring sizes of queue `q`. -/
def sqSize (s : State) (q : Nat) : Nat := 2 ^ ringLog2 (s.getF (dbReg q 0x40) 11 8)
def cqSize (s : State) (q : Nat) : Nat := 2 ^ ringLog2 (s.getF (dbReg q 0x40) 15 12)

/-- The bytes of a run, and the address of its first blighted line. -/
def runBytes (r : List (Nat × Line)) : List Byte := (r.map fun p => p.2.data).flatten
def runMark (r : List (Nat × Line)) : Option Nat := (r.find? fun p => p.2.blight).map (·.1)

/-- The DPA of the head sheaf of queue `q` (R139). -/
def headAt (s : State) (q : Nat) : Nat := s.getF (dbReg q 0x48) 38 0 + 64 * (s.reg (dbReg q 0x64) % s.sqSize q)

/-- Has queue `q` a sheaf that is announced and not taken? -/
def hasHead (s : State) (q : Nat) : Bool := s.reg (dbReg q 0x60) ≠ s.reg (dbReg q 0x64)

/-- Change the dispatcher's own work. -/
def onDisp (s : State) (f : Dispatch → Dispatch) : State := { s with disp := f s.disp }

/-- What is being read, or has been read, of the head sheaf of queue `q`. -/
def head (s : State) (q : Nat) : Fetch := SMap.look .reset s.disp.heads q
def setHead (s : State) (q : Nat) (x : Fetch) : State := s.onDisp fun d => { d with heads := SMap.put .reset d.heads q x }

/-- Ask for the lines at these DPAs over the dispatcher's barn path: the reads under way, by number. -/
def dispRead (s : State) (dpas : List Nat) : List (Nat × Nat) × State :=
  let n := s.disp.nextRead
  let asked := (List.range dpas.length).zip dpas |>.map fun p => (n + p.1, p.2)
  (asked, (s.onDisp fun d => { d with nextRead := n + dpas.length }).sendMesh
    (asked.map fun p => meshReq (.disp p.1) .read p.2))

/-- A line has come for read `id` of a fetch. -/
def fetchTake (x : Fetch) (id : Nat) (l : Line) : Fetch :=
  match x.asked.find? fun p => p.1 = id with
  | some (_, dpa) => { asked := x.asked.filter fun p => p.1 ≠ id, got := x.got ++ [(dpa, l)] }
  | none => x

/-- Read `id` of the dispatcher is answered; nothing waits for a read that has been given up. -/
def dispGot (s : State) (id : Nat) (l : Line) : State :=
  s.onDisp fun d =>
    { d with heads := (List.range 64).foldl (fun m q => SMap.modify .reset m q fun x => fetchTake x id l) d.heads
             taking := d.taking.map fun k => { k with fetch := fetchTake k.fetch id l } }

/-- Could the head sheaf of queue `q` be taken, as far as it need not be read: there is one, EN is set, the page is not
quiesced and a completion slot is free (R141, R467)? -/
def headOpen (s : State) (q : Nat) : Bool :=
  s.hasHead q && s.getF (dbReg q 0x40) 0 0 = 1 && s.getF (dbReg q 0xC) 1 1 = 0 &&
    (s.reg (dbReg q 0x64) + 2 ^ 32 - s.reg (dbReg q 0x6C)) % 2 ^ 32 < s.cqSize q

/-- Does the head sheaf of queue `q`, as far as it has been read, keep it from being taken with completion index `cqi`: it
names a live gang with an incomplete sheaf, or is ORDERED behind an incomplete one (R141)? -/
def headBars (s : State) (q cqi : Nat) : Bool :=
  let run := (s.head q).got
  let c := sheafCmd (runBytes run)
  let g := s.gang c.gang
  run ≠ [] && (runMark run).isNone &&
    ((g.live && g.sheaf.isSome) || (c.ordered && cqi ≠ s.reg (dbReg q 0x64)))

/-- Is the head sheaf of queue `q` eligible, as far as is known? -/
def eligible (s : State) (q : Nat) : Bool := s.headOpen q && !s.headBars q (s.reg (dbReg q 0x68))

/-- Write the status line of queue `q` with completion index `cqi` (R144); where STATUS_BASE is not in barn memory,
nothing is written and `none` answered. A head sheaf that has not been read does not show as ineligible for what it holds.
(log 56: DEDUCED) -/
def postStatus (s : State) (q cqi : Nat) (src : ReqSrc) : Option State :=
  let cons := s.reg (dbReg q 0x64)
  let dpa := s.getF (dbReg q 0x58) 38 0
  let st := s.getF (dbReg q 0x40) 0 0 + 2 * b2n (cons ≠ cqi) + 4 * b2n (s.hasHead q && !(s.headOpen q && !s.headBars q cqi))
  if 0x2000000000 ≤ dpa ∧ dpa + 64 ≤ 0x6000000000 then
    some (s.sendMesh [meshReq src (.write (leBytes 4 cqi ++ leBytes 4 cons ++ leBytes 1 st ++ zeros 55) false false) dpa])
  else none

/-- The 32 bytes of the completion record with index `i` (R165, R166). -/
def completionBytes (c : Completion) (i size : Nat) : List Byte :=
  leBytes 8 c.cookie ++ leBytes 1 c.status ++ leBytes 1 c.code ++ leBytes 1 c.gang ++
    leBytes 1 (b2n (i / size % 2 = 0) + 2 * b2n c.flost) ++ leBytes 4 c.index ++ leBytes 4 c.stepsDone ++
    leBytes 4 c.epoch ++ leBytes 4 c.fseq ++ leBytes 2 c.nfault ++ zeros 2

/-- Write the record of a completion of queue `q` with index `i`; `none` where it would not lie in barn memory. -/
def postRecord (s : State) (q i : Nat) (c : Completion) : Option State :=
  let dpa := s.getF (dbReg q 0x50) 38 0 + 32 * (i % s.cqSize q)
  if 0x2000000000 ≤ dpa ∧ dpa + 32 ≤ 0x6000000000 then
    some (s.postHalf (.record q) dpa (completionBytes c i (s.cqSize q)))
  else none

/-- The oldest completion of queue `q` that is not made. -/
def nextCompletion (s : State) (q : Nat) : Option (Nat × Completion × Bool) := s.disp.completions.find? fun x => x.1 = q

/-- The status line of queue `q` is written: the completion index advances and the MSI-X message is sent (R29). -/
def completionDone (s : State) (q : Nat) : State :=
  let i := s.reg (dbReg q 0x68)
  let s := s.setF (dbReg q 0x68) 31 0 (i + 1)
  let s := s.onDisp fun d => { d with completions := ((takeFirst (fun x => x.1 = q) d.completions).map (·.2)).getD d.completions }
  if s.getF (dbReg q 0x40) 2 2 = 1 then s.sendVector (s.getF (dbReg q 0x40) 21 16) else s

/-- The record of queue `q` is written, so its status line follows (R29); answers whether that needs no write. -/
def completionStatus (s : State) (q : Nat) : Bool × State :=
  match s.postStatus q ((s.reg (dbReg q 0x68) + 1) % 2 ^ 32) (.status q) with
  | some s => (false, s)
  | none => (true, s.completionDone q)

/-- Begin the completions of queue `q` that are due, one after another. A completion whose lines do not lie in barn memory
is made at once. (log 56: DEDUCED) -/
def pushCompletions (s : State) (q : Nat) : Nat → State
  | 0 => s
  | n + 1 =>
    match s.nextCompletion q with
    | some (_, c, false) =>
      let s := s.onDisp fun d =>
        { d with completions := d.completions.map fun x => if x = (q, c, false) then (q, c, true) else x }
      match s.postRecord q (s.reg (dbReg q 0x68)) c with
      | some s => s
      | none =>
        let (done, s) := s.completionStatus q
        if done then pushCompletions s q n else s
    | _ => s

/-- A completion is due: its record, the status line with the advanced index, the MSI-X message (R29, R165). (log 87:
DEDUCED) -/
def complete (s : State) (q : Nat) (c : Completion) : State :=
  (s.onDisp fun d => { d with completions := d.completions ++ [(q, c, false)] }).pushCompletions q
    (s.disp.completions.length + 1)

/-- The record of queue `q` has been accepted. -/
def recordWritten (s : State) (q : Nat) : State :=
  let (done, s) := s.completionStatus q
  if done then s.pushCompletions q (s.disp.completions.length) else s

/-- The status line of queue `q` has been accepted. -/
def statusWritten (s : State) (q : Nat) : State :=
  (s.completionDone q).pushCompletions q s.disp.completions.length

/-! ### Checks (R149, R150) -/

/-- What a sheaf that passes its checks yields: the tiles, ranges and image. -/
structure Checked where
  tiles : List Nat
  ranges : List Range
  image : List Byte

/-- How far the checks of a sheaf are: they need these lines, they have failed with this code and ADDR, or all have
passed. -/
inductive CheckStep where
  | need (dpas : List Nat)
  | reject (code addr : Nat)
  | ok (k : Checked)

/-- Live gangs of class STEP-REPLAY (R155). -/
def replayGangs (s : State) : Nat := (s.gangs.filter fun g => g.2.live && !g.2.checkpoint).length

/-- Does a logical tile belong to a live gang? -/
def inLiveGang (s : State) (l : Nat) : Bool := s.gangs.any fun g => g.2.live && g.2.tiles.contains l

/-- Checks 3 to 7 but for the granary extent. An IMAGE_LEN above 8,192 overruns instruction memory: ADDR is the first
address of device memory past what it could hold. (log 58: DEDUCED) -/
def earlyChecks (s : State) (c : SheafCmd) : Option (Nat × Nat) :=
  let g := s.gang c.gang
  let ext := fun (used : Bool) (a n : Nat) => if used then (pastMemory a n).map fun x => (0x07, x) else none
  if c.form && g.live then some (0x41, 0)
  else if !c.form && !g.live then some (0x42, 0)
  else if !c.form && g.faulted then some (0x43, 0)
  else if !c.form && c.checkpoint ≠ g.checkpoint then some (0x44, 0)
  else if c.form && !c.checkpoint && 4 ≤ s.replayGangs then some (0x45, 0)
  else if c.usesImage && 8192 < c.imageLen then some (0x07, c.image + 0x8000)
  else
    match ext c.usesImage c.image (4 * c.imageLen), ext c.form c.tilemap 512, ext (c.nranges ≠ 0) c.ranges (16 * c.nranges) with
    | some f, _, _ => some f
    | _, some f, _ => some f
    | _, _, r => r

/-- The DPAs of `n` lines from `dpa` up. -/
def lineRun (dpa n : Nat) : List Nat := (List.range n).map (dpa + 64 * ·)

/-- The lines of a run that have been read; none while one has not come. -/
def runOf (got : List (Nat × Line)) (dpas : List Nat) : Option (List (Nat × Line)) :=
  dpas.mapM fun d => got.find? fun p => p.1 = d

/-- All the checks of a sheaf after check 1, over the lines read so far; each time a line has come they are made from the
first on, so that those of the fence map are made against one generation. (log 58: DEDUCED) -/
def checkSheaf (s : State) (c : SheafCmd) (got : List (Nat × Line)) : CheckStep :=
  if c.formatBad then .reject 0x40 0
  else
    match s.earlyChecks c with
    | some f => .reject f.1 f.2
    | none =>
      let map := lineRun c.tilemap (if c.form then 8 else 0)
      let table := lineRun c.ranges (if c.nranges = 0 then 0 else (16 * c.nranges + 63) / 64)
      match runOf got map, runOf got table with
      | some m, some r =>
        match runMark m, runMark r with
        | some a, _ => .reject 0x46 a
        | none, some a => .reject 0x46 a
        | none, none =>
          let ls := if c.form then mapTiles (runBytes m) else []
          match if c.form && c.checkpoint then pastMemory c.granary (granaryBytes ls.length) else none with
          | some a => .reject 0x07 a
          | none =>
            if ls.any fun l => !s.fuses.cen.getLsbD l then .reject 0x09 0
            else if ls.any fun l => !s.computeEnabled l then .reject 0x47 0
            else if ls.any s.inLiveGang then .reject 0x48 0
            else
              match readRanges (runBytes r) 0 c.nranges with
              | .error f => .reject f.1 f.2
              | .ok rs =>
                if !c.checkpoint && rangesClash rs then .reject 0x49 0
                else
                  let image := lineRun c.image (if c.usesImage then (4 * c.imageLen + 63) / 64 else 0)
                  match runOf got image with
                  | none => .need image
                  | some im =>
                    match runMark im with
                    | some a => .reject 0x46 a
                    | none => .ok ⟨ls, rs, (runBytes im).take (4 * c.imageLen)⟩
      | _, _ => .need (map ++ table)

/-! ### Performing (R151) -/

/-- Form gang `g`: reset its tiles, and give each its place, rank and epoch (R147, R151, R154, R174, R397). -/
def formGang (s : State) (c : SheafCmd) (ls : List Nat) : State :=
  let s := foldEach (ls.zip (List.range ls.length)) s fun p s =>
    let t := s.ptileOf p.1
    (s.resetTile t).onTile t fun x =>
      { x with gang := some c.gang, gangId := c.gang, rank := p.2, gsize := ls.length,
               epoch := BitVec.ofNat 32 c.epoch0, stepsDone := 0 }
  s.onGang c.gang fun _ =>
    { Gang.reset with
      live := true, tiles := ls, checkpoint := c.checkpoint, tithe := c.tithe, tmode := s.getF 0x5040 1 0,
      granary := c.granary, crew := c.crew, seed := BitVec.ofNat 64 (s.reg 0x3048) }

/-- Load the image into instruction memory (R151). -/
def loadImage (x : Tile) (im : List Byte) : Tile :=
  let m := (List.range (im.length / 4)).foldl (fun m k => SMap.put 0 m k (BitVec.ofNat 32 (field im (4 * k) 4))) x.imem
  { x with imem := m }

/-- Start a tile of the gang (R151, R157). -/
def startTile (s : State) (t : Nat) (arg : Word) : State :=
  let s := s.onTile t fun x =>
    { x with g := SMap.put 0 [] 1 arg, loops := [], queue := [], stalledEntry := none, pc := 0, core := .running,
             stepsDone := 0, dirty := false, issued := [], arrived := [],
             gate := { phase := .closed, held := [], receivers := [], awaiting := [] } }
  s.beginStep t

/-- Perform a sheaf that passed its checks. An empty map forms no gang; the sheaf then completes at once. -/
def performSheaf (s : State) (q idx : Nat) (c : SheafCmd) (k : Checked) : State :=
  if c.form ∧ k.tiles = [] then
    s.complete q { cookie := c.cookie, status := 0, code := 0, gang := c.gang, flost := false, index := idx,
                   stepsDone := 0, epoch := 0, fseq := 0, nfault := 0 }
  else
    let s := if c.form then s.formGang c k.tiles else s
    let h : Sheaf :=
      { q, index := idx, cookie := c.cookie, steps := c.steps, dissolve := c.dissolve, trace := c.trace,
        ranges := k.ranges, fmapGen := s.getF 0x4048 31 0, nfault := 0, code := 0, fseq := 0, flost := false }
    let s := s.onGang c.gang fun G => { G with sheaf := some h }
    let ts := s.gangTiles c.gang
    let epoch := (ts.head?.map fun t => (s.tile t).epoch.toNat).getD 0
    let s := s.traceGang c.gang 6 q c.trace epoch
    if c.steps = 0 then s
    else
      let s := if c.usesImage then foldEach ts s fun t s => s.onTile t fun x => loadImage x k.image else s
      foldEach ts s fun t s => s.startTile t c.arg

/-- The step epoch of rank 0 of gang `g`; zero for no gang (R165). -/
def gangEpoch (s : State) (g : Nat) : Nat := ((s.gangTiles g).head?.map fun t => (s.tile t).epoch.toNat).getD 0

/-- Reject a sheaf: a fault record with SOURCE 0 and a REJECTED completion (R149, R165, R170). GANG of a sheaf whose own
read is blighted is taken from the bytes as they were read. Nothing of it is traced: it has not started, and no tile has
faulted. (log 54: DEDUCED, 57: DEDUCED) -/
def rejectSheaf (s : State) (q idx g cookie code addr : Nat) : State :=
  let i : FaultInfo := { code, source := 0, queue := 0xFF, qindex := 0xFFFF, tag := 0, pc := 0, detail := 0, addr }
  let G := s.gang g
  let mode := if G.live then G.tmode else s.getF 0x5040 1 0
  let ctx : RecordContext := { gang := g, mode, cookie, index := idx, dqueue := q, gen := s.getF 0x4048 31 0 }
  let (fseq, lost, s) := s.faultRecord i ctx none
  s.complete q { cookie, status := 2, code, gang := g, flost := lost, index := idx, stepsDone := 0,
                 epoch := if G.live then s.gangEpoch g else 0, fseq, nfault := 0 }

/-- Read the head sheaf of every queue that could be taken and has not been read (R141, R149). -/
def readHeads (s : State) : State :=
  foldEach (List.range 64) s fun q s =>
    if s.headOpen q ∧ s.head q = .reset ∧ !s.st.thermtrip then
      let (asked, s) := s.dispRead [s.headAt q]
      s.setHead q { asked, got := [] }
    else s

/-- The queue that the dispatcher turns to next: the first with an eligible head after the one served last (R141). -/
def nextQueue (s : State) : Option Nat := ((List.range 64).map fun i => (s.lastQueue + 1 + i) % 64).find? s.eligible

/-- Must the start of this sheaf wait for room in the trace ring (R174)? -/
def startBlocked (s : State) (c : SheafCmd) : Bool :=
  s.traceBlocked (if c.form then s.getF 0x5040 1 0 else (s.gang c.gang).tmode) c.trace 6

/-- The dispatcher goes on with the sheaf that it checks: it reads what a check needs, or rejects or performs the sheaf
(R149 to R152). -/
def goOn (s : State) (k : Taking) : State :=
  let c := sheafCmd k.bytes
  let finish := fun (s : State) => s.onDisp fun d => { d with taking := none }
  match s.checkSheaf c k.fetch.got with
  | .need dpas =>
    let fresh := dpas.filter fun d => !(k.fetch.asked.any fun p => p.2 = d) && !(k.fetch.got.any fun p => p.1 = d)
    let n := s.disp.nextRead
    let asked := k.fetch.asked ++ ((List.range fresh.length).zip fresh).map fun p => (n + p.1, p.2)
    let s := s.onDisp fun d => { d with taking := some { k with fetch := { k.fetch with asked } } }
    (s.dispRead fresh).2
  | .reject code addr => (finish s).rejectSheaf k.q k.index c.gang c.cookie code addr
  | .ok r => if s.startBlocked c then s else (finish s).performSheaf k.q k.index c r

/-- Take the head sheaf of queue `q`, which has been read (R141, R142). -/
def takeHead (s : State) (q : Nat) : State :=
  let run := (s.head q).got
  let idx := s.reg (dbReg q 0x64)
  let s := { (s.setHead q .reset).setF (dbReg q 0x64) 31 0 (idx + 1) with lastQueue := q }
  match runMark run with
  | some a => s.rejectSheaf q idx (sheafCmd (runBytes run)).gang 0 0x46 a
  | none =>
    let k : Taking := { q, index := idx, bytes := runBytes run, fetch := .reset }
    (s.onDisp fun d => { d with taking := some k }).goOn k

/-- The dispatcher turns to queue `q`: it goes on with the sheaf of `q` that it checks, or reads the heads, or takes the
head of `q` when rotation reaches it. It handles one sheaf at a time (R152). (log 89: DEDUCED) -/
def takeSheaf (s : State) (q : Nat) : State :=
  match s.disp.taking with
  | some k => if k.q = q then s.goOn k else s
  | none =>
    let s := s.readHeads
    if s.nextQueue = some q ∧ (s.head q).got ≠ [] then s.takeHead q else s

/-! ### Snapshots (R427, R428) -/

/-- The writes that copy a tile's bin and crib to the granary from DPA `dpa` up, marked lines blighted (R263, R498). -/
def snapLines (g dpa : Nat) (x : Tile) : List MemReq :=
  let put := fun (base : Nat) (data : SMap Byte) (marks : SMap Bool) (n : Nat) =>
    (List.range n).map fun k =>
      meshReq (.snap g) (.write (readBytes data (64 * k) 64) (SMap.look false marks k) false) (base + 64 * k)
  put dpa x.bin x.binBlight 4096 ++ put (dpa + 0x40000) x.crib x.cribBlight 256

/-- The header of a granary area once the snapshot of gang `g` has gone to the set that is not the newest (R427, R428). -/
def snapHeader (s : State) (g : Nat) (h : Line) : Nat × List Byte :=
  let G := s.gang g
  let valid := field h.data 2 1 % 4
  let set := if valid = 1 then 1 else 0
  let newest := if valid = 1 then field h.data 8 4 else if valid = 2 then field h.data 12 4 else 0
  let pick := fun (o v : Nat) => if set = 0 then leBytes 4 v ++ (h.data.drop (o + 4)).take 4 else (h.data.drop o).take 4 ++ leBytes 4 v
  (set, leBytes 1 1 ++ leBytes 1 g ++ leBytes 1 (set + 1) ++ zeros 1 ++ leBytes 4 G.tiles.length ++ pick 8 (newest + 1) ++
    pick 0x10 (s.gangEpoch g) ++ pick 0x18 ((G.sheaf.map (·.index)).getD 0) ++ zeros 32)

/-- The next part of the snapshot of gang `g`: read the header, or write every tile's lines (R428). -/
def snapOn (s : State) (g : Nat) (env : Env) : State :=
  let G := s.gang g
  let phase := fun (p : SnapPhase) (s : State) => s.onGang g fun G => { G with snap := p }
  match G.snap with
  | .none => (phase .asked s).sendMesh [meshReq (.snap g) .read G.granary]
  | .header h =>
    let (set, bytes) := s.snapHeader g h
    let ts := s.gangTiles g
    let n := ts.length
    let s := foldEach ts s fun t s => s.binErrors t env [(0, 0x40000)]
    let reqs := (ts.zip (List.range n)).flatMap fun p =>
      snapLines g (G.granary + 0x1000 + set * n * 0x44000 + p.2 * 0x44000) (s.tile p.1)
    (phase (.lines reqs.length bytes) s).sendMesh reqs
  | _ => s

/-- A read or write of the snapshot of gang `g` is done: the last line of the tiles is followed by the header (R428). -/
def snapDone (s : State) (g : Nat) (l : Line) : State :=
  let phase := fun (p : SnapPhase) (s : State) => s.onGang g fun G => { G with snap := p }
  match (s.gang g).snap with
  | .asked => phase (.header l) s
  | .lines left bytes =>
    if 1 < left then phase (.lines (left - 1) bytes) s
    else (phase .closing s).sendMesh [meshReq (.snap g) (.write bytes false false) (s.gang g).granary]
  | .closing => phase .taken s
  | _ => s

/-- What is left of a snapshot or a restore of gang `g` is given up. -/
def dropSnap (s : State) (g : Nat) : State :=
  let mine := fun (r : MemReq) =>
    match r.src with
    | .snap g' => decide (g' = g) | .restore g' _ _ => decide (g' = g) | .restoreHead g' => decide (g' = g) | _ => false
  { s with mesh := s.mesh.filter fun r => !mine r }.onGang g fun G => { G with snap := .none, restoring := 0 }

/-! ### Completion (R154, R165, R168, R172) -/

/-- Gang `g` ends: its tiles become free (R154, R172). -/
def freeGang (s : State) (g : Nat) : State :=
  let s := foldEach (s.gangTiles g) (s.dropSnap g) fun t s => s.onTile t fun x => { x with gang := none }
  s.onGang g fun _ => Gang.reset

/-- Is a snapshot due at the end of the sheaf that gang `g` runs (R428)? -/
def snapDue (s : State) (g : Nat) : Bool :=
  let G := s.gang g
  let period := s.getF 0x3050 31 16
  G.checkpoint && (G.snapWanted || (period ≠ 0 && decide (period ≤ G.sinceSnap + 1)))

/-- What the completion record of the sheaf `h` of gang `g` says. A step that has been released counts before its last
acknowledgement too (R41, R165). -/
def sheafRecord (s : State) (g : Nat) (h : Sheaf) (status : Nat) : Completion :=
  let steps := fun (t : Nat) => (s.tile t).stepsDone + b2n ((s.tile t).gate.phase = .acking)
  let bad := decide (status = 1)
  { cookie := h.cookie, status, code := if bad then h.code else 0, gang := g, flost := h.flost, index := h.index,
    stepsDone := if h.steps = 0 then 0 else (s.gangTiles g).foldl (fun m t => min m (steps t)) (2 ^ 32 - 1),
    epoch := s.gangEpoch g, fseq := if bad then h.fseq else 0, nfault := h.nfault }

/-- The completion of the sheaf that gang `g` runs is due and the sheaf ends (R154, R165). -/
def finishSheaf (s : State) (g : Nat) (status : Nat) : State :=
  let G := s.gang g
  match G.sheaf with
  | none => s
  | some h =>
    let took := decide (G.snap = .taken)
    let s := s.onGang g fun G =>
      { G with
        snap := .none
        sinceSnap := if took then 0 else if status = 0 ∧ G.checkpoint then G.sinceSnap + 1 else G.sinceSnap
        snapWanted := if took then false else G.snapWanted }
    let c := s.sheafRecord g h status
    let s := s.onGang g fun G => { G with sheaf := none }
    let s := s.traceGang g 7 h.q h.trace c.epoch
    let s := if status = 0 ∧ h.dissolve then (s.gangGone g false).freeGang g else s
    s.complete h.q c

/-- May the completion of the sheaf of gang `g` be made as far as tracing goes: its record need not wait for room, and no
fault report of its tiles waits (R168, R174)? (log 54: DEDUCED) -/
def mayFinish (s : State) (g : Nat) : Bool :=
  !s.traceBlocked (s.gang g).tmode (s.traceFlag g) 7 &&
    !s.traceQ.any fun e => match e.fault with | some (t, _) => (s.tile t).gang = some g | none => false

/-- Gang `g`, which has been reset, ends, unless the completion of its sheaf waits for room in the trace ring (R172,
R174). -/
def resetEnd (s : State) (g : Nat) : State :=
  let G := s.gang g
  match G.sheaf, G.ending with
  | some h, some c =>
    if s.traceBlocked G.tmode h.trace 7 then s
    else ((s.traceGang g 7 h.q h.trace c.epoch).complete h.q c).freeGang g
  | _, _ => s.freeGang g

/-- The sheaf of gang `g` completes, if it can: faulted, its other tiles stopping first, or with every tile halted and a
snapshot that is due taken, or that of a gang that has been reset (R154, R168, R172, R428). -/
def sheafEnd (s : State) (g : Nat) (env : Env) : State :=
  let G := s.gang g
  match G.sheaf with
  | none => s
  | some h =>
    if G.ending.isSome then s.resetEnd g
    else if !s.mayFinish g then s
    else if G.faulted then ((s.dropSnap g).stopOthers g none).finishSheaf g 1
    else if h.steps = 0 ∨ (s.gangTiles g).all (fun t => (s.tile t).core = .halted) then
      if s.snapDue g ∧ G.snap ≠ .taken then (s.upset env).snapOn g env else s.finishSheaf g 0
    else s

/-- Reset gang `g`, which is live (R172). -/
def resetGang (s : State) (g : Nat) : State :=
  if (s.gang g).ending.isSome then s
  else
    let ts := s.gangTiles g
    let s := foldEach ts s fun t s => (s.stopTile t).dropCheck t
    let s := (s.dropSnap g).gangGone g true
    let ending := (s.gang g).sheaf.map fun h => s.sheafRecord g h 3
    let s := foldEach ts s fun t s => s.resetTile t
    (s.onGang g fun G => { G with ending }).resetEnd g

/-- A gang reset applies, or finds no live gang (R172). -/
def gangReset (s : State) (g : Nat) : State :=
  if (s.gang g).live then s.resetGang g else s.log .dispatch .gangAbsent

/-- Gang resets that waited for the sheaf being taken apply once the dispatcher has finished with it (R173). -/
def lateResets (s : State) : State :=
  match s.disp.taking with
  | some _ => s
  | none => foldEach s.disp.resets (s.onDisp fun d => { d with resets := [] }) fun g s => s.gangReset g

/-! ### What register writes do -/

/-- May queue `q` be enabled (R138)? -/
def queueOk (s : State) (q : Nat) : Bool :=
  let ok := fun (off size : Nat) =>
    let b := s.getF (dbReg q off) 38 0
    0x2000000000 ≤ b && b + size ≤ 0x6000000000 && b % size = 0
  ok 0x48 (64 * s.sqSize q) && ok 0x50 (32 * s.cqSize q) && ok 0x58 64

/-- QCTRL.RESET (R140). -/
def resetQueue (s : State) (q : Nat) : State :=
  if s.reg (dbReg q 0x64) ≠ s.reg (dbReg q 0x68) then s.log (.doorbell q) .queueBusy
  else
    let s := foldEach [0x60, 0x64, 0x68, 0x6C] (s.setHead q .reset) fun o s => s.setReg (dbReg q o) 0
    (s.postStatus q 0 (.post none)).getD s

/-- A write of QCTRL (R138, R140, R143): a reset is performed first, and the other fields take effect whether it was or was
refused. A size field written with another value while EN is set is ignored and logged. (log 59: DEDUCED) -/
def writeQctrl (s : State) (q v : Nat) : State :=
  let s := if bit v 1 then s.resetQueue q else s
  let en := s.getF (dbReg q 0x40) 0 0 = 1
  let a := dbReg q 0x40
  let s :=
    if en then if s.getF a 15 8 ≠ bits v 15 8 then s.log (.doorbell q) .queueBusy else s
    else s.setF a 15 8 (bits v 15 8)
  let s := (s.setF a 2 2 (bits v 2 2)).setF a 21 16 (bits v 21 16)
  if !bit v 0 then (s.setF a 0 0 0).setHead q .reset
  else if en then s
  else if s.queueOk q then s.setF a 0 0 1
  else s.log (.doorbell q) .queueConfig

/-- A write of a base register of a queue (R138). -/
def writeQbase (s : State) (q off v : Nat) : State :=
  if s.getF (dbReg q 0x40) 0 0 = 1 then s.log (.doorbell q) .queueBusy else s.setF (dbReg q off) 38 0 v

/-- A doorbell; the head sheaf is read after the latest one (R27, R28). -/
def writeProd (s : State) (q v : Nat) : State :=
  if s.sqSize q < (v + 2 ^ 32 - s.reg (dbReg q 0x64)) % 2 ^ 32 then s.log (.doorbell q) .doorbellRange
  else (s.setReg (dbReg q 0x60) v).setHead q .reset

/-- A write of CQ_HEAD (R142). -/
def writeCqHead (s : State) (q v : Nat) : State :=
  if serialGT 32 v (s.reg (dbReg q 0x68)) then s.log (.doorbell q) .doorbellRange else s.setReg (dbReg q 0x6C) v

/-- A write of DISPATCH.GANG_RESET: it waits while the dispatcher handles a sheaf of that gang (R172, R173). -/
def writeGangReset (s : State) (v : Nat) : State :=
  let g := v % 256
  let busy := match s.disp.taking with | some k => decide ((sheafCmd k.bytes).gang = g) | none => false
  if !bit v 8 then s
  else if busy then s.onDisp fun d => { d with resets := d.resets ++ [g] }
  else s.gangReset g

/-- Does a ring of `n` bytes at `b` lie in barn memory, aligned to its size? -/
def ringOk (b n : Nat) : Bool := 0x2000000000 ≤ b && b + n ≤ 0x6000000000 && b % n = 0

/-- A write of a ring's control register at `a`, with EN in bit 0 and LOG2 in [11:8]: LOG2 is fixed while EN is 1, and EN is
set only over a ring of `unit`-byte records that lies right (R171, R432, R475). -/
def writeRingCtrl (s : State) (a base unit v : Nat) (p : Page) (c : Cause) : State :=
  let s := if s.getF a 0 0 = 1 then s else s.setF a 11 8 (bits v 11 8)
  if !bit v 0 then s.setF a 0 0 0
  else if s.getF a 0 0 = 1 then s
  else if ringOk (s.getF base 38 0) (unit * 2 ^ ringLog2 (s.getF a 11 8)) then s.setF a 0 0 1
  else s.log p c

/-- A write of TILE.CTRL (R134, R411): a tile of a live gang, or one serving as a place, is not reset. -/
def writeTileCtrl (s : State) (t v : Nat) : State :=
  let place := s.tithe.steps.any fun p => p.2.shadow = some t || p.2.referee = some t
  if !bit v 0 then s
  else if (s.tile t).gang.isSome ∨ place then s.log (.tile t) .tileBusy
  else s.resetTile t

end State

/-! ### Rows -/

/-- SHEAF_TAKE: the dispatcher is open (R442) and turns to queue `q` (R141, R149 to R152). -/
def execSheafTake (q : Nat) (env : Env) (s : State) : Res :=
  guardUnit (isSheafQueue q)
    (s.inClock 36
      (if (s.getF 0x1040 3 0 = 10 ∨ s.getF 0x1040 3 0 = 11) ∧ !s.st.thermtrip then ((s.upset env).takeSheaf q).lateResets else s))

/-- TRACE_RECORD (R174, R475). -/
def execTraceRecord (s : State) : Res := .next s.takeTrace

/-- SHEAF_COMPLETE (R154, R168). -/
def execSheafComplete (g : Nat) (env : Env) (s : State) : Res := guardUnit (g < 256) (s.inClock 36 (s.sheafEnd g env))

end Sys2Proof.Machine
end

