-- ==== Sys2Proof/Machine/Pillar.lean ====
section
/-! DEFINITION. Host and mesh requests, the pillar controllers, paddock modes, refresh and the gleaner (R55, R69 to R89,
R376, R377), and the answers of remote reads (R351). -/

namespace Sys2Proof.Machine

namespace State

/-! ### Answers -/

/-- The RRSP of a remote read whose lines are all in (R351). -/
def readReply (s : State) (r : RemoteRead) : Packet :=
  let first := r.addr / 64
  let line := fun k => (r.lines.find? fun p => p.1 = k).map (·.2)
  let bytes := (List.range r.need).flatMap fun k => ((line k).map (·.data)).getD (zeros 64)
  let blight := (List.range r.need).foldl
    (fun n k => if ((line k).map (·.blight)).getD false then n + 2 ^ ((first + k) % 4) else n) 0
  { op := 0x03, cls := 1, vcd := 0, zdir := 0, zset := 0, dst := r.src, src := s.node, len := r.len, blight,
    args := zeros 5 ++ leBytes 2 r.rtile ++ leBytes 1 r.rtag, data := (bytes.drop (r.addr % 64)).take r.len }

/-- Line `k` of the remote read `id` has been read. -/
def remoteLine (s : State) (id k : Nat) (l : Line) : State :=
  match s.ridge.reads.find? fun r => r.id = id with
  | none => s
  | some r =>
    let r := { r with lines := r.lines ++ [(k, l)] }
    let others := s.ridge.reads.filter fun x => x.id ≠ id
    if r.lines.length < r.need then
      { s with ridge := { s.ridge with reads := s.ridge.reads.map fun x => if x.id = id then r else x } }
    else
      let s := { s with ridge := { s.ridge with reads := others } }
      (s.inject (s.readReply r) 2).2

/-- Entry `id` of tile `t` receives the line at DPA `dpa`, or a write of it has been accepted (R242). -/
def entryAnswer (s : State) (t id dpa : Nat) (op : MemOp) (l : Line) : State :=
  s.onEntry t id fun e =>
    match op with
    | .read => { e with asked := e.asked.erase dpa, got := e.got ++ [(meshNode, dpa, l)] }
    | _ => { e with unplaced := e.unplaced - 1 }

/-- Line `k` of a RESTORE of gang `g` goes to tile `t`'s bin, or to its crib, with its mark, unless the gang has ended since
(R429, R498). -/
def restoreLine (s : State) (g t k : Nat) (l : Line) : State :=
  if (s.gang g).restoring = 0 then s
  else (s.onGang g fun G => { G with restoring := G.restoring - 1 }).onTile t fun x => x.setLine k l

/-- The requests that read the newest valid set of a granary area for gang `g` (R427, R429). -/
def restoreReqs (s : State) (g : Nat) (h : Line) : List MemReq :=
  let G := s.gang g
  let n := G.tiles.length
  let base := G.granary + 0x1000 + (field h.data 2 1 % 4 - 1) * n * 0x44000
  (((s.gangTiles g).zip (List.range n)).flatMap fun p =>
    (List.range 4352).map fun k => meshReq (.restore g p.1 k) .read (base + p.2 * 0x44000 + 64 * k))

/-- The granary header of a RESTORE has come: its set is read, or the request is invalid (R429). -/
def restoreBegin (s : State) (g : Nat) (h : Line) : State :=
  let G := s.gang g
  let valid := field h.data 2 1 % 4
  let ended := s.onGang g fun G => { G with restoring := 0 }
  if G.restoring = 0 then s
  else if h.blight ∨ field h.data 0 1 ≠ 1 ∨ (valid ≠ 1 ∧ valid ≠ 2) ∨ field h.data 4 4 ≠ G.tiles.length then
    ended.log .tithe .granaryInvalid
  else
    let reqs := s.restoreReqs g h
    (s.onGang g fun G => { G with restoring := reqs.length }).sendMesh reqs

/-- A staged line has been written to the pillar of tile `t`: a sampled step's hold records it (R400). -/
def logStaged (s : State) (t : Nat) (r : MemReq) : State :=
  match r.op with
  | .read => s
  | .mark => s
  | .write data poison bad => s.logApplied t (.pillar (r.dpa % 2 ^ 25)) (2 ^ 64 - 1) ⟨data, poison || bad⟩
  | .partialWrite data be poison bad => s.logApplied t (.pillar (r.dpa % 2 ^ 25)) be ⟨data, poison || bad⟩

/-- Line `k` of the image that MANIFEST_STAGE reads has come (R456). -/
def imageLine (s : State) (k : Nat) (l : Line) : State :=
  { s with st := { s.st with image := s.st.image.map fun ls => ls ++ [(k, l)] } }

/-- The mailbox of head `h` completes a command with a return code and payload; vector 69 follows if the doorbell interrupt is
enabled (R389, R472). (log 46: PRESUMED) -/
def mailboxDone (s : State) (h code : Nat) (payload : List Byte) : State :=
  let s := (s.onHost h fun p => { p with mailBusy := false, mailCode := code, mailPayload := payload }).emit
    (.mailbox h code payload)
  if (s.host h).mailboxIrq then s.raise 69 else s

/-- The write of a poison command of head `h`'s mailbox has been made, unless the head has been reset since (R389). -/
def mailDone (s : State) (h : Nat) : State := if (s.host h).mailBusy then s.mailboxDone h 0 [] else s

/-- Answer a request: a host's waits to be sent, another's goes to whom it concerns. -/
def answerReq (s : State) (r : MemReq) (l : Line) : State :=
  match r.src with
  | .host h tag =>
    let a := match r.op with | .read => MemAnswer.memData l | _ => MemAnswer.cmp
    s.onHost h fun p => { p with responses := p.responses ++ [(tag, a)] }
  | .ridge id k => s.remoteLine id k l
  | .dropped => s
  | .entry t id => s.entryAnswer t id r.dpa r.op l
  | .staged t m => (s.logStaged t r).lineApplied t m
  | .disp id => s.dispGot id l
  | .post v => match v with | some v => s.raise v | none => s
  | .record q => s.recordWritten q
  | .status q => s.statusWritten q
  | .snap g => s.snapDone g l
  | .restore g t k => s.restoreLine g t k l
  | .restoreHead g => s.restoreBegin g l
  | .image k => s.imageLine k l
  | .mail h => s.mailDone h

/-- Perform a request at its location (R64 to R66, R379, R385): the line read, and the state. A word received with bad
parity blights the codeword. A partial write that enables no byte does nothing. -/
def performReq (s : State) (env : Env) (r : MemReq) (loc : Loc) : Line × State :=
  let heard := fun (bad : Bool) (s : State) => if bad then s.parityIn loc else s
  match r.op with
  | .read => s.readLoc loc
  | .write data poison bad => (⟨[], false⟩, (heard bad s).writeLoc env loc ⟨data, poison || bad⟩)
  | .mark => let (l, s) := s.readLoc loc; (⟨[], false⟩, s.writeLoc env loc ⟨l.data, true⟩)
  | .partialWrite data be poison bad =>
    if be = 0 then (⟨[], false⟩, s) else (⟨[], false⟩, (heard bad s).mergeLoc env loc data be (poison || bad))

/-! ### Pillar queues (R72, R73, R77, R79) -/

/-- The MODE register of the paddock of tile `t`. -/
def modeReg (t : Nat) : Nat := (Page.paddock (paddockOf t)).base + 0x40

/-- The entry that the pillar controller admits next, and the rest of its queue: the oldest; in FIELD mode under panic,
the oldest host entry ahead of any mesh entry (R72, R77). -/
def nextAdmit (s : State) (t : Nat) : Option (MemReq × List MemReq) :=
  let q := (s.pillar t).queue
  let hostFirst := s.getF (modeReg t) 8 8 = 1 && s.hostPanic
  match if hostFirst then takeFirst MemReq.isHost q else none with
  | some r => some r
  | none => takeFirst (fun _ => true) q

/-- Admit one entry; during a mode change none is admitted (R76). -/
def admitNext (s : State) (t : Nat) : State :=
  if s.getF (modeReg t) 9 9 = 1 then s
  else
    match s.nextAdmit t with
    | some (r, rest) =>
      ((s.settle t).onPillar t fun p => { p with queue := rest, admitted := p.admitted ++ [r] }).drainHosts
    | none => s

/-- Do the gleaners of the paddock of tile `t` run: EN is set and the page is not quiesced (R88, R467)? -/
def gleans (s : State) (t : Nat) : Bool :=
  let a := (Page.paddock (paddockOf t)).base
  s.getF (a + 0x58) 0 0 = 1 && s.getF (a + 0xC) 1 1 = 0

/-- Is it the turn of an escalated gleaner visit: every access admitted before it has completed (R87)? -/
def gleanTurn (s : State) (t : Nat) : Bool := (s.pillar t).gleanAdmitted = some 0 && s.gleans t

/-- A staged line is about to be written to the pillar of tile `t`: the hold of a sampled step keeps the codeword as it was
at the step's start (R400). -/
def keepStaged (s : State) (t : Nat) (r : MemReq) : State :=
  match r.src with
  | .staged _ _ => s.keepBefore t (r.dpa % 2 ^ 25 / 64 * 64)
  | _ => s

/-- The oldest admitted access completes, unless an escalated gleaner visit goes before it (R79, R87). -/
def accessDone (s : State) (t : Nat) (env : Env) : State :=
  match (s.pillar t).admitted with
  | [] => s
  | r :: rest =>
    if s.gleanTurn t then s
    else
      let s := (s.onPillar t fun p =>
        { p with admitted := rest, gleanAdmitted := p.gleanAdmitted.map fun n => n - 1 }).upset env
      let (l, s) := (s.keepStaged t r).performReq env r (.field t (r.dpa % 2 ^ 25))
      (s.answerReq r l).settle t

/-! ### Paddock modes (R75, R76) -/

/-- A write of PADDOCK.MODE. -/
def writeMode (s : State) (p v : Nat) : State :=
  let a := (Page.paddock p).base + 0x40
  if s.gangs.any fun g => g.2.live && (s.gangTiles g.1).any fun t => paddockOf t = p then s.log (.paddock p) .modeBusy
  else
    let s := s.setF a 0 0 (v % 2)
    if s.getF a 8 8 = v % 2 then s else s.setF a 9 9 1

/-- The pillar controllers of a paddock have finished what they had admitted, and switch. -/
def switchMode (s : State) (p : Nat) : State :=
  let a := (Page.paddock p).base + 0x40
  if s.getF a 9 9 = 1 ∧ s.pillars.all (fun x => decide (paddockOf x.1 ≠ p) || x.2.admitted.isEmpty) then
    (s.setF a 8 8 (s.getF a 0 0)).setF a 9 9 0
  else s

/-! ### Refresh (R80 to R85) -/

/-- Is bank `b` of pillar `t` held: by an admitted access, or by an entry of the tile that stays in it (R83)? (log 41:
DEDUCED) -/
def bankHeld (s : State) (t b : Nat) : Bool := s.bankAdmitted t b || (s.sequences t).contains b

/-- Refreshes owed by bank `b` of pillar `t`. -/
def owed (s : State) (t b : Nat) : Nat := SMap.look 0 (s.pillar t).owed b

/-- Set the refreshes owed, keeping the highest count for REFRESH_MAXOWED: a MAXOWED that has been cleared reads 0 until the
next refresh that falls due is owed (R85). (log 12: DESIGN CHOICE) -/
def setOwed (s : State) (t b n : Nat) : State :=
  (s.onPillar t fun p => { p with owed := SMap.put 0 p.owed b n }).peakF ((Page.paddock (paddockOf t)).base + 0x48) 3 0 n

/-- A due time: the refresh interval that the last temperature reading asks for applies from now on (R81). -/
def applyHot (s : State) (p : Nat) : State :=
  s.setF ((Page.paddock p).base + 0x44) 8 8 (b2n (SMap.look false s.st.hotNext p))

/-- A refresh falls due: a bank that nothing holds is refreshed at once and owes none, another owes up to eight (R82,
R83). -/
def refreshDue (s : State) (t b : Nat) : State :=
  let s := (s.applyHot (paddockOf t)).settle t
  if s.bankHeld t b ∧ s.owed t b < 8 then s.setOwed t b (s.owed t b + 1) else s

/-- A ninth refresh falls due while eight are owed in a bank that is held: one is forced (R83, R85). -/
def forceRefresh (s : State) (t b : Nat) : State :=
  let s := s.settle t
  if s.bankHeld t b ∧ s.owed t b = 8 then s.addF ((Page.paddock (paddockOf t)).base + 0x50) 63 0 1 else s

/-- What refresh and the gleaner do at the pillar of tile `t`: they start with boot stage 10 (R442), stand still with ACLK of the
paddock (R476) and end with a thermal trip (R452). -/
def inField (s : State) (t : Nat) (s' : State) : State :=
  if 10 ≤ s.getF 0x1040 3 0 ∧ !s.st.thermtrip then s.inClock (16 + paddockOf t) s' else s

/-! ### The gleaner (R86 to R88) -/

/-- Set PASS_DONE once every pillar of the paddock has completed a pass since it was last cleared. -/
def passDone (s : State) (p : Nat) : State :=
  if (List.range 272).all fun i => (s.pillar (272 * p + i)).gleaned then s.setF ((Page.paddock p).base + 0x58) 1 1 1 else s

/-- Visit the next row of pillar `t`: read and classify its 16 codewords. -/
def glean (s : State) (t : Nat) (env : Env) : State :=
  let r := (s.pillar t).gleanRow
  let s := s.upset env
  let s := if s.pillarDead t then s
    else foldEach (List.range 16) s fun k s => (s.readCw false (t * 2 ^ 19 + 16 * r + k)).2
  let s := s.onPillar t fun p =>
    { p with gleanRow := (r + 1) % 32768, gleaned := p.gleaned || decide (r = 32767), gleanAdmitted := none }
  s.passDone (paddockOf t)

/-- May the due visit of pillar `t` run: as an admitted access once those admitted before it have completed, otherwise only
in a bank that no higher source needs (R68, R87). -/
def mayGlean (s : State) (t : Nat) : Bool :=
  let p := s.pillar t
  let b := p.gleanRow % 8
  s.gleans t && (if p.gleanAdmitted.isSome then s.gleanTurn t else !s.bankAdmitted t b && !(s.banksNeeded t).contains b)

/-- A write of PADDOCK.GLEAN: EN, and PASS_DONE cleared by a one. -/
def writeGlean (s : State) (p v : Nat) : State :=
  let s := s.setF ((Page.paddock p).base + 0x58) 0 0 (v % 2)
  if bit v 1 then
    foldEach (List.range 272) (s.setF ((Page.paddock p).base + 0x58) 1 1 0) fun i s =>
      if (s.pillar (272 * p + i)).gleaned then s.onPillar (272 * p + i) fun x => { x with gleaned := false } else s
  else s

end State

/-! ### Rows -/

/-- MODE_SWITCH_DONE (R76). -/
def execModeSwitchDone (p : Nat) (s : State) : Res := guardUnit (isPaddock p) (s.inClock (16 + p) (s.switchMode p))

/-- SLOT_ADMIT: at a slot beat in FIELD mode, at any beat in MEMORY mode (R72, R77). -/
def execSlotAdmit (t : Nat) (s : State) : Res := guardUnit (isTile t) (s.inClock (16 + paddockOf t) (s.admitNext t))

/-- PILLAR_ACCESS_DONE (R64, R79). -/
def execPillarAccessDone (t : Nat) (env : Env) (s : State) : Res := guardUnit (isTile t) (s.inClock (16 + paddockOf t) (s.accessDone t env))

/-- REFRESH_DUE (R80, R82). -/
def execRefreshDue (t b : Nat) (s : State) : Res := guardUnit (isTile t && b < 8) (s.inField t (s.refreshDue t b))

/-- FORCED_REFRESH (R83). -/
def execForcedRefresh (t b : Nat) (s : State) : Res := guardUnit (isTile t && b < 8) (s.inField t (s.forceRefresh t b))

/-- GLEAN_VISIT (R86). -/
def execGleanVisit (t : Nat) (env : Env) (s : State) : Res :=
  guardUnit (isTile t) (s.inField t (if s.mayGlean t then s.glean t env else s))

/-- GLEAN_ESCALATE: a visit that has waited 2^20 cycles is to run as an admitted access (R87). -/
def execGleanEscalate (t : Nat) (s : State) : Res :=
  guardUnit (isTile t)
    (s.inField t (if s.gleans t then
      s.onPillar t fun p => { p with gleanAdmitted := p.gleanAdmitted.orElse fun _ => some p.admitted.length }
    else s))

/-- BEAT_COUNTER_WRAP: the counter passes 2^48 - 1, and WRAP is set (R55). -/
def execBeatCounterWrap (t : Nat) (s : State) : Res :=
  guardUnit (isTile t)
    (s.inClock (16 + paddockOf t) ((s.onPillar t fun p => { p with beat := 0 }).setF ((Page.tile t).base + 0xA4) 0 0 1))

/-- CYCLE_COUNTER_WRAP: the counter passes 2^64 - 1 (R54). -/
def execCycleCounterWrap (t : Nat) (s : State) : Res := guardUnit (isTile t)
    (s.inClock (paddockOf t) (s.onTile t fun x => { x with cycle := 0 }))

end Sys2Proof.Machine
end

