-- ==== Sys2Proof/Machine/Barn.lean ====
section
/-! DEFINITION. The barn controllers: lanes, read and write queues, merge, drain and panic (R302 to R311), refresh,
self-refresh and scrub (R314 to R318), bank hashes (R299, R300) and the retrain of a channel (R321 to R323). -/

namespace Sys2Proof.Machine

/-- A line of no bytes, the answer to a write. -/
def noLine : Line := ⟨[], false⟩

namespace State

/-! ### Panic (R309, R310, R337) -/

/-- Does the buffer of some ridge port hold ridge panic (`RIDGE.STATUS.PANIC`)? -/
def ridgePanic (s : State) : Bool := (List.range 6).any fun p => s.getF ((Page.ridge p).base + 0x44) 3 3 = 1

/-- Is a request a panic request: one that has waited 1 µs, or one of a port in panic? A mesh request never is (R309,
R310). -/
def isPanic (s : State) (r : MemReq) : Bool :=
  r.aged || (if r.lane = 0 then s.hostPanic else r.lane = 1 && s.ridgePanic)

/-- Lane `i` of channel `c`, and replacing it. -/
def lane (s : State) (c i : Nat) : List MemReq :=
  let ch := s.channel c
  if i = 0 then ch.lane0 else if i = 1 then ch.lane1 else ch.lane2
def setLane (s : State) (c i : Nat) (l : List MemReq) : State :=
  s.onChannel c fun ch =>
    if i = 0 then { ch with lane0 := l } else if i = 1 then { ch with lane1 := l } else { ch with lane2 := l }

/-- The barn offset of a request. -/
def reqOff (r : MemReq) : Nat := r.dpa - 0x2000000000

/-! ### Acceptance (R303 to R306, R323) -/

/-- Reads of bank `b` accepted and not performed. -/
def bankReads (s : State) (c b : Nat) : List BarnRead :=
  (s.channel c).reads.filter fun r => s.bankOf (reqOff r.req) = b

/-- Merge a write into the entry of its codeword (R305): a whole write replaces it and clears its blight. -/
def mergeWrite (w : WqEntry) (data : List Byte) (be : Nat) (poison : Bool) (seq : Nat) : WqEntry :=
  if be = 2 ^ 64 - 1 then { w with line := ⟨data, poison⟩, mask := be, poison, merged := true, seq }
  else if w.merged then { w with line := mergeLine w.line data be poison, seq }
  else
    { w with line := ⟨mergeBytes (bit be) w.line.data data, false⟩, mask := w.mask ||| be, poison := w.poison || poison, seq }

/-- Accept a write into the write queue; none when it is full. -/
def acceptWrite (s : State) (c : Nat) (dpa : Nat) (data : List Byte) (be : Nat) (poison : Bool) : Option State :=
  let ws := (s.channel c).writes
  let seq := (s.channel c).accepted
  if ws.any fun w => w.dpa = dpa then
    some (s.onChannel c fun ch =>
      { ch with accepted := seq + 1
                writes := ch.writes.map fun w => if w.dpa = dpa then mergeWrite w data be poison seq else w })
  else if ws.length < 32 then
    let blank : WqEntry :=
      { dpa, line := ⟨zeros 64, false⟩, mask := 0, poison := false, merged := false, seq, passed := 0 }
    some (s.onChannel c fun ch =>
      { ch with accepted := seq + 1, writes := ch.writes ++ [mergeWrite blank data be poison seq] })
  else none

/-- Accept the request at the head of a lane; none when its target queue is full. A DEAD channel answers at once. -/
def acceptReq (s : State) (c : Nat) (env : Env) (r : MemReq) : Option State :=
  let o := reqOff r
  let put := fun (data : List Byte) (be : Nat) (poison bad : Bool) =>
    let bad := bad || encBad env (.barn o)
    if (s.channel c).dead then some (s.answerReq r noLine)
    else
      let s := if bad then s.parityIn (.barn o) else s
      (s.acceptWrite c (r.dpa / 64 * 64) data be (poison || bad)).map fun s => s.answerReq r noLine
  match r.op with
  | .read =>
    if (s.channel c).dead then
      let (l, s) := s.deadLine
      some (s.answerReq r l)
    else if (s.bankReads c (s.bankOf o)).length < 8 then
      some (s.onChannel c fun ch =>
        { ch with
          accepted := ch.accepted + 1
          reads := ch.reads ++
            [{ req := r, fwd := ch.writes.find? fun w => w.dpa = r.dpa / 64 * 64, kept := none, seq := ch.accepted, passed := 0 }] })
    else none
  | .write data poison bad => put data (2 ^ 64 - 1) poison bad
  | .partialWrite data be poison bad => if be = 0 then some (s.answerReq r noLine) else put data be poison bad
  | .mark => put (zeros 64) 0 true false

/-! ### Write drain (R307, R308) -/

/-- Is a read ready: not waiting for the merge of the write-queue entry that answers it (R306)? -/
def readReady (s : State) (c : Nat) (r : BarnRead) : Bool :=
  match r.fwd with
  | some e => e.merged || !(s.channel c).writes.any fun w => w.dpa = e.dpa && !w.merged
  | none => true

/-- The thresholds of write drain. -/
def drainHi (s : State) (c : Nat) : Nat := min 32 (s.getF ((Page.barn c).base + 0x5C) 5 0)
def drainLo (s : State) (c : Nat) : Nat :=
  let lo := s.getF ((Page.barn c).base + 0x5C) 13 8
  if s.drainHi c ≤ lo then s.drainHi c - 1 else lo

/-- Is the controller in write drain, the queues being as they are (R308)? -/
def drainNow (s : State) (c : Nat) : Bool :=
  let ch := s.channel c
  let some := ch.reads.any (s.readReady c)
  if ch.draining then !(ch.writes.length ≤ s.drainLo c && some) else s.drainHi c ≤ ch.writes.length || !some

/-- The queues or the thresholds have changed: write drain is entered or left. -/
def updateDrain (s : State) (c : Nat) : State :=
  let on := s.drainNow c
  s.onChannel c fun ch => { ch with draining := on }

/-- May an entry drain: merged, and no read accepted before it waits for the codeword (R307, R308)? -/
def mayDrain (s : State) (c : Nat) (w : WqEntry) : Bool :=
  w.merged && !(s.channel c).reads.any fun r => r.req.dpa / 64 * 64 = w.dpa && r.seq < w.seq

/-- The lane served next: one that holds a panic request first, else in rotation after the lane served last; a lane whose
head cannot be accepted is passed over (R303, R309, R310). -/
def acceptNext (s : State) (c : Nat) (env : Env) : State :=
  let ch := s.channel c
  let order := (List.range 3).map fun i => (ch.lastLane + 1 + i) % 3
  let panics := order.filter fun i => (s.lane c i).any s.isPanic
  let others := order.filter fun i => !(s.lane c i).any s.isPanic
  let tries := (panics ++ others).filterMap fun i =>
    match s.lane c i with
    | [] => none
    | r :: rest => ((s.setLane c i rest).acceptReq c env r).map fun s' => (i, s')
  match tries with
  | (i, s') :: _ => ((s'.onChannel c fun ch => { ch with lastLane := i }).updateDrain c).drainHosts
  | [] => s

/-- Does channel `c` accept requests: not in self-refresh, not training, not quiescing (R316, R321, R467)? -/
def accepts (s : State) (c : Nat) : Bool :=
  let ch := s.channel c
  ch.dead || (!ch.selfRefresh && !ch.training && s.getF ((Page.barn c).base + 0xC) 1 1 = 0)

/-! ### Refreshes that are owed (R314, R315) -/

/-- Has bank `b` (any bank, from key 32 on) a queued request? -/
def bankQueued (s : State) (c b : Nat) : Bool :=
  let ch := s.channel c
  let at_ := fun (dpa : Nat) => 32 ≤ b || s.bankOf (dpa - 0x2000000000) = b
  ch.reads.any (fun r => at_ r.req.dpa) || ch.writes.any fun w => at_ w.dpa

/-- Refreshes owed by banks that have no queued request are issued. (log 41: DEDUCED) -/
def settleBarn (s : State) (c : Nat) : State :=
  if (s.channel c).owed = [] then s
  else s.onChannel c fun ch => { ch with owed := ch.owed.filter fun e => s.bankQueued c e.1 }

/-! ### The scheduler (R306 to R311) -/

/-- What a bank may be working on: a merge read of a write-queue entry, a write entry, or a read. -/
inductive BankWork where
  | merge (w : WqEntry)
  | write (w : WqEntry)
  | read (r : BarnRead)

/-- The write entry that is issued next in write drain: the oldest merged one that may drain (R308). -/
def drainEntry? (s : State) (c : Nat) : Option WqEntry :=
  if (s.channel c).draining then (s.channel c).writes.find? (s.mayDrain c) else none

/-- The requests of bank `b`: merge reads first, then in drain a write entry, then reads, each kind oldest first (R305, R308,
R311). (log 40: DEDUCED) -/
def bankWork (s : State) (c b : Nat) : List BankWork :=
  let here := fun (w : WqEntry) => s.bankOf (w.dpa - 0x2000000000) = b
  (((s.channel c).writes.filter fun w => !w.merged && here w).map BankWork.merge) ++
    ((((s.drainEntry? c).toList).filter fun w => here w).map BankWork.write) ++ ((s.bankReads c b).map BankWork.read)

/-- Is this a panic read; has it been passed 16 times? -/
def BankWork.panic (s : State) : BankWork → Bool
  | .read r => s.isPanic r.req
  | _ => false
def BankWork.passedOver (s : State) : BankWork → Bool
  | .merge w => 16 ≤ w.passed
  | .write _ => false
  | .read r => !s.isPanic r.req && 16 ≤ r.passed

/-- May it be issued now: a merge read or a write entry always; a read once it is ready, in write drain only a panic read while the write
queue is not full, one answered from the write queue, or any when no entry can drain (R306, R308, R309)? (log 40:
DEDUCED) -/
def workReady (s : State) (c : Nat) : BankWork → Bool
  | .merge _ => true
  | .write _ => true
  | .read r =>
    let ch := s.channel c
    s.readReady c r &&
      (!ch.draining || r.fwd.isSome || (s.isPanic r.req && ch.writes.length < 32) || !ch.writes.any (s.mayDrain c))

/-- What bank `b` does next: a request that panic reads have passed 16 times, else the oldest panic read, of those that may
be issued; else the first of its work (R309, R311). A read that waits for a merge read of its bank does not go before
it. -/
def bankNext (s : State) (c b : Nat) : Option BankWork :=
  let ws := s.bankWork c b
  let ready := ws.filter (s.workReady c)
  match ready.find? (BankWork.passedOver s) with
  | some w => some w
  | none =>
    match ready.find? (BankWork.panic s) with
    | some w => some w
    | none => ws.head?

/-- The bank that is picked next: of those with work ready, one with a panic read first, in rotation after the bank picked
last (R309, R311). (log 40: DEDUCED) -/
def pickBank (s : State) (c : Nat) : Option Nat :=
  let order := (List.range 32).map fun i => ((s.channel c).lastBank + 1 + i) % 32
  let ready := order.filter fun b => (s.bankNext c b).any (s.workReady c)
  match ready.find? fun b => (s.bankWork c b).any (BankWork.panic s) with
  | some b => some b
  | none => ready.head?

/-- What an accepted read returns: its entry's data as they stood, merged if need be, or the codeword (R306, R307). -/
def readValue (s : State) (r : BarnRead) : Line × State :=
  let o := reqOff r.req
  let dram := fun (s : State) => match r.kept with | some l => (l, s) | none => s.readCw true (o / 64)
  match r.fwd with
  | none => dram s
  | some w =>
    let s := s.addF ((Page.barn (channelOf o)).base + 0x80) 63 0 1
    if w.merged then (w.line, s)
    else
      let (old, s) := dram s
      (mergeLine old w.line.data w.mask w.poison, s)

/-- Take a read out of its queue; a panic read passes the older others of its bank, merge reads among them. -/
def popRead (s : State) (c b : Nat) (r : BarnRead) : State :=
  let panic := s.isPanic r.req
  let before := (s.channel c).reads.takeWhile fun x => x ≠ r
  let after := (s.channel c).reads.drop (before.length + 1)
  let bump := fun (x : BarnRead) =>
    if panic && !s.isPanic x.req && s.bankOf (reqOff x.req) = b then { x with passed := x.passed + 1 } else x
  let bumpMerge := fun (w : WqEntry) =>
    if panic && !w.merged && s.bankOf (w.dpa - 0x2000000000) = b then { w with passed := w.passed + 1 } else w
  s.onChannel c fun ch => { ch with reads := before.map bump ++ after, writes := ch.writes.map bumpMerge, lastBank := b }

/-- Perform the next read of bank `b`, when the scheduler picks it. -/
def readDone (s : State) (c b : Nat) (env : Env) : State :=
  if s.pickBank c = some b then
    match s.bankNext c b with
    | some (.read r) =>
      let s := (s.popRead c b r).upset env
      let (l, s) := s.readValue r
      ((s.answerReq r.req l).updateDrain c).settleBarn c
    | _ => s
  else s

/-- The merge read of write-queue entry `i` completes, when the scheduler picks it. -/
def mergeDone (s : State) (c i : Nat) (env : Env) : State :=
  match (s.channel c).writes[i]? with
  | none => s
  | some w =>
    let b := s.bankOf (w.dpa - 0x2000000000)
    if s.pickBank c = some b then
      match s.bankNext c b with
      | some (.merge w') =>
        if w' = w then
          (((s.onChannel c fun ch => { ch with lastBank := b }).upset env).mergeAt w.dpa).updateDrain c
        else s
      | _ => s
    else s

/-- Write an entry to the DRAM. -/
def drainEntry (s : State) (c : Nat) (w : WqEntry) : State :=
  (s.onChannel c fun ch => { ch with writes := ch.writes.filter fun x => x.dpa ≠ w.dpa }).storeCw true
    ((w.dpa - 0x2000000000) / 64) w.line

/-- Enter or leave write drain, and in drain issue the write entry that is next, when the scheduler picks its bank. -/
def writeDrain (s : State) (c : Nat) : State :=
  let s := s.updateDrain c
  match s.drainEntry? c with
  | none => s
  | some w =>
    let b := s.bankOf (w.dpa - 0x2000000000)
    if s.pickBank c = some b then
      match s.bankNext c b with
      | some (.write _) =>
        (((s.onChannel c fun ch => { ch with lastBank := b }).drainEntry c w).updateDrain c).settleBarn c
      | _ => s
    else s

/-! ### Refresh, self-refresh and scrub (R314 to R317) -/

/-- At a due time the refresh mode and the hot intervals that have been asked for apply. Refreshes owed are carried over,
32 per-bank ones counting as one all-bank refresh; what is left of 32 is kept, and goes to the first banks on the way back
(R314). (log 41: DEDUCED) -/
def applyModes (s : State) (c : Nat) : State :=
  let a := (Page.barn c).base
  let ch := s.channel c
  let s := s.setF (a + 0x60) 2 2 (b2n ch.hotNext)
  let want := s.getF (a + 0x40) 2 2 = 1
  let owed := fun (k : Nat) => SMap.look 0 ch.owed k
  if ch.allBank = decide want then s
  else if want then
    let sum := (List.range 32).foldl (fun n b => n + owed b) (owed 33)
    s.onChannel c fun ch => { ch with allBank := true, owed := SMap.put 0 (SMap.put 0 [] 32 (sum / 32)) 33 (sum % 32) }
  else
    s.onChannel c fun ch =>
      { ch with
        allBank := false
        owed := (List.range 32).foldl (fun m b => SMap.put 0 m b (min 8 (owed 32 + b2n (b < owed 33)))) [] }

/-- The key of the refreshes owed by bank `b`: 32, the all-bank count, while all-bank refresh is in force. -/
def refreshKey (s : State) (c b : Nat) : Nat := if (s.channel c).allBank then 32 else b

/-- A refresh falls due: idle banks are refreshed at once, others owe up to eight. In self-refresh none falls due. -/
def barnRefresh (s : State) (c b : Nat) : State :=
  if (s.channel c).selfRefresh then s
  else
    let s := (s.applyModes c).settleBarn c
    let k := s.refreshKey c b
    let owed := SMap.look 0 (s.channel c).owed k
    if s.bankQueued c k ∧ owed < 8 then
      (s.onChannel c fun ch => { ch with owed := SMap.put 0 ch.owed k (owed + 1) }).peakF ((Page.barn c).base + 0x60) 27 24
        (owed + 1)
    else s

/-- A ninth refresh falls due while eight are owed and a request is queued: one is forced. It is a due time, at which the
modes asked for apply first. -/
def barnForce (s : State) (c b : Nat) : State :=
  let s := if (s.channel c).selfRefresh then s else (s.applyModes c).settleBarn c
  let k := s.refreshKey c b
  if SMap.look 0 (s.channel c).owed k = 8 ∧ s.bankQueued c k then s.addF ((Page.barn c).base + 0x90) 63 0 1 else s

/-- Has channel `c` no request anywhere? -/
def channelIdle (s : State) (c : Nat) : Bool :=
  let ch := s.channel c
  ch.lane0.isEmpty && ch.lane1.isEmpty && ch.lane2.isEmpty && ch.reads.isEmpty && ch.writes.isEmpty

/-- Enter self-refresh after IDLE_SR idle cycles, every refresh owed having been issued. -/
def enterSelfRefresh (s : State) (c : Nat) : State :=
  let ch := s.channel c
  if s.channelIdle c ∧ s.reg ((Page.barn c).base + 0x58) ≠ 0 ∧ !ch.training ∧ !ch.dead then
    s.onChannel c fun ch => { ch with selfRefresh := true, owed := [] }
  else s

/-- Channel `c` leaves self-refresh, if it is in it. -/
def wakeChannel (s : State) (c : Nat) : State :=
  if (s.channel c).selfRefresh then
    (s.onChannel c fun ch => { ch with selfRefresh := false, owed := [] }).addF ((Page.barn c).base + 0x88) 63 0 1
  else s

/-- Leave self-refresh: for a request that waits in a lane, or to train. -/
def exitSelfRefresh (s : State) (c : Nat) : State :=
  if !s.channelIdle c ∨ (s.channel c).training then s.wakeChannel c else s

/-- The barn offset of the `k`th codeword of channel `c`, in address order (R298). -/
def scrubOff (c k : Nat) : Nat := k / 4 * 16384 + c * 256 + k % 4 * 64

/-- One patrol read. -/
def scrubOne (s : State) (c : Nat) (env : Env) : State :=
  let ch := s.channel c
  if s.getF ((Page.barn c).base + 0x40) 3 3 = 1 ∧ !ch.selfRefresh ∧ !ch.training ∧ !ch.dead then
    let s := ((s.upset env).readCw true (scrubOff c ch.scrub / 64)).2
    s.onChannel c fun x => { x with scrub := (ch.scrub + 1) % 2 ^ 26 }
  else s

/-! ### Bank hashes (R299, R300) -/

/-- Is `m` a legal mask for bank bit `i`: DPA bit 17 + i and no other of DPA[21:17]? -/
def hashLegal (i m : Nat) : Bool := bits m 15 11 = 2 ^ i

/-- Where a codeword at barn offset `o` of channel `c` is found once mask `i` has changed from `old` to `new`: its row,
column and bank stay, so DPA bit 17 + i flips when the masks disagree on the bits above and below the bank field. (log
42: DEDUCED) -/
def rehash (c i old new o : Nat) : Nat :=
  let d := (old ^^^ new) &&& (2 ^ 30 - 1 - 31 * 2 ^ 11)
  if channelOf o = c ∧ xorBits ((o + 0x2000000000) / 64) d = 1 then o ^^^ 2 ^ (17 + i) else o

/-- A write of BANKHASH `i`. No data move; the addresses that name them do. -/
def writeBankHash (s : State) (c i v : Nat) : State :=
  let a := (Page.barn c).base + 0x44 + 4 * i
  let m := v % 2 ^ 30
  if s.getF ((Page.barn c).base + 0xC) 2 2 = 1 then s
  else if !hashLegal i m then s.log (.barn c) .bankHash
  else
    let f := rehash c i (s.reg a) m
    let data := s.barnData.foldl (fun n e => SMap.put 0 n (f (e.1 / 64 * 64) + e.1 % 64) e.2) []
    let check := s.barnCheck.foldl (fun n e => SMap.put 0 n (f (64 * (e.1 / 8)) / 8 + e.1 % 8) e.2) []
    { s.setReg a m with barnData := data, barnCheck := check }

/-- A write of BARN.CTRL. LOCK is PAGE_CTRL.LOCK; REFMODE takes effect at the next due time (R314). -/
def writeBarnCtrl (s : State) (c v : Nat) : State :=
  let a := (Page.barn c).base + 0x40
  let s := if bit v 0 then (s.setF a 0 0 1).setF ((Page.barn c).base + 0xC) 2 2 1 else s
  s.setF a 3 1 (bits v 3 1)

/-- What the controller of channel `c` does: it begins with boot stage 7 (R442), stands still with the BCLK of its stack (R476)
and ends with a thermal trip (R452). -/
def inBarn (s : State) (c : Nat) (s' : State) : State :=
  if 7 ≤ s.getF 0x1040 3 0 ∧ !s.st.thermtrip then s.inClock (32 + c / 16) s' else s

/-! ### Retrain (R321 to R323) -/

/-- Perform every queued read of channel `c`. -/
def drainReads (s : State) (c : Nat) : State :=
  let rs := (s.channel c).reads
  let s := foldEach rs s fun r s =>
    let (l, s) := s.readValue r
    s.answerReq r.req l
  s.onChannel c fun ch => { ch with reads := [] }

/-- Merge and write every write-queue entry of channel `c`. -/
def drainWrites (s : State) (c : Nat) : State :=
  foldEach ((s.channel c).writes.map (·.dpa)) s fun dpa s =>
    let s := s.mergeAt dpa
    match (s.channel c).writes.find? fun w => w.dpa = dpa with
    | some w => s.drainEntry c w
    | none => s

/-- A retrain of channel `c` is to begin: it stops accepting and shows BUSY. One that trains or is DEAD takes no further
trigger (R321, R322). -/
def beginTraining (s : State) (c : Nat) : State :=
  if (s.channel c).training ∨ (s.channel c).dead then s
  else (s.onChannel c fun ch => { ch with training := true }).setF ((Page.barn c).base + 0x64) 1 1 1

/-- The retrain of channel `c` runs its course: queues empty, self-refresh is left, one attempt or two are made; a channel
that fails twice is DEAD. -/
def retrain (s : State) (c : Nat) (ok1 ok2 : Bool) : State :=
  let a := (Page.barn c).base
  let s := (((s.drainReads c).drainWrites c).onChannel c fun ch => { ch with training := true }).exitSelfRefresh c
  let s := s.onChannel c fun ch => { ch with training := false, owed := [], window := 0, draining := true }
  let s := s.setF (a + 0x64) 1 1 0
  let s := if ok1 then s else s.setF (a + 0x64) 2 2 1
  if ok1 || ok2 then s
  else (s.onChannel c fun ch => { ch with dead := true }).log (.barn c) .trainFail

end State

/-! ### Rows -/

/-- BARN_REQUEST_ACCEPT (R303 to R306). -/
def execBarnRequestAccept (c : Nat) (env : Env) (s : State) : Res :=
  guardUnit (isChannel c) (s.inBarn c (if s.accepts c then (s.upset env).acceptNext c env else s))

/-- BARN_READ_DONE (R306, R309). -/
def execBarnReadDone (c b : Nat) (env : Env) (s : State) : Res := guardUnit (isChannel c && b < 32) (s.inBarn c (s.readDone c b env))

/-- BARN_MERGE_READ_DONE (R305). -/
def execBarnMergeReadDone (c i : Nat) (env : Env) (s : State) : Res := guardUnit (isChannel c) (s.inBarn c (s.mergeDone c i env))

/-- BARN_WRITE_DRAIN (R308). -/
def execBarnWriteDrain (c : Nat) (env : Env) (s : State) : Res := guardUnit (isChannel c) (s.inBarn c ((s.upset env).writeDrain c))

/-- BARN_REFRESH_DUE (R314, R315). -/
def execBarnRefreshDue (c b : Nat) (s : State) : Res := guardUnit (isChannel c && b < 32) (s.inBarn c (s.barnRefresh c b))

/-- BARN_FORCED_REFRESH (R315). -/
def execBarnForcedRefresh (c b : Nat) (s : State) : Res := guardUnit (isChannel c && b < 32) (s.inBarn c (s.barnForce c b))

/-- SELF_REFRESH_ENTRY (R316). -/
def execSelfRefreshEntry (c : Nat) (s : State) : Res := guardUnit (isChannel c) (s.inBarn c (s.enterSelfRefresh c))

/-- SELF_REFRESH_EXIT (R316). -/
def execSelfRefreshExit (c : Nat) (s : State) : Res := guardUnit (isChannel c) (s.inBarn c (s.exitSelfRefresh c))

/-- BARN_SCRUB (R317). -/
def execBarnScrub (c : Nat) (env : Env) (s : State) : Res := guardUnit (isChannel c) (s.inBarn c (s.scrubOne c env))

/-- CORR_WINDOW_END (R321). -/
def execCorrWindowEnd (c : Nat) (s : State) : Res :=
  guardUnit (isChannel c) (s.inBarn c (s.onChannel c fun ch => { ch with window := 0 }))

/-- HOST_REQUEST_AGE: entry `i` of a host or ridge lane, counted on through the lane's accepted reads, has waited 1 µs
(R310). -/
def execHostRequestAge (c lane i : Nat) (s : State) : Res :=
  guardUnit (isChannel c && lane < 2)
    (s.inBarn c (let q := s.lane c lane
     if i < q.length then
       s.setLane c lane (q.zipIdx.map fun p => if p.2 = i then { p.1 with aged := true } else p.1)
     else
       let mine := (s.channel c).reads.filter fun r => r.req.lane = lane
       match mine[i - q.length]? with
       | some r =>
         s.onChannel c fun ch =>
           { ch with reads := ch.reads.map fun x => if x = r then { x with req := { x.req with aged := true } } else x }
       | none => s))

end Sys2Proof.Machine
end

