-- ==== Sys2Proof/Machine/HostPort.lean ====
section
/-! DEFINITION. The host ports: CXL.mem requests, HDM decoders, links and port resets, MSI-X masks, the mailbox, DOE and
CDAT (R368 to R395). -/

namespace Sys2Proof.Machine

namespace State

/-! ### Links -/

/-- The LINK register of head `h`, its STATE, and whether the link is up: only then do requests reach the module. -/
def linkReg (h : Nat) : Nat := (Page.host h).base + 0x40
def headUp (s : State) (h : Nat) : Bool := s.getF (linkReg h) 2 0 = 2

/-- Does the module hear head `h`: its link is up and the clock of the host ports runs (R476)? -/
def headHears (s : State) (h : Nat) : Bool := s.headUp h && !s.pllLost 36

/-- LINK.STATE of head `h` as it begins to train: a port without its reference clock never trains (R490). -/
def linkTrains (s : State) (h : Nat) : Nat := b2n (if h = 0 then s.straps.refH0 else s.straps.refH1)

/-- Is CXL.mem enabled on head `h` (R372)? -/
def memUp (s : State) (h : Nat) : Bool := s.headUp h && s.getF (linkReg h) 11 11 = 0

/-- A link finishes training (R372). -/
def linkUp (s : State) (h : Nat) (rate : LinkRate) (width : Nat) (flit256 : Bool) : State :=
  let code := match rate with | .below32 => 0 | .gt32 => 1 | .gt64 => 2
  let off := decide (rate = .below32) || !(width = 16 || width = 8)
  let s := s.setReg (linkReg h) (2 + 8 * code + 32 * (width % 32) + 1024 * b2n flit256 + 2048 * b2n off)
  if off then s.log (.host h) .linkDegraded else s

/-! ### Decoding a request (R374, R381 to R384) -/

/-- The DPA base of decoder `d` of a port (R382). -/
def dpaBase (p : HostPort) (d : Nat) : Nat :=
  if d = 0 then p.hdm0.cfg.skip else p.hdm0.cfg.skip + p.hdm0.cfg.size + p.hdm1.cfg.skip

/-- The DPA of a host address, through the committed decoder whose range holds it. -/
def decodeHpa (p : HostPort) (a : Nat) : Option Nat :=
  let hit := fun (x : HdmDecoder) => x.committed && x.cfg.base ≤ a && a < x.cfg.base + x.cfg.size
  if hit p.hdm0 then some (dpaBase p 0 + (a - p.hdm0.cfg.base))
  else if hit p.hdm1 then some (dpaBase p 1 + (a - p.hdm1.cfg.base))
  else none

/-- Is the range of a DPA active (R374)? -/
def rangeActive (s : State) (dpa : Nat) : Bool := if dpa < 0x2000000000 then s.st.fieldActive else s.st.barnActive

/-- Is a head open to CXL.mem requests: enabled, with a credit to grant (R376)? -/
def takesMem (s : State) (h : Nat) : Bool := s.memUp h && (s.host h).ingress.length < 512

/-- A request is counted and enters the ingress buffer (R376). -/
def enter (s : State) (h : Nat) (w : Waiting) : State :=
  let a := (Page.host h).base
  let s := (s.addF (a + 0x68) 63 0 1).onHost h fun p => { p with ingress := p.ingress ++ [w] }
  (s.peakF (a + 0x4C) 25 16 (s.host h).ingress.length).updatePanic.drainHosts

/-- The answer of a request to a range that is not active or that no decoder matches: all ones with poison, or a
completion for a write that is discarded (R374). -/
def refusal : MemOp → MemAnswer
  | .read => .memData ⟨List.replicate 64 0xFF, true⟩
  | _ => .cmp

/-- Does a request carry Poison? -/
def opPoison : MemOp → Bool
  | .read => false
  | .write _ p _ => p
  | .partialWrite _ _ p _ => p
  | .mark => true

/-- A CXL.mem request that accesses memory: it is decoded as it arrives and enters the buffer, one that is refused with
its answer. (log 43: DEDUCED) -/
def memRequest (s : State) (h tag : Nat) (a : Nat) (op : MemOp) : State :=
  if !s.takesMem h then s
  else
    let s := if opPoison op then s.addF ((Page.host h).base + 0x58) 63 0 1 else s
    let refuse := fun (c : Cause) => (s.log (.host h) c).enter h (.reply tag (refusal op))
    match decodeHpa (s.host h) a with
    | none => refuse .decodeMiss
    | some dpa =>
      if !s.rangeActive dpa then refuse .notReady
      else s.enter h (.access { src := .host h tag, op, dpa := dpa / 64 * 64, aged := false })

/-- A request that makes no access (R379). -/
def memOther (s : State) (h : Nat) (w : Waiting) : State := if s.takesMem h then s.enter h w else s

/-- The oldest completed access of head `h` is answered: MemData alone for a read of HDM-H memory, Cmp for a write (R379,
R386). (log 46: PRESUMED) -/
def memRespond (s : State) (h : Nat) : State :=
  match (s.host h).responses with
  | [] => s
  | (tag, a) :: rest =>
    let s := (s.onHost h fun p => { p with responses := rest }).respond h tag a
    match a with
    | .memData l => if l.blight then s.addF ((Page.host h).base + 0x50) 63 0 1 else s
    | .cmp => s

/-! ### HDM decoders (R383) -/

/-- May decoder `d` of a port be committed with `r`? -/
def hdmOk (p : HostPort) (d : Nat) (r : HdmRequest) : Bool :=
  let m := 0x10000000
  let base := if d = 0 then r.skip else p.hdm0.cfg.skip + p.hdm0.cfg.size + r.skip
  r.base % m = 0 && r.size % m = 0 && r.skip % m = 0 && r.size ≠ 0 && r.iw ≤ 1 && r.ig ≤ 6 &&
    base + r.size ≤ 0x6000000000 && (d = 0 || p.hdm0.committed)

/-- A commit request. A committed decoder locked on commit does not change. -/
def hdmCommit (s : State) (h d : Nat) (r : HdmRequest) : State :=
  let p := s.host h
  let old := if d = 0 then p.hdm0 else p.hdm1
  let set := fun (x : HdmDecoder) (s : State) =>
    s.onHost h fun p => if d = 0 then { p with hdm0 := x } else { p with hdm1 := x }
  if !s.headUp h ∨ (old.committed ∧ old.cfg.lockOnCommit) then s
  else if hdmOk p d r then set { committed := true, err := false, cfg := r } s
  else (set { committed := false, err := true, cfg := r } s).log (.host h) .decodeConfig

/-! ### The configuration space (R368, R371) -/

/-- The configuration space of a head: the model's addresses after those of BAR0, and the power management control of the
function there. (log 15: DESIGN CHOICE) -/
def configBase : Nat := 0x4000000
def pmcsr : Nat := configBase + 0x44

/-! ### Port resets and FLR (R368, R373, R394, R470) -/

/-- The MSI-X table, pending bits, enable and Function Mask of head `h` return to their reset values. -/
def resetMsix (s : State) (h : Nat) : State :=
  let s := (List.range 288).foldl
    (fun s i =>
      let a := (Page.host h).base + 0x800 + 4 * i
      { s with regs := SMap.drop s.regs a }) s
  s.onHost h fun p => { p with msixEnable := false, functionMask := false, msixPending := [] }

/-- Does an FLR leave word `a` of a head alone: the component and device registers, and in the DVSEC for CXL devices the enable of
CXL.mem and the bases of the ranges (R368)? (log 90: PRESUMED) -/
def keepsFlr (a : Nat) : Bool :=
  a < configBase || a = configBase + 0x15C || (configBase + 0x170 ≤ a && a < configBase + 0x188)

/-- FLR: the function's CXL.io state, which is its configuration space, and its MSI-X settings; not CXL.mem nor the HDM decoders
(R368). -/
def flr (s : State) (h : Nat) : State :=
  (s.resetMsix h).onHost h fun p =>
    { p with pendingLow := none, readLatch := none, headRegs := p.headRegs.filter fun e => keepsFlr e.1 }

/-- A request whose head has been reset: a read is dropped, a write is performed and not answered. -/
def orphan (h : Nat) (r : MemReq) : MemReq :=
  match r.src with
  | .host k _ => if k = h then { r with src := .dropped } else r
  | .mail k => if k = h then { r with src := .post none } else r
  | _ => r

/-- Requests of head `h` already handed on are not answered. -/
def orphanAll (s : State) (h : Nat) : State :=
  { s with
    mesh := s.mesh.map (orphan h)
    pillars := s.pillars.map fun e =>
      (e.1, { e.2 with queue := e.2.queue.map (orphan h), admitted := e.2.admitted.map (orphan h) })
    channels := s.channels.map fun e =>
      (e.1, { e.2 with lane0 := e.2.lane0.map (orphan h), lane2 := e.2.lane2.map (orphan h)
                       reads := e.2.reads.map fun r => { r with req := orphan h r.req } }) }

/-- Reset head `h` alone; its LINK register takes `state` (R373). -/
def resetHead (s : State) (h state : Nat) : State :=
  let s := (s.orphanAll h).resetMsix h
  let s := s.onHost h fun p =>
    { p with ingress := [], responses := [], hdm0 := .reset, hdm1 := .reset, pendingLow := none, readLatch := none,
             policy := [0, 0, 0, 0], mailboxIrq := false, mailBusy := false, mailCode := 0, mailPayload := [], headRegs := [] }
  (s.setReg (linkReg h) state).updatePanic

/-- PERST# on H1, whose level counts while there is no power too (R487); a hot reset, or a link down. (log 44: DEDUCED) -/
def portReset (s : State) (h : Nat) (why : PortReset) : State :=
  match why with
  | .perst1 =>
    if h ≠ 1 then s
    else
      let s := if s.st.powered ∧ !s.st.thermtrip then s.resetHead 1 3 else s
      { s with st := { s.st with perst1 := true } }
  | .hotReset => if s.headUp h then s.resetHead h 1 else s
  | .linkDown => if s.headUp h then (s.resetHead h 1).addF ((Page.host h).base + 0x60) 31 16 1 else s

/-! ### MSI-X masks (R394) -/

/-- Send what is pending and unmasked at head `h`. -/
def sendPending (s : State) (h v : Nat) : State :=
  if (s.host h).msixPending.contains v && !s.vectorMasked h v && (s.host h).msixEnable then
    (s.onHost h fun p => { p with msixPending := p.msixPending.erase v }).emit (.msix h v)
  else s

/-- A write of a word of the MSI-X table of head `h` at page offset `off`. -/
def writeMsix (s : State) (h off v : Nat) : State :=
  (s.setReg ((Page.host h).base + off) (v % 2 ^ 32)).sendPending h ((off - 0x800) / 16)

/-! ### The mailbox (R389, R390) -/

/-- A free byte string of `n` bytes, for fields to which the manual gives no value. -/
def freeBytes (s : State) (n : Nat) : List Byte × State :=
  let (v, s) := s.takeFree (8 * n)
  (leBytes n v.toNat, s)

/-- A UUID of CXL 3.1, its bytes in the order written. -/
def uuidMedia : List Byte := beBytes 16 0xFBCD0A77C260417F85A9088B1621EBA6
def uuidModule : List Byte := beBytes 16 0xFE927475DD594339A58679BAB113B774
def uuidCel : List Byte := beBytes 16 0x0DA9C0B5BF414B788F7996B1623B3F17

/-- The 128 bytes of an event record: UUID, length, severity, handle, no timestamp (R3), and the body. Bytes the manual
does not give are free. -/
def eventBytes (s : State) (log : Nat) (e : EventRec) : List Byte × State :=
  let head := fun (u : List Byte) =>
    u ++ leBytes 1 128 ++ leBytes 3 log ++ leBytes 2 e.handle ++ leBytes 2 0 ++ leBytes 8 0 ++ zeros 16
  match e.body with
  | .media dpa =>
    let (rest, s) := s.freeBytes 72
    (head uuidMedia ++ leBytes 8 dpa ++ rest, s)
  | .thermal _ =>
    let (rest, s) := s.freeBytes 80
    (head uuidModule ++ rest, s)
  | .vendor sec =>
    let (u, s) := s.freeBytes 16
    (head u ++ padTo 80 sec, s)

/-- The bytes of records. -/
def eventsBytes (s : State) (log : Nat) : List EventRec → List Byte × State
  | [] => ([], s)
  | e :: es =>
    let (b, s) := s.eventBytes log e
    let (bs, s) := eventsBytes s log es
    (b ++ bs, s)

/-- Get Event Records: the oldest records, as many as 2 KiB holds, and the overflow count. -/
def getEvents (s : State) (h log : Nat) : State :=
  if 4 ≤ log then s.mailboxDone h 2 []
  else
    let all := SMap.look [] s.events.recs log
    let now := all.take 15
    let lost := SMap.look 0 s.events.overflow log
    let (body, s) := s.eventsBytes log now
    s.mailboxDone h 0
      (leBytes 1 (b2n (lost ≠ 0) + 2 * b2n (15 < all.length)) ++ zeros 1 ++ leBytes 2 (min lost 0xFFFF) ++ zeros 16 ++
        leBytes 2 now.length ++ zeros 10 ++ body)

/-- Clear Event Records: all of a log, or its oldest by handle; both heads share the logs. -/
def clearEvents (s : State) (h log : Nat) (all : Bool) (handles : List (BitVec 16)) : State :=
  let recs := SMap.look [] s.events.recs log
  let put := fun (rs : List EventRec) (s : State) =>
    { s with events := { s.events with recs := SMap.put [] s.events.recs log rs
                                       overflow := SMap.put 0 s.events.overflow log 0 } }
  if 4 ≤ log then s.mailboxDone h 2 []
  else if all then (put [] s).mailboxDone h 0 []
  else if (recs.take handles.length).map (fun r => BitVec.ofNat 16 r.handle) = handles then
    (put (recs.drop handles.length) s).mailboxDone h 0 []
  else s.mailboxDone h 0xE []

/-- Set Event Interrupt Policy: none or MSI-X for each log. -/
def setPolicy (s : State) (h : Nat) (p : List Byte) : State :=
  if p.length ≠ 4 then s.mailboxDone h 0x16 []
  else if p.all fun b => b.toNat % 4 ≤ 1 then (s.onHost h fun x => { x with policy := p }).mailboxDone h 0 []
  else s.mailboxDone h 2 []

/-- The supported opcodes, each with its command effects (R389). -/
def celRows : List (Nat × Nat) :=
  [(0x0100, 0), (0x0101, 16), (0x0102, 0), (0x0103, 8), (0x0400, 0), (0x0401, 0), (0x4000, 0), (0x4100, 0), (0x4200, 0),
   (0x4201, 0), (0x4202, 8), (0x4301, 4), (0x4302, 4)]

/-- The Command Effects Log. -/
def celBytes : List Byte := celRows.flatMap fun r => leBytes 2 r.1 ++ leBytes 2 r.2

/-- Get Log. -/
def getLog (s : State) (h : Nat) (uuid : List Byte) (off len : Nat) : State :=
  if uuid ≠ uuidCel then s.mailboxDone h 0x17 []
  else if celBytes.length < off + len then s.mailboxDone h 2 []
  else s.mailboxDone h 0 ((celBytes.drop off).take len)

/-- The hottest reading of the last sample. -/
def hottest (r : Readings) : Nat := (r.base ++ r.field ++ r.barn).foldl max 0

/-- A poison command of head `h`'s mailbox makes the access `op` of the codeword at `dpa` over the mesh and completes with it; a DPA
that is no codeword's is refused with the return codes of CXL 3.1 (R389). -/
def poisonRow (s : State) (h dpa : Nat) (op : MemOp) : State :=
  if dpa % 64 ≠ 0 then s.mailboxDone h 2 []
  else if (s.locate dpa).isNone then s.mailboxDone h 0xF []
  else (s.onHost h fun p => { p with mailBusy := true }).sendMesh [meshReq (.mail h) op dpa]

/-- Inject Poison: the codeword is rewritten as a clean blight pattern over its data (R63). -/
def poisonAt (s : State) (h dpa : Nat) (env : Env) : State := (s.upset env).poisonRow h dpa .mark

/-- Clear Poison: the 64 bytes are written as a whole codeword (R33). -/
def unpoisonAt (s : State) (h dpa : Nat) (data : BitVec 512) (env : Env) : State :=
  (s.upset env).poisonRow h dpa (.write (leBytes 64 data.toNat) false false)

/-- Set Alert Configuration: of the 12 bytes, byte 0 says which of the five actions are given; the bits of byte 1 that enable them
and their thresholds are taken, and the others stay (R389). (log 46: PRESUMED) -/
def setAlerts (old cfg : List Byte) : List Byte :=
  let valid := (cfg.getD 0 0) &&& 0x1F
  let pick := fun (i lo n : Nat) => ((if bit valid.toNat i then cfg else old).drop lo).take n
  [valid, (old.getD 1 0 &&& ~~~valid) ||| (cfg.getD 1 0 &&& valid)] ++ pick 0 2 1 ++ (old.drop 3).take 1 ++ pick 1 4 2 ++
    pick 2 6 2 ++ pick 3 8 2 ++ pick 4 10 2

/-! ### DOE and CDAT (R391, R392) -/

/-- The protocols of the DOE mailbox of head `h`: vendor and type. -/
def doeProtocols (h : Nat) : List (Nat × Nat) :=
  if h = 0 then [(0x0001, 0), (0x0001, 1), (0x1E98, 2)] else [(0x0001, 0), (0x1E98, 2)]

/-- DOE Discovery. -/
def doeFind (s : State) (h i : Nat) : State :=
  let ps := doeProtocols h
  let (v, t, next) := match ps[i]? with
    | some p => (p.1, p.2, if i + 1 < ps.length then i + 1 else 0)
    | none => (0xFFFF, 0, 0)
  s.emit (.doe h (leBytes 2 1 ++ leBytes 2 0 ++ leBytes 4 3 ++ leBytes 2 v ++ leBytes 1 t ++ leBytes 1 next))

/-- A DSMAS structure: handle, DPA base, length. -/
def dsmas (i base len : Nat) : List Byte :=
  leBytes 1 0 ++ zeros 1 ++ leBytes 2 24 ++ leBytes 1 i ++ zeros 3 ++ leBytes 8 base ++ leBytes 8 len

/-- A DSLBIS structure: handle, data type, base unit, entry. -/
def dslbis (i type unit v : Nat) : List Byte :=
  leBytes 1 1 ++ zeros 1 ++ leBytes 2 24 ++ leBytes 1 i ++ zeros 1 ++ leBytes 1 type ++ zeros 1 ++ leBytes 8 unit ++
    leBytes 2 v ++ zeros 6

/-- The structures of the CDAT after its header: latencies in ns, bandwidths in GB/s. (log 46: PRESUMED) -/
def cdatBody : List (List Byte) :=
  [dsmas 0 0 0x2000000000, dsmas 1 0x2000000000 0x4000000000, dslbis 0 1 1000 330, dslbis 0 2 1000 330,
   dslbis 0 4 1000 96, dslbis 0 5 1000 96, dslbis 1 1 1000 1305, dslbis 1 2 1000 1305, dslbis 1 4 1000 96,
   dslbis 1 5 1000 96]

/-- The CDAT header: length, revision 1, the checksum that makes all bytes sum to zero, sequence 0. -/
def cdatHeader : List Byte :=
  let len := 16 + (cdatBody.map List.length).sum
  let plain := leBytes 4 len ++ leBytes 1 1
  let total := (plain ++ cdatBody.flatten).foldl (fun n b => n + b.toNat) 0
  plain ++ leBytes 1 ((256 - total % 256) % 256) ++ zeros 10

/-- Table Access: the entry asked for, and the handle of the next. -/
def tableRead (s : State) (h i : Nat) : State :=
  let es := cdatHeader :: cdatBody
  match es[i]? with
  | some e =>
    let next := if i + 1 < es.length then i + 1 else 0xFFFF
    s.emit (.doe h (leBytes 2 0x1E98 ++ leBytes 2 2 ++ leBytes 4 (3 + e.length / 4) ++ leBytes 2 0 ++ leBytes 2 next ++ e))
  | none =>
    let (b, s) := s.freeBytes 4
    s.emit (.doe h (leBytes 2 0x1E98 ++ leBytes 2 2 ++ leBytes 4 3 ++ b))

end State

/-- A command through head `h`: it reaches the module only over a link that is up. (log 4: DESIGN CHOICE, 45:
DEDUCED) -/
def headRow (h : Nat) (s : State) (f : State → State) : Res := guardUnit (isHead h) (if s.headHears h then f s else s)

/-- Is the function of head `h` in D0? In D3hot it answers configuration requests only (R368). -/
def State.inD0 (s : State) (h : Nat) : Bool := (SMap.look 0 (s.host h).headRegs State.pmcsr).toNat % 4 = 0

namespace State

/-! ### Halves of 64-bit registers, and what an access logs (R17, R462) -/

/-- Log a GLOBAL cause of an access; ERR_ADDR follows an ACCESS_WIDTH or UNMAPPED in ERR_FIRST (R471). -/
def logAccess (s : State) (c : Cause) (a : Nat) (write : Bool) : State :=
  let (slot, s) := s.logAs .global c false 0
  if slot = 1 ∧ c ≠ .notBooted then s.setReg 0x44 (a % 2 ^ 26 + 2 ^ 31 * b2n write) else s

/-- The pending lower half that head `h` gives up: one with an access that is no write of the upper half of the same
register (R17). (log 14: DESIGN CHOICE) -/
def lostHalf (s : State) (h a w : Nat) (write : Bool) : Option Nat :=
  match (s.host h).pendingLow with
  | some (lo, _) => if write ∧ w = 4 ∧ a = lo + 4 then none else some lo
  | none => none

/-- Log that a pending half was given up. -/
def logLost (s : State) (lost : Option Nat) : State :=
  match lost with
  | some lo => s.logAccess .accessWidth lo true
  | none => s

/-- Head `h`'s latches as an access leaves them: it ends a read's, and a half given up is gone. -/
def clearLatches (s : State) (h : Nat) (lost : Option Nat) : State :=
  s.onHost h fun p => { p with readLatch := none, pendingLow := if lost.isSome then none else p.pendingLow }

/-- Are host writes to pages other than GLOBAL ignored: until boot stage 6 (R462)? -/
def early (s : State) : Bool := s.getF 0x1040 3 0 < 6

/-- A command reaches the module as a write through head `h` at BAR0 offset `a`, in the CXL range: its function must be in D0, it
ends what the head holds of 64-bit registers, and before boot stage 6 it is ignored (R17, R368, R462). -/
def bar0Row (s : State) (h a : Nat) (f : State → State) : State :=
  if !s.inD0 h then s
  else
    let lost := s.lostHalf h a 4 true
    let s := (s.clearLatches h lost).logLost lost
    if s.early then s.logAccess .notBooted a true else f s

end State

/-- A mailbox command, given by a write of its doorbell; one given while the mailbox works on another changes nothing. -/
def mailRow (h : Nat) (s : State) (f : State → State) : Res :=
  headRow h s fun s => s.bar0Row h 0x3C204 fun s => if (s.host h).mailBusy then s else f s

/-! ### Rows -/

/-- MEM_RD (R379). -/
def execMemRd (h tag : Nat) (a : BitVec 64) (s : State) : Res := headRow h s fun s => s.memRequest h tag a.toNat .read

/-- MEM_RD_DATA (R379). -/
def execMemRdData (h tag : Nat) (a : BitVec 64) (s : State) : Res := headRow h s fun s => s.memRequest h tag a.toNat .read

/-- MEM_SPEC_RD: dropped without an answer (R379). -/
def execMemSpecRd (h _tag : Nat) (_a : BitVec 64) (s : State) : Res :=
  headRow h s fun s => s.memOther h .dropped

/-- MEM_INV (R379). -/
def execMemInv (h tag : Nat) (_a : BitVec 64) (s : State) : Res := headRow h s fun s => s.memOther h (.reply tag .cmp)

/-- MEM_INV_NT (R379). -/
def execMemInvNt (h tag : Nat) (_a : BitVec 64) (s : State) : Res := headRow h s fun s => s.memOther h (.reply tag .cmp)

/-- MEM_CLN_EVCT (R379). -/
def execMemClnEvct (h tag : Nat) (_a : BitVec 64) (s : State) : Res := headRow h s fun s => s.memOther h (.reply tag .cmp)

/-- MEM_WR (R379, R385). -/
def execMemWr (h tag : Nat) (a : BitVec 64) (data : BitVec 512) (poison bad : Bool) (s : State) : Res :=
  headRow h s fun s => s.memRequest h tag a.toNat (.write (leBytes 64 data.toNat) poison bad)

/-- MEM_WR_PTL (R66, R379, R385). -/
def execMemWrPtl (h tag : Nat) (a : BitVec 64) (data : BitVec 512) (be : BitVec 64) (poison bad : Bool) (s : State) : Res :=
  headRow h s fun s => s.memRequest h tag a.toNat (.partialWrite (leBytes 64 data.toNat) be.toNat poison bad)

/-- CXL_PROTO (R379). -/
def execCxlProto (h tag : Nat) (_opcode : BitVec 4) (s : State) : Res :=
  headRow h s fun s => s.memOther h (.unsupported tag)

/-- HOST_MEM_RESPONSE (R379, R386). -/
def execHostMemResponse (h : Nat) (s : State) : Res := headRow h s fun s => s.memRespond h

/-- HDM_COMMIT (R383). -/
def execHdmCommit (h d : Nat) (r : HdmRequest) (s : State) : Res :=
  guardUnit (isHead h && d < 2)
    (if s.headHears h then s.bar0Row h (0x39220 + 32 * d) fun s => s.hdmCommit h d r else s)

/-- HOST_LINK_UP: a link in training finishes it (R372). -/
def execHostLinkUp (h : Nat) (rate : LinkRate) (width : Nat) (flit256 : Bool) (s : State) : Res :=
  guardUnit (isHead h) (if s.getF (State.linkReg h) 2 0 = 1 then s.linkUp h rate width flit256 else s)

/-- HOST_PORT_RESET (R373). -/
def execHostPortReset (h : Nat) (why : PortReset) (s : State) : Res := guardUnit (isHead h) (s.portReset h why)

/-- FLR (R368). -/
def execFlr (h : Nat) (s : State) : Res := headRow h s fun s => s.flr h

/-- GET_EVENT_RECORDS (R389, R390). -/
def execGetEventRecords (h : Nat) (log : BitVec 8) (s : State) : Res := mailRow h s fun s => s.getEvents h log.toNat

/-- CLEAR_EVENT_RECORDS (R390). -/
def execClearEventRecords (h : Nat) (log : BitVec 8) (all : Bool) (handles : List (BitVec 16)) (s : State) : Res :=
  mailRow h s fun s => s.clearEvents h log.toNat all handles

/-- GET_EVENT_INTERRUPT_POLICY (R389). -/
def execGetEventInterruptPolicy (h : Nat) (s : State) : Res := mailRow h s fun s => s.mailboxDone h 0 (s.host h).policy

/-- SET_EVENT_INTERRUPT_POLICY (R389). -/
def execSetEventInterruptPolicy (h : Nat) (policy : List Byte) (s : State) : Res :=
  mailRow h s fun s => s.setPolicy h policy

/-- GET_SUPPORTED_LOGS (R389). -/
def execGetSupportedLogs (h : Nat) (s : State) : Res :=
  mailRow h s fun s =>
    s.mailboxDone h 0 (leBytes 2 1 ++ zeros 6 ++ State.uuidCel ++ leBytes 4 State.celBytes.length)

/-- GET_LOG (R389). -/
def execGetLog (h : Nat) (uuid : BitVec 128) (offset length : BitVec 32) (s : State) : Res :=
  mailRow h s fun s => s.getLog h (beBytes 16 uuid.toNat) offset.toNat length.toNat

/-- IDENTIFY_MEMORY_DEVICE: 384 GiB, all volatile, in units of 256 MiB; logs of 64 records; no label storage area, no
poison list; the memory is scanned for poison, which a reset does not keep (R385, R386, R389). The other fields are free. -/
def execIdentifyMemoryDevice (h : Nat) (s : State) : Res :=
  mailRow h s fun s =>
    let (fw, s) := s.freeBytes 16
    let (limit, s) := s.freeBytes 2
    let (qos, s) := s.freeBytes 1
    s.mailboxDone h 0 (fw ++ leBytes 8 1536 ++ leBytes 8 1536 ++ leBytes 8 0 ++ leBytes 8 0 ++ leBytes 2 64 ++ leBytes 2 64 ++
      leBytes 2 64 ++ leBytes 2 64 ++ leBytes 4 0 ++ leBytes 3 0 ++ limit ++ leBytes 1 2 ++ qos ++ leBytes 2 0)

/-- GET_PARTITION_INFO (R389). -/
def execGetPartitionInfo (h : Nat) (s : State) : Res :=
  mailRow h s fun s => s.mailboxDone h 0 (leBytes 8 1536 ++ zeros 24)

/-- GET_HEALTH_INFO: the hottest die; life used not implemented (R389). The other fields are free. -/
def execGetHealthInfo (h : Nat) (s : State) : Res :=
  mailRow h s fun s =>
    let (status, s) := s.freeBytes 3
    let (counts, s) := s.freeBytes 12
    s.mailboxDone h 0 (status ++ leBytes 1 0xFF ++ leBytes 2 (State.hottest s.st.temps) ++ counts)

/-- GET_ALERT_CONFIGURATION: the settings last set; the device's own thresholds are free (R389). -/
def execGetAlertConfiguration (h : Nat) (s : State) : Res :=
  mailRow h s fun s =>
    let c := padTo 12 s.st.alertCfg
    let (prog, s) := s.freeBytes 2
    let (crit, s) := s.freeBytes 4
    s.mailboxDone h 0 ((c.drop 1).take 1 ++ prog ++ (c.drop 2).take 1 ++ crit ++ c.drop 4)

/-- SET_ALERT_CONFIGURATION (R389). -/
def execSetAlertConfiguration (h : Nat) (cfg : List Byte) (s : State) : Res :=
  mailRow h s fun s =>
    if cfg.length ≠ 12 then s.mailboxDone h 0x16 []
    else { s with st := { s.st with alertCfg := State.setAlerts (padTo 12 s.st.alertCfg) cfg } }.mailboxDone h 0 []

/-- INJECT_POISON (R389). -/
def execInjectPoison (h : Nat) (dpa : BitVec 64) (env : Env) (s : State) : Res :=
  mailRow h s fun s => s.poisonAt h dpa.toNat env

/-- CLEAR_POISON (R389). -/
def execClearPoison (h : Nat) (dpa : BitVec 64) (data : Seen (BitVec 512)) (s : State) : Res :=
  mailRow h s fun s => s.unpoisonAt h dpa.toNat data.val data.env

/-- MAILBOX_UNSUPPORTED: an opcode not listed as supported (R389). -/
def execMailboxUnsupported (h : Nat) (opcode : BitVec 16) (s : State) : Res :=
  mailRow h s fun s =>
    if State.celRows.any fun r => r.1 = opcode.toNat then s else s.mailboxDone h 3 []

/-- DOE_DISCOVERY (R391). -/
def execDoeDiscovery (h : Nat) (index : BitVec 8) (s : State) : Res := headRow h s fun s => s.doeFind h index.toNat

/-- TABLE_ACCESS (R392). -/
def execTableAccess (h : Nat) (entry : BitVec 16) (s : State) : Res := headRow h s fun s => s.tableRead h entry.toNat

end Sys2Proof.Machine
end

