-- ==== Sys2Proof/Machine/HeadRegs.lean ====
section
/-! DEFINITION. What each head holds for itself: its configuration space and its CXL component and device registers (R368,
R371, R373 to R375, R381, R383, R389). The manual names the capabilities and what they report and CXL 3.1 and PCI Express
lay them out; the places it leaves open are the model's. (log 90: PRESUMED) -/

namespace Sys2Proof.Machine

/-- A word of a head's own registers: its reset value and the bits that a write sets, and that a write of 1 clears. -/
structure HeadReg where
  reset : Nat
  rw : Nat
  rw1c : Nat

/-- A word that software cannot change. -/
def HeadReg.fixed (v : Nat) : HeadReg := ⟨v, 0, 0⟩

/-- The words of the configuration space of head `h`, by offset: header, power management, PCI Express, MSI-X, AER, the CXL
and Register Locator DVSECs and DOE. -/
def configRows (h : Nat) : List (Nat × HeadReg) :=
  let open_ := fun (off : Nat) => (Config.headWord (State.configBase + off)).toNat
  [(0x00, .fixed (open_ 0)), (0x04, ⟨0x00100000, 0x0546, 0xF9000000⟩), (0x08, .fixed (0x05021000 + open_ 8 % 256)),
   (0x10, ⟨4, 0xFC000000, 0⟩), (0x14, ⟨0, 0xFFFFFFFF, 0⟩), (0x2C, .fixed (open_ 0x2C)), (0x34, .fixed 0x40),
   (0x40, .fixed 0x00035001), (0x44, ⟨8, 3, 0⟩),
   (0x50, .fixed 0x8002B010), (0x54, .fixed (0x10008000 + open_ 0x54 % 8)), (0x58, ⟨0x2810, 0x7FFF, 0x000F0000⟩),
   (0x5C, .fixed (0x106 + open_ 0x5C / 2 ^ 12 * 2 ^ 12)), (0x7C, .fixed 0x7E),
   (0xB0, .fixed 0x00470011), (0xB4, .fixed ((Page.host h).base + 0x800)), (0xB8, .fixed ((Page.host h).base + 0xC80))] ++
  [(0x100, .fixed 0x15020001), (0x104, ⟨0, 0, 0x07FFF030⟩), (0x108, ⟨0x00400000, 0x07FFF030, 0⟩),
   (0x10C, ⟨0x00462030, 0x07FFF030, 0⟩), (0x110, ⟨0, 0, 0x0000F1C1⟩), (0x114, ⟨0x0000E000, 0x0000F1C1, 0⟩),
   (0x118, ⟨0xA0, 0x140, 0⟩),
   (0x150, .fixed 0x1A010023), (0x154, .fixed 0x03C31E98), (0x158, .fixed 0x002E0000), (0x15C, ⟨2, 4, 0⟩),
   (0x168, .fixed 0x20), (0x170, ⟨0, 0xFFFFFFFF, 0⟩), (0x174, ⟨0, 0xF0000000, 0⟩), (0x178, .fixed 0x40),
   (0x180, ⟨0, 0xFFFFFFFF, 0⟩), (0x184, ⟨0, 0xF0000000, 0⟩),
   (0x1A0, .fixed 0x1D010023), (0x1A4, .fixed 0x01C01E98), (0x1A8, .fixed 8), (0x1AC, .fixed 0x00038100),
   (0x1B4, .fixed 0x0003C300), (0x1D0, .fixed 0x0002002E)]

/-- The words of the component registers, by BAR0 offset: the capability array, RAS, link, and the head of the HDM decoder
capability, which reports two decoders, granularities of 256 bytes to 16 KiB, ways 1 and 2 and host-only coherence, HDM-H
(R381). -/
def componentRows : List (Nat × HeadReg) :=
  [(0x39000, .fixed 0x03110001), (0x39004, .fixed 0x10020002), (0x39008, .fixed 0x18020004), (0x3900C, .fixed 0x20030005),
   (0x39100, ⟨0, 0, 0x1CFFF⟩), (0x39104, ⟨0x1CFFF, 0x1CFFF, 0⟩), (0x39108, ⟨0x1CFFF, 0x1CFFF, 0⟩), (0x3910C, ⟨0, 0, 0x7F⟩),
   (0x39110, ⟨0x7F, 0x7F, 0⟩), (0x39200, .fixed 0x400301), (0x39204, ⟨0, 3, 0⟩)] ++
    (List.range 14).map fun k => (0x39180 + 4 * k, .fixed (Config.headWord (0x39180 + 4 * k)).toNat)

/-- The words of the device registers, by BAR0 offset: the capabilities array, and the mailbox's capability register, whose
payload size is 11 (R389), and command register. -/
def deviceRows : List (Nat × HeadReg) :=
  [(0x3C000, .fixed 0x01010000), (0x3C004, .fixed 3),
   (0x3C010, .fixed 0x00020001), (0x3C014, .fixed 0x100), (0x3C018, .fixed 8),
   (0x3C020, .fixed 0x00010002), (0x3C024, .fixed 0x200), (0x3C028, .fixed 0x820),
   (0x3C030, .fixed 0x00014000), (0x3C034, .fixed 0xB00), (0x3C038, .fixed 8),
   (0x3C200, .fixed (0x2B + (Config.headWord 0x3C200).toNat % 16 * 2 ^ 7)), (0x3C208, ⟨0, 0xFFFF, 0⟩)]

/-- Word `a` of head `h`'s own registers; every other one reads zero. -/
def headReg (h a : Nat) : HeadReg :=
  let rows := if State.configBase ≤ a then (configRows h).map fun r => (State.configBase + r.1, r.2) else componentRows ++ deviceRows
  match rows.find? fun r => r.1 = a with
  | some r => r.2
  | none => .fixed 0

/-- The CXL component and device registers of the accessing head (R371, R461): no page. -/
def isCxlRange (a : Nat) : Bool := 0x38000 ≤ a && a < 0x40000

/-- 32-bit word `i` of a number, and the number with it replaced. -/
def wordOf (n i : Nat) : Nat := n / 2 ^ (32 * i) % 2 ^ 32
def setWord (n i v : Nat) : Nat := n - wordOf n i * 2 ^ (32 * i) + v % 2 ^ 32 * 2 ^ (32 * i)

/-- The decoder of a word of the HDM decoder capability and its word there. -/
def hdmWord (a : Nat) : Option (Nat × Nat) :=
  if 0x39210 ≤ a && a < 0x39250 then some ((a - 0x39210) / 32, (a - 0x39210) % 32 / 4) else none

/-- What word `i` of a decoder reads: base, size, control, whose target range type is host-only coherent (R381), and DPA skip. -/
def HdmDecoder.word (x : HdmDecoder) (i : Nat) : Nat :=
  let high := fun (n : Nat) => n / 2 ^ 28 * 2 ^ 28
  if i = 0 then wordOf (high x.cfg.base) 0
  else if i = 1 then wordOf x.cfg.base 1
  else if i = 2 then wordOf (high x.cfg.size) 0
  else if i = 3 then wordOf x.cfg.size 1
  else if i = 4 then
    x.cfg.ig % 16 + 2 ^ 4 * (x.cfg.iw % 16) + 2 ^ 8 * b2n x.cfg.lockOnCommit + 2 ^ 9 * b2n (x.committed || x.err) +
      2 ^ 10 * b2n x.committed + 2 ^ 11 * b2n x.err + 2 ^ 12
  else if i = 5 then wordOf (high x.cfg.skip) 0
  else if i = 6 then wordOf x.cfg.skip 1
  else 0

namespace State

/-- Decoder `d` of head `h`. -/
def hdmOf (s : State) (h d : Nat) : HdmDecoder := if d = 0 then (s.host h).hdm0 else (s.host h).hdm1

/-- Can the module answer configuration requests: has stage 2 been completed, which a warm reset leaves standing (R374, R442)? -/
def configReady (s : State) : Bool := s.st.linked

/-- The flags of a DVSEC range: Memory_Info_Valid, Memory_Active, a timeout of 4 s (R374, R375). -/
def rangeFlags (s : State) (active : Bool) : Nat := b2n s.configReady + 2 * b2n active + 2 ^ 13

/-- What word `a` of head `h`'s own registers reads. -/
def headWord (s : State) (h a : Nat) : Nat :=
  let p := s.host h
  let stored := (SMap.look (BitVec.ofNat 32 (headReg h a).reset) p.headRegs a).toNat
  if a = configBase + 0xB0 then stored + 2 ^ 30 * b2n p.functionMask + 2 ^ 31 * b2n p.msixEnable
  else if a = configBase + 0x60 then
    let rate := s.getF (linkReg h) 4 3
    2 ^ 16 * (if rate = 0 then (Config.headWord a).toNat % 5 else 4 + rate) + 2 ^ 20 * s.getF (linkReg h) 9 5
  else if a = configBase + 0x80 then 2 ^ 26 * s.getF (linkReg h) 10 10
  else if a = configBase + 0x16C then s.rangeFlags s.st.fieldActive
  else if a = configBase + 0x17C then s.rangeFlags s.st.barnActive
  else if a = 0x3C100 then
    (List.range 4).foldl (fun n k => n + 2 ^ k * b2n (!(SMap.look [] s.events.recs k).isEmpty)) 0
  else if a = 0x3C204 then b2n p.mailBusy + 2 * b2n p.mailboxIrq
  else if a = 0x3C208 then stored % 2 ^ 16 + 2 ^ 16 * (p.mailPayload.length % 2 ^ 16)
  else if a = 0x3C214 then p.mailCode
  else if 0x3C220 ≤ a && a < 0x3CA20 then leNat ((p.mailPayload.drop (a - 0x3C220)).take 4)
  else if a = 0x3CB00 then 4 * b2n (s.st.fieldActive && s.st.barnActive) + 16
  else
    match hdmWord a with
    | some (d, i) => (s.hdmOf h d).word i
    | none => stored

/-- Decoder `d` of head `h` takes the settings `r` without a commit. -/
def hdmSet (s : State) (h d : Nat) (r : HdmRequest) : State :=
  s.onHost h fun p =>
    if d = 0 then { p with hdm0 := { committed := false, err := false, cfg := r } }
    else { p with hdm1 := { committed := false, err := false, cfg := r } }

/-- A write of word `i` of decoder `d`: a committed one takes only the clearing of Commit, and none when it is locked
(R383). -/
def hdmWrite (s : State) (h d i v : Nat) : State :=
  let x := s.hdmOf h d
  let r := x.cfg
  let high := fun (n : Nat) => n / 2 ^ 28 * 2 ^ 28
  if i = 4 then
    let r := { r with ig := v % 16, iw := bits v 7 4, lockOnCommit := bit v 8 }
    if x.committed then if bit v 9 || x.cfg.lockOnCommit then s else s.hdmSet h d r
    else if !bit v 9 then s.hdmSet h d r
    else if x.err then s
    else s.hdmCommit h d r
  else if x.committed then s
  else if i = 0 then s.hdmSet h d { r with base := setWord r.base 0 (high v) }
  else if i = 1 then s.hdmSet h d { r with base := setWord r.base 1 v }
  else if i = 2 then s.hdmSet h d { r with size := setWord r.size 0 (high v) }
  else if i = 3 then s.hdmSet h d { r with size := setWord r.size 1 v }
  else if i = 5 then s.hdmSet h d { r with skip := setWord r.skip 0 (high v) }
  else if i = 6 then s.hdmSet h d { r with skip := setWord r.skip 1 v }
  else s

/-- A word whose bits have no effect of their own takes a write. -/
def plainHead (s : State) (h a v : Nat) : State :=
  let d := headReg h a
  let old := (SMap.look (BitVec.ofNat 32 d.reset) (s.host h).headRegs a).toNat
  let all := 2 ^ 32 - 1
  let new := (v &&& d.rw) ||| (old &&& (all ^^^ d.rw ^^^ (v &&& d.rw1c)))
  s.onHost h fun p => { p with headRegs := SMap.put (BitVec.ofNat 32 d.reset) p.headRegs a (BitVec.ofNat 32 new) }

/-- MSI-X Enable and Function Mask are written; what is pending and unmasked goes out (R394). -/
def writeMsixControl (s : State) (h : Nat) (enable mask : Bool) : State :=
  let s := s.onHost h fun p => { p with msixEnable := enable, functionMask := mask }
  foldEach (s.host h).msixPending s fun i s => s.sendPending h i

/-- A write of word `a` of head `h`'s own registers. -/
def headWrite (s : State) (h a v : Nat) : State :=
  if a = configBase + 0xB0 then s.writeMsixControl h (bit v 31) (bit v 30)
  else if a = pmcsr then if v % 4 = 1 ∨ v % 4 = 2 then s else s.plainHead h a v
  else if a = configBase + 0x58 ∧ bit v 15 then s.flr h
  else if a = 0x3C204 then s.onHost h fun p => { p with mailboxIrq := bit v 1 }
  else if 0x3C220 ≤ a && a < 0x3CA20 then
    let k := a - 0x3C220
    s.onHost h fun p =>
      { p with mailPayload := padTo k (p.mailPayload.take k) ++ leBytes 4 v ++ p.mailPayload.drop (k + 4) }
  else
    match hdmWord a with
    | some (d, i) => s.hdmWrite h d i v
    | none => s.plainHead h a v

/-- A read of one or two words of the component and device registers. -/
def cxlRead (s : State) (h a w : Nat) : State :=
  s.emit (.bar0 h (BitVec.ofNat 64
    (if w = 8 then s.headWord h a + 2 ^ 32 * s.headWord h (a + 4) else s.headWord h a)))

/-- A write of one or two words of them, the lower first. -/
def cxlWrite (s : State) (h a w v : Nat) : State :=
  let s := s.headWrite h a (v % 2 ^ 32)
  if w = 8 then s.headWrite h (a + 4) (v / 2 ^ 32) else s

/-- A configuration read or write of the aligned word at `a`: Request Retry Status until the port can answer (R374). -/
def configRead (s : State) (h a : Nat) : State :=
  if !s.headHears h ∨ a % 4 ≠ 0 then s
  else if !s.configReady then s.emit (.configRetry h)
  else s.emit (.config h (BitVec.ofNat 32 (s.headWord h a)))
def configWrite (s : State) (h a v : Nat) : State :=
  if !s.headHears h ∨ a % 4 ≠ 0 then s
  else if !s.configReady then s.emit (.configRetry h)
  else s.headWrite h a v

end State

end Sys2Proof.Machine
end

