-- ==== Sys2Proof/Machine/Crypto.lean ====
section
/-! DEFINITION. SHA-512 and ECDSA over P-521, by which the steward checks manifests and debug tokens and signs what it
attests (R437, R441, R445, R446, R449). The constants are those of FIPS 180-4 and FIPS 186-4 (PRESUMED: the manual names the
algorithms and does not print them). -/

namespace Sys2Proof.Machine

/-! ### SHA-512 -/

/-- The primes up to 409: the first 80. -/
def shaPrimes : List Nat :=
  (List.range 410).filter fun n => 2 ≤ n && [2, 3, 5, 7, 11, 13, 17, 19].all fun d => n % d ≠ 0 || n = d

/-- Of the numbers that agree with `r` from bit `n` up, the largest whose `k`th power is not above `v`. -/
def rootBelow (k v r : Nat) : Nat → Nat
  | 0 => r
  | n + 1 => rootBelow k v (if (r + 2 ^ n) ^ k ≤ v then r + 2 ^ n else r) n

/-- The first 64 bits of the fraction of the `k`th root of `p`, for roots below 32. -/
def rootFraction (k p : Nat) : BitVec 64 := BitVec.ofNat 64 (rootBelow k (p * 2 ^ (64 * k)) 0 69)

/-- The round constants: fractions of the cube roots of the first 80 primes; the initial hash value: of the square roots of
the first eight. -/
def shaK : List (BitVec 64) := shaPrimes.map (rootFraction 3)
def shaH0 : List (BitVec 64) := (shaPrimes.take 8).map (rootFraction 2)

/-- The message schedule, latest word first, extended by `n` words. -/
def shaExtend (w : List (BitVec 64)) : Nat → List (BitVec 64)
  | 0 => w
  | n + 1 =>
    let a := w.getD 14 0
    let b := w.getD 1 0
    let s0 := a.rotateRight 1 ^^^ a.rotateRight 8 ^^^ (a >>> 7)
    let s1 := b.rotateRight 19 ^^^ b.rotateRight 61 ^^^ (b >>> 6)
    shaExtend ((s1 + w.getD 6 0 + s0 + w.getD 15 0) :: w) n

/-- One round. -/
def shaRound (v : List (BitVec 64)) (kw : BitVec 64) : List (BitVec 64) :=
  match v with
  | [a, b, c, d, e, f, g, h] =>
    let s1 := e.rotateRight 14 ^^^ e.rotateRight 18 ^^^ e.rotateRight 41
    let ch := (e &&& f) ^^^ (~~~e &&& g)
    let t1 := h + s1 + ch + kw
    let s0 := a.rotateRight 28 ^^^ a.rotateRight 34 ^^^ a.rotateRight 39
    let maj := (a &&& b) ^^^ (a &&& c) ^^^ (b &&& c)
    [t1 + (s0 + maj), a, b, c, d + t1, e, f, g]
  | v => v

/-- One 128-byte block. -/
def shaBlock (h : List (BitVec 64)) (block : List Byte) : List (BitVec 64) :=
  let w := (List.range 16).map fun i => BitVec.ofNat 64 (beNat ((block.drop (8 * i)).take 8))
  let ws := (shaExtend w.reverse 64).reverse
  let v := (List.zipWith (· + ·) shaK ws).foldl shaRound h
  List.zipWith (· + ·) h v

/-- The blocks of a padded message. -/
def shaBlocks (h : List (BitVec 64)) (m : List Byte) : Nat → List (BitVec 64)
  | 0 => h
  | n + 1 => shaBlocks (shaBlock h (m.take 128)) (m.drop 128) n

/-- SHA-512 of a byte string. -/
def sha512 (m : List Byte) : List Byte :=
  let pad := (240 - (m.length + 1) % 128) % 128
  let p := m ++ [0x80] ++ zeros pad ++ beBytes 16 (8 * m.length)
  (shaBlocks shaH0 p (p.length / 128)).flatMap fun w => beBytes 8 w.toNat

/-! ### P-521 -/

/-- The field prime, the curve's b, the base point and its order. -/
def p521P : Nat := 2 ^ 521 - 1
def p521B : Nat :=
  0x51953eb9618e1c9a1f929a21a0b68540eea2da725b99b315f3b8b489918ef109e156193951ec7e937b1652c0bd3bb1bf073573df883d2c34f1ef451fd46b503f00
def p521Gx : Nat :=
  0xc6858e06b70404e9cd9e3ecb662395b4429c648139053fb521f828af606b4d3dbaa14b5e77efe75928fe1dc127a2ffa8de3348b3c1856a429bf97e7e31c2e5bd66
def p521Gy : Nat :=
  0x11839296a789a3bc0045c8a5fb42c7d1bd998f54449579b446817afbd17273e662c97ee72995ef42640c550b9013fad0761353c7086a272c24088be94769fd16650
def p521N : Nat :=
  0x1fffffffffffffffffffffffffffffffffffffffffffffffffffffffffffffffffa51868783bf2f966b7fcc0148f709a5d03bb5c9b8899c47aebb6fb71e91386409

/-- Modular power, exponent bits from the top down. -/
def powMod (m b e : Nat) : Nat → Nat
  | 0 => 1 % m
  | n + 1 =>
    let r := powMod m b (e / 2) n
    if e % 2 = 1 then r * r % m * b % m else r * r % m

/-- The inverse modulo a prime of at most 521 bits. -/
def invMod (m a : Nat) : Nat := powMod m a (m - 2) 521

/-- A point in Jacobian coordinates; z zero is the point at infinity. -/
structure JPoint where
  x : Nat
  y : Nat
  z : Nat

/-- The point at infinity. -/
def JPoint.inf : JPoint := ⟨1, 1, 0⟩

/-- Subtraction in the field. -/
def fsub (a b : Nat) : Nat := (a + p521P - b % p521P) % p521P

/-- Doubling, with a = -3. -/
def JPoint.double (p : JPoint) : JPoint :=
  if p.z = 0 then p
  else
    let d := p.z * p.z % p521P
    let g := p.y * p.y % p521P
    let b := p.x * g % p521P
    let al := 3 * (fsub p.x d) * (p.x + d) % p521P
    let x := fsub (al * al) (8 * b)
    let z := fsub (fsub ((p.y + p.z) * (p.y + p.z)) g) d
    let y := fsub (al * fsub (4 * b) x) (8 * g * g)
    ⟨x, y, z⟩

/-- Addition. -/
def JPoint.add (p q : JPoint) : JPoint :=
  if p.z = 0 then q
  else if q.z = 0 then p
  else
    let z1 := p.z * p.z % p521P
    let z2 := q.z * q.z % p521P
    let u1 := p.x * z2 % p521P
    let u2 := q.x * z1 % p521P
    let s1 := p.y * q.z % p521P * z2 % p521P
    let s2 := q.y * p.z % p521P * z1 % p521P
    let h := fsub u2 u1
    let r := fsub s2 s1
    if h = 0 then if r = 0 then p.double else JPoint.inf
    else
      let hh := h * h % p521P
      let hhh := h * hh % p521P
      let v := u1 * hh % p521P
      let x := fsub (fsub (r * r) hhh) (2 * v)
      ⟨x, fsub (r * fsub v x) (s1 * hhh), p.z * q.z % p521P * h % p521P⟩

/-- Multiplication by `k`, of which the low `n` bits are used. -/
def JPoint.mul (p : JPoint) (k : Nat) : Nat → JPoint
  | 0 => JPoint.inf
  | n + 1 =>
    let q := (p.mul (k / 2) n).double
    if k % 2 = 1 then q.add p else q

/-- The affine coordinates. -/
def JPoint.affineX (p : JPoint) : Nat :=
  let i := invMod p521P p.z
  p.x * (i * i % p521P) % p521P
def JPoint.affineY (p : JPoint) : Nat :=
  let i := invMod p521P p.z
  p.y * (i * i % p521P * i % p521P) % p521P

/-- The base point. -/
def p521G : JPoint := ⟨p521Gx, p521Gy, 1⟩

/-- Does (x, y) lie on the curve? -/
def onCurve (x y : Nat) : Bool :=
  x < p521P && y < p521P && y * y % p521P = fsub (x * x * x + p521B) (3 * x)

/-- Does the signature (r, s), two big-endian byte strings, by the uncompressed public key 0x04, X, Y match the message,
with SHA-512? (log 48: PRESUMED) -/
def ecdsaOk (key r s msg : List Byte) : Bool :=
  let x := beNat ((key.drop 1).take 66)
  let y := beNat ((key.drop 67).take 66)
  let rn := beNat r
  let sn := beNat s
  let e := beNat (sha512 msg)
  if key.length = 133 && key.getD 0 0 = 0x04 && onCurve x y && 1 ≤ rn && rn < p521N && 1 ≤ sn && sn < p521N then
    let w := invMod p521N sn
    let q := ((p521G.mul (e * w % p521N) 521).add (JPoint.mul ⟨x, y, 1⟩ (rn * w % p521N) 521))
    decide (q.z ≠ 0) && q.affineX % p521N = rn
  else false

/-- The signature of a message by the private scalar `d`, with SHA-512 and the per-message secret `k`: r and s, 66 bytes each, as SPDM
lays them out. (log 48: PRESUMED) -/
def ecdsaSign (d k : Nat) (msg : List Byte) : List Byte :=
  let r := (p521G.mul k 521).affineX % p521N
  beBytes 66 r ++ beBytes 66 (invMod p521N k * (beNat (sha512 msg) + r * d) % p521N)

/-- The public point of the private scalar `d`: 0x04, X, Y (R445). -/
def publicPoint (d : Nat) : List Byte :=
  let q := p521G.mul d 521
  [0x04] ++ beBytes 66 q.affineX ++ beBytes 66 q.affineY

/-! ### The identity key (R445) -/

/-- HMAC-SHA-512 with a key of at most 128 bytes (PRESUMED: FIPS 198-1). -/
def hmacSha512 (key msg : List Byte) : List Byte :=
  let k := padTo 128 key
  sha512 (k.map (· ^^^ 0x5C) ++ sha512 (k.map (· ^^^ 0x36) ++ msg))

/-- The KDF of SP 800-108 in counter mode with HMAC-SHA-512: `blocks` blocks, from counter `i` up, for `bits` bits of output (PRESUMED:
counter and length have 32 bits and stand big-endian around label, zero byte and context). (log 48: PRESUMED) -/
def kdfBlocks (key label context : List Byte) (bits i : Nat) : Nat → List Byte
  | 0 => []
  | n + 1 =>
    hmacSha512 key (beBytes 4 i ++ label ++ [0x00] ++ context ++ beBytes 4 bits) ++ kdfBlocks key label context bits (i + 1) n

/-- The private scalar of a part with this serial number: the first 585 bits of two blocks, reduced. -/
def identityScalar (serial : BitVec 64) : BitVec 521 :=
  let context := leBytes 32 Config.fuseSeed.toNat ++ leBytes 8 serial.toNat
  let bs := kdfBlocks (leBytes 32 Config.pufKey.toNat) (textBytes "CM384 identity") context 585 1 2
  let c := beNat (bs.take 74) / 2 ^ 7
  BitVec.ofNat 521 (c % (p521N - 1) + 1)

/-! ### Measurements (R441) -/

namespace State

/-- M`i` as the digest's bytes. -/
def measBytes (s : State) (i : Nat) : List Byte := leBytes 64 (SMap.look 0 s.st.meas i).toNat

/-- Extend M`i` with data. -/
def extend (s : State) (i : Nat) (data : List Byte) : State :=
  let d := sha512 (s.measBytes i ++ sha512 data)
  { s with st := { s.st with meas := SMap.put 0 s.st.meas i (BitVec.ofNat 512 (leNat d)) } }

/-- Set M`i` to zero. -/
def clearMeas (s : State) (i : Nat) : State := { s with st := { s.st with meas := SMap.drop s.st.meas i } }

end State

end Sys2Proof.Machine
end

