-- ==== Sys2Proof/Machine/Tithe.lean ====
section
/-! DEFINITION. The tithe: step signatures, places and grants, the hold, verdicts, strikes and replays (R396 to R414,
R425, R426), and the requests of the granary (R428, R429). -/

namespace Sys2Proof.Machine

/-! ### Signatures (R404) -/

/-- One bit of the CRC-64. -/
def crc64Bit (c : BitVec 64) : BitVec 64 := if c.msb then (c <<< 1) ^^^ 0x42F0E1EBA9EA3693 else c <<< 1

/-- One byte of the CRC-64. -/
def crc64Byte (c : BitVec 64) (b : Byte) : BitVec 64 :=
  crc64Bit (crc64Bit (crc64Bit (crc64Bit (crc64Bit (crc64Bit (crc64Bit (crc64Bit (c ^^^ (b.zeroExtend 64 <<< 56)))))))))

/-- CRC64 of a byte string. -/
def crc64 (bs : List Byte) : BitVec 64 := bs.foldl crc64Byte 0

/-- The 80 bytes of a record. -/
def WriteRec.bytes (w : WriteRec) : List Byte :=
  leBytes 8 (w.kind + 8 * b2n w.blight + 16 * w.addr) ++ leBytes 8 w.mask ++ mergeBytes (bit w.mask) (zeros 64) w.data

/-- S of one source: its entries in issue order, each with the sum of its records. -/
def sourceSig (ws : List WriteRec) (source : Nat) : BitVec 64 :=
  let mine := ws.filter fun w => w.source = source
  (mine.map (·.entry)).eraseDups.foldl
    (fun S id =>
      let E := (mine.filter fun w => decide (w.entry = id ∧ w.kind ≠ 5)).foldl (fun E w => E + crc64 w.bytes) (0 : BitVec 64)
      crc64 (leBytes 8 S.toNat ++ leBytes 8 E.toNat)) 0

/-- The signature of a step at its COMMIT. -/
def stepSig (ws : List WriteRec) (x : Tile) : BitVec 64 :=
  let regs := (List.range 31).flatMap fun i => leBytes 4 (SMap.look 0 x.g (i + 1)).toNat
  (List.range 7).foldl (fun a i => a ^^^ sourceSig ws i) (crc64 (regs ++ leBytes 4 x.pc))

/-- The 64-bit value of a run's signature. -/
def sigValue : RunSignature → BitVec 64
  | .own => 0
  | .sig v => v
  | .faulted code pc => Config.faultSig code pc
  | .lost => 0

namespace State

/-! ### Checks in progress -/

/-- The check of the step of tile `t`. -/
def check (s : State) (t : Nat) : Option TitheStep := (s.tithe.steps.find? fun p => p.1 = t).map (·.2)

/-- Replace it, and end it. -/
def setCheck (s : State) (t : Nat) (c : TitheStep) : State :=
  { s with tithe := { s.tithe with steps := s.tithe.steps.map fun p => if p.1 = t then (t, c) else p } }
def endCheck (s : State) (t : Nat) : State :=
  let s := ((s.check t).map (s.restRuns t)).getD s
  { s with tithe := { s.tithe with steps := s.tithe.steps.filter fun p => p.1 ≠ t } }

/-- Count in CHECKED, UNCHECKED or MISMATCH. -/
def countChecked (s : State) : State := s.addF 0x3078 63 0 1
def countUnchecked (s : State) : State := s.addF 0x3080 63 0 1
def countMismatch (s : State) : State := s.addF 0x3088 63 0 1

/-- The step goes on unchecked: its gate treats it as not sampled (R399, R401, R409, R411). -/
def runUnchecked (s : State) (t : Nat) : State := (s.endCheck t).countUnchecked

/-! ### Places (R398, R399) -/

/-- The physical tiles that serve the logical tiles of a paddock. -/
def serving (s : State) (p : Nat) : List Nat := (List.range 256).map fun i => s.ptileOf (256 * p + i)

/-- The physical tiles of a paddock that are neither fallow nor serving a logical tile: its spares. -/
def spares (s : State) (p : Nat) : List Nat :=
  let used := s.serving p
  ((List.range 272).map (272 * p + ·)).filter fun t => !used.contains t && !s.isFallow t

/-- The places of a paddock: spares whose compute logic passed test, and with its bit of POOL set its compute-enabled
logical tiles of no live gang; none under a sweep. -/
def placesOf (s : State) (p : Nat) : List Nat :=
  if s.st.sweep = some p then []
  else
    let free := (s.spares p).filter fun t => s.fuses.pcen.getLsbD t
    let pool :=
      if bit (s.getF 0x3044 15 0) p then
        ((List.range 256).map (256 * p + ·)).filterMap fun l =>
          if s.computeEnabled l && !s.inLiveGang l then some (s.ptileOf l) else none
      else []
    ((List.range 272).map (272 * p + ·)).filter fun t => free.contains t || pool.contains t

/-- The list of all places. -/
def places (s : State) : List Nat := (List.range 16).flatMap s.placesOf

/-- Does a place serve a primary or a referee? -/
def placeBusy (s : State) (p : Nat) : Bool := s.tithe.steps.any fun c => c.2.shadow = some p || c.2.referee = some p

/-- The draw of the step of tile `t` (R397). -/
def drawOf (s : State) (t : Nat) : BitVec 64 :=
  let x := s.tile t
  titheZ (s.gang x.gangId).seed x.gangId x.epoch

/-- The first free place of the rotating list that lies in none of these paddocks; the list advances by one. (log 61:
DESIGN CHOICE) -/
def pickPlace (s : State) (t : Nat) (but : List Nat) : Option (Nat × State) :=
  let x := s.tile t
  let ps := s.places
  let old := SMap.look (0, 0) s.tithe.cursor x.gangId
  let made := if old.1 = x.epoch then old.2 else 0
  let start := Config.placeStart (s.drawOf t) + made
  match ((List.range ps.length).map fun i => ps.getD ((start + i) % ps.length) 0).find? fun p =>
      !s.placeBusy p && !but.contains (paddockOf p) with
  | some p =>
    some (p, { s with tithe := { s.tithe with cursor := SMap.put (0, 0) s.tithe.cursor x.gangId (x.epoch, made + 1) } })
  | none => none

/-- Where a primary stands in the order of its gang: ranks from `first` on, modulo GSIZE (R397). -/
def primaryOrder (s : State) (t : Nat) : Nat :=
  let x := s.tile t
  let first := (s.drawOf t).toNat / 2 ^ 32 % max 1 x.gsize
  (x.rank + x.gsize - first) % max 1 x.gsize

/-- A primary that asks is granted a place or runs unchecked; primaries of one gang that ask together are served in their
order. -/
def grant (s : State) (t : Nat) : State :=
  match s.check t with
  | some c =>
    let before := s.tithe.steps.any fun p =>
      p.2.phase = .asking && (s.tile p.1).gang = (s.tile t).gang && s.primaryOrder p.1 < s.primaryOrder t
    if c.phase ≠ .asking ∨ before then s
    else
      match s.pickPlace t [paddockOf t] with
      | some (p, s) => s.setCheck t { c with phase := .sampling, shadow := some p }
      | none => s.runUnchecked t
  | none => s

/-! ### The hold (R400, R401) -/

/-- Would the hold of this step exceed 16 MiB? What is counted is the instruction memory and the data; the sizes that
the manual does not give decide only where that count comes within reach of the limit, and there the answer is free.
(log 62: DEDUCED) -/
def holdFull (s : State) (c : TitheStep) : Bool × State :=
  let low := 0x8000 + 64 * c.lines.length + c.used
  if 2 ^ 24 < low then (true, s)
  else if low + 0x1000 + c.extra ≤ 2 ^ 24 then (false, s)
  else
    let (v, s) := s.takeFree 1
    (decide (v = 1), s)

/-- The address that the hold keeps of a write of the step to barn memory (R400, R404). -/
def barnWrite (w : WriteRec) : Option Nat :=
  if w.kind = 3 ∧ 0x2000000000 ≤ w.addr ∧ w.addr < 0x6000000000 then some w.addr else none

/-- What the hold of a step holds, each item with its kind and its number among those of the kind: the registers, the
instruction memory, start lines, own-pillar codewords, data, results, staged lines and barn addresses (R400). Of items that are
no line the bytes stand at the start of their codeword. -/
def holdItems (c : TitheStep) : List (Nat × Nat × Line) :=
  let x := c.start
  let number := fun (kind : Nat) (ls : List Line) => (ls.zipIdx).map fun l => (kind, l.2, l.1)
  let plain := fun (bs : List Byte) => (⟨padTo 64 bs, false⟩ : Line)
  let regs := (List.range 31).flatMap fun i => leBytes 4 (SMap.look 0 x.g (i + 1)).toNat
  let loops := x.loops.flatMap fun l => leBytes 1 l.k ++ leBytes 2 l.first ++ leBytes 2 l.last ++ leBytes 2 l.live
  let lcs := (List.range 4).flatMap fun i => leBytes 4 (SMap.look 0 x.lc i).toNat
  let all := regs ++ leBytes 4 x.pc ++ leBytes 4 x.epoch.toNat ++ lcs ++ loops
  number 0 ((List.range ((all.length + 63) / 64)).map fun i => plain ((all.drop (64 * i)).take 64)) ++
    number 1 ((List.range 512).map fun i =>
      plain ((List.range 16).flatMap fun j => leBytes 4 (SMap.look 0 x.imem (16 * i + j)).toNat)) ++
    number 2 (c.lines.map x.line) ++ number 3 (c.before.map (·.2)) ++ number 4 (c.data.map (·.line)) ++
    number 5 (c.waits.map fun w => plain (leBytes 1 w.result.byte ++ w.word)) ++
    number 6 (c.applied.map (·.2.2.2)) ++
    number 7 ((c.writes.filterMap barnWrite).map fun a => plain (leBytes 8 a))

/-- The hold stands in the pillar of its place, whose codewords there it overwrites (R398, R400). (log 92: DESIGN CHOICE) -/
def writeHold (s : State) (pt : Nat) (c : TitheStep) : State :=
  foldEach (holdItems c) s fun i s =>
    s.writeLoc Env.none (.field pt (64 * (Config.holdSlot i.1 i.2.1 % 2 ^ 18))) i.2.2

/-- A tile with these lines of its bin and crib as they were at the start of the step, with their marks (R400, R498). -/
def startLines (c : TitheStep) (ks : List Nat) (x : Tile) : Tile := ks.foldl (fun x k => x.setLine k (c.start.line k)) x

/-- The primary sends to the hold, and to the shadow the bin and crib lines that it has reached since; at its gate, the hold
is complete. -/
def holdSend (s : State) (t : Nat) : State :=
  match s.check t with
  | some c =>
    if c.phase ≠ .sampling ∨ c.complete then s
    else
      let (full, s) := s.holdFull c
      if full then s.runUnchecked t
      else
        let s := (c.shadow.map fun pt => (s.writeHold pt c).onTile pt (startLines c (c.lines.drop c.sent))).getD s
        s.setCheck t { c with sent := c.lines.length, complete := decide ((s.tile t).core = .atGate) }
  | none => s

/-! ### Runs (R405) -/

/-- The tile as a run begins in it: the primary's registers, instruction memory, lattice, sinks and leaf as they were at the
step's start, and the start lines in its bin and crib (R400, R405). -/
def runBegin (c : TitheStep) (x : Tile) : Tile :=
  let o := c.start
  let x := { x with
    g := o.g, pc := o.pc, core := .running, fcode := 0, loops := o.loops, lc := o.lc, cycleHi := o.cycleHi, beatHi := o.beatHi,
    imem := o.imem, dirty := false, queue := [], stalledEntry := none, issued := [], nextId := o.nextId, sink0 := o.sink0,
    sink1 := o.sink1, port := o.port, lattice := none, latticeData := o.latticeData, gang := none, gangId := o.gangId,
    rank := o.rank, gsize := o.gsize, epoch := o.epoch, stepsDone := o.stepsDone, gate := .closed, leaves := o.leaves,
    arrived := [] }
  startLines c c.lines x

/-- A run starts in its tile; one that a struck primary makes in its own tile leaves that tile as it is. It has completed no
sync entry (R403, R405, R414). (log 60: DESIGN CHOICE) -/
def enterRun (s : State) (t : Nat) (c : TitheStep) (run : RunKind) : State :=
  let c := { c with recs := (run, { RunRec.reset with overlay := c.before }) :: c.recs.filter fun e => e.1 ≠ run }
  match runTile c run with
  | none => s.setCheck t c
  | some pt =>
    let x := runBegin c (s.tile pt)
    let s := if pt = t then s.setCheck t { c with scratch := some x } else (s.setCheck t c).setTile pt x
    s.asRun pt fun t s => s.reapply Env.none t 0

/-- The signature of a run that has reached its COMMIT, its HALT or a fault; none before (R404). -/
def ownSig (s : State) (t : Nat) (c : TitheStep) (run : RunKind) : Option RunSignature :=
  (runTile c run).bind fun pt =>
    let x := if pt = t then c.scratch.getD Tile.reset else s.tile pt
    match x.core with
    | .faulted => some (.faulted x.fcode x.pc)
    | .atGate => some (.sig (stepSig ((c.recs.lookup run).getD .reset).writes x))
    | .halted => some (.sig (stepSig ((c.recs.lookup run).getD .reset).writes x))
    | _ => none

/-- A run ends: its place comes to rest, with what the run wrote in its bin and crib. A run whose hardware has failed, which
reports a signature that is not its own, leaves values there that the manual does not give (R405). (log 60: DESIGN
CHOICE) -/
def leaveRun (s : State) (t : Nat) (c : TitheStep) (run : RunKind) (failed : Bool) : State :=
  match runTile c run with
  | none => s
  | some pt =>
    if pt = t then s.setCheck t { c with scratch := none }
    else
      let s := s.onTile pt fun x => if x.gang = none then x.rest else x
      let wrote := (((c.recs.lookup run).getD .reset).writes).filter fun w => w.kind ≤ 1
      if failed then
        foldEach wrote s fun w s =>
          let (v, s) := s.takeFree 512
          s.onTile pt fun x => x.mergeLine (w.addr / 64) (leBytes 64 v.toNat) w.mask w.blight
      else s

/-- May a run start: the hold is complete, and the verdict has come to it? The shadow's run starts no earlier than the
primary's COMMIT. -/
def mayRun (s : State) (t : Nat) (c : TitheStep) (run : RunKind) : Bool :=
  c.complete && !c.runs.contains run &&
    match run with
    | .shadow => c.phase = .sampling && (s.tile t).core = .atGate
    | .referee => c.phase = .refereeRun && c.sigR = none
    | .again => (c.phase = .refereeRun && c.got = []) || (c.phase = .repeats && c.repeats ≠ [])

/-- A run starts. The primary's signature is that of its COMMIT. -/
def runStart (s : State) (t : Nat) (run : RunKind) : State :=
  match s.check t with
  | some c =>
    if s.mayRun t c run then
      let c := if run = .shadow then { c with sigP := stepSig c.writes (s.tile t) } else c
      s.enterRun t { c with runs := c.runs ++ [run] } run
    else s
  | none => s

/-! ### Strikes (R413, R414) -/

/-- The CPER fields of a tile and a check of gang `g` (R433). -/
def tileInfo (s : State) (kind pt : Nat) : CperInfo :=
  { CperInfo.blank kind with paddock := paddockOf pt, ptile := pt, ltile := (s.ltileOf pt).getD 0xFFFF }
def checkInfo (s : State) (kind pt : Nat) (c : TitheStep) : CperInfo :=
  { s.tileInfo kind pt with
    gang := c.start.gangId, epoch := c.start.epoch.toNat, sp := c.sigP.toNat,
    ssh := (c.sigS.map fun r => (sigValue r).toNat).getD 0, sr := (c.sigR.map fun r => (sigValue r).toNat).getD 0 }

/-- The strike against `pt` is decided: transient, or permanent and the tile is fenced. TRANSIENT at TLIMIT fences too. -/
def decideStrike (s : State) (pt : Nat) (transient : Bool) (info : CperInfo) : State :=
  let a := (Page.tile pt).base + 0xA0
  let limit := s.getF 0x3040 15 8
  if transient then
    let s := s.addF a 31 16 1
    if limit ≠ 0 ∧ limit ≤ s.getF a 31 16 then (s.cper { info with kind := 4 }).fenceAsk pt false
    else s.cper { info with kind := 3 }
  else (s.cper { info with kind := 4 }).fenceAsk pt false

/-- Decide the strike against `pt` by its repeat and the majority signature; a repeat that was lost leaves it undecided
(R411). -/
def decideBy (s : State) (c : TitheStep) (pt : Nat) (rep major : RunSignature) : State :=
  if rep = .lost then s else s.decideStrike pt (decide (rep = major)) (s.checkInfo 3 pt c)

/-! ### Outputs (R412) and rollback (R425) -/

/-- Blight what one write of the step wrote, over its data as written; a barn codeword over the mesh. -/
def blightWrite (t : Nat) (env : Env) (w : WriteRec) (s : State) : State :=
  match w.kind with
  | 2 =>
    let (l, s) := s.readLoc (.field t w.addr)
    s.writeLoc env (.field t w.addr) ⟨l.data, true⟩
  | 3 =>
    match barnWrite w with
    | some d => s.sendMesh [meshReq (.post none) .mark d]
    | none => s
  | 4 => s
  | 5 => s
  | _ => s.onTile t fun x => x.setLine (w.addr / 64) ⟨(x.line (w.addr / 64)).data, true⟩

/-- The step's outputs are blighted and the primary faults: among them the barn codewords that an execution of it wrote which
has been rolled back (R407, R412, R426). -/
def failStep (s : State) (env : Env) (t code : Nat) (c : TitheStep) : State :=
  let x := s.tile t
  let s := foldEach ((c.earlier.filter fun w => (barnWrite w).isSome) ++ c.writes) s (blightWrite t env)
  let s := s.cper { s.checkInfo 7 t c with code }
  s.tileFault t { FaultInfo.gate code x.pc with detail := x.rank }

/-- Discard at receivers of this module what the step staged, with its abort messages. -/
def purgeStep (s : State) (t : Nat) (epoch : BitVec 32) (rs : List Receiver) : State :=
  foldEach rs s fun r s =>
    match r with
    | .tile pt =>
      s.onTile pt fun x =>
        { x with staging := withoutStep (.tile t) epoch x.staging
                 commits := x.commits.filter fun m => !decide (m.src = .tile t ∧ m.epoch = epoch) }
    | _ => s

/-- Roll the step of tile `t` back to its start: the bin and crib lines and own-pillar codewords that the hold has as they
were then, held items, staged writes and the arrival epochs of the leaf (R425). Staged lines of other senders that were applied to
them come again in the replay. (log 62: DEDUCED) -/
def rollBack (s : State) (env : Env) (t : Nat) (c : TitheStep) : State :=
  let x := s.tile t
  let s := (s.gateAbort t).purgeStep t x.epoch x.gate.receivers
  let s := s.onTile t (startLines c c.lines)
  let s := foldEach c.before s fun b s => s.writeLoc env (.field t b.1) b.2
  s.onTile t fun x =>
    let leaves := x.leaves.foldl
      (fun m l =>
        let was : Leaf := SMap.look .reset c.start.leaves l.1
        SMap.put .reset m l.1 { l.2 with arrival := was.arrival }) x.leaves
    { x with leaves, arrived := [] }

/-- Execute the step again in normal mode from its start, its reads and waits served from the hold (R425). -/
def restartStep (s : State) (env : Env) (t : Nat) (c : TitheStep) (phase : CheckPhase) : State :=
  let s := s.onTile t fun x =>
    { x with g := c.start.g, pc := c.start.pc, loops := c.start.loops, lc := c.start.lc, core := .running, queue := [],
             stalledEntry := none, issued := [], dirty := false, arrived := [], lattice := none, sink0 := c.start.sink0,
             sink1 := c.start.sink1, latticeData := c.start.latticeData, gate := .closed }
  (s.setCheck t { c with phase, earlier := c.earlier ++ c.writes, writes := [], syncs := 0 }).reapply env t 0

/-! ### The verdict (R407, R408) -/

/-- Does a place exist, busy or not, that is eligible for a referee? -/
def refereeExists (s : State) (t : Nat) (c : TitheStep) : Bool :=
  s.places.any fun p => paddockOf p ≠ paddockOf t && (c.shadow.map paddockOf) ≠ some (paddockOf p)

/-- No referee place exists: primary and shadow are struck, the gang faults, and both repeat (R408). (log 63:
DEDUCED) -/
def noReferee (s : State) (env : Env) (t : Nat) (c : TitheStep) : State :=
  let tiles := t :: c.shadow.toList
  let c := { c with phase := .repeats, repeats := tiles, got := [], runs := [] }
  let s := (foldEach tiles s.countChecked fun pt s => s.strike pt).raise 66
  (s.setCheck t c).failStep env t 0x58 c

/-- The shadow's run has ended. -/
def judgeShadow (s : State) (env : Env) (t : Nat) (c : TitheStep) (sig : RunSignature) : State :=
  if sig = .lost then s.runUnchecked t
  else if sig = .sig c.sigP then (s.endCheck t).countChecked
  else
    let s := s.countMismatch
    let c := { c with sigS := some sig, phase := .refereeWanted }
    if s.refereeExists t c then s.setCheck t c else s.noReferee env t c

/-- A referee place is granted; the verdict waits while all eligible places are busy. -/
def refereeGrant (s : State) (env : Env) (t : Nat) : State :=
  match s.check t with
  | some c =>
    if c.phase ≠ .refereeWanted then s
    else if !s.refereeExists t c then s.noReferee env t c
    else
      match s.pickPlace t (paddockOf t :: (c.shadow.map paddockOf).toList) with
      | some (p, s) => s.setCheck t { c with phase := .refereeRun, referee := some p }
      | none => s
  | none => s

/-- Both the referee's run and the shadow's repeat have ended. (log 63: DEDUCED) -/
def judge (s : State) (env : Env) (t : Nat) (c : TitheStep) (sr : RunSignature) (rep : Nat × RunSignature) : State :=
  let s := s.countChecked
  if sr = .sig c.sigP then
    let s := (s.strike rep.1).endCheck t
    (s.decideBy c rep.1 rep.2 sr).raise 66
  else if some sr = c.sigS then
    let s := (s.strike t).raise 66
    match (s.tile t).gang with
    | some g =>
      if (s.gang g).checkpoint then s.setCheck t { c with phase := .repeats, repeats := [t], got := [], restart := true }
      else s.setCheck t { c with phase := .replayDue, got := [] }
    | none => s.endCheck t
  else
    let tiles := t :: (c.shadow.toList ++ c.referee.toList)
    let c := { c with phase := .repeats, repeats := t :: c.referee.toList, got := [rep] }
    let s := (foldEach tiles s fun pt s => s.strike pt).raise 66
    (s.setCheck t c).failStep env t 0x58 c

/-- Every repeat has ended: the strikes are decided, and a CHECKPOINT gang faults (R408, R413, R426). -/
def endRepeats (s : State) (env : Env) (t : Nat) (c : TitheStep) : State :=
  let s := s.endCheck t
  match c.sigR with
  | none =>
    if c.got.any fun g => g.2 = .lost then s
    else
      let same := c.got.all fun g => some g.2 = (c.got.head?).map (·.2)
      foldEach c.got s fun g s => s.decideStrike g.1 same (s.checkInfo 3 g.1 c)
  | some sr =>
    let s := foldEach c.got s fun g s => s.decideBy c g.1 g.2 sr
    if c.restart then s.failStep env t 0x59 c else s

/-- A check goes on once a run of it has ended: the verdict comes when the referee and the shadow's repeat both have. -/
def settleCheck (s : State) (env : Env) (t : Nat) (c : TitheStep) : State :=
  match c.phase, c.sigR, c.got with
  | .refereeRun, some sr, rep :: _ => s.judge env t c sr rep
  | _, _, _ => s.setCheck t c

/-- A run ends: with the signature of what it has written once it has come to its end, or with what failed hardware
reports. (log 60: DESIGN CHOICE) -/
def runEnd (s : State) (env : Env) (t : Nat) (run : RunKind) (report : RunSignature) : State :=
  match s.check t with
  | none => s
  | some c =>
    match if report = .own then s.ownSig t c run else some report with
    | none => s
    | some sig =>
      if !c.runs.contains run then s
      else
        let s := s.leaveRun t c run (decide (report ≠ .own ∧ sig ≠ .sig c.sigP))
        let c := { (s.check t).getD c with runs := c.runs.erase run }
        match run with
        | .shadow => s.judgeShadow env t c sig
        | .referee =>
          if sig = .lost then s.setCheck t { c with phase := .refereeWanted, referee := none }
          else s.settleCheck env t { c with sigR := some sig }
        | .again =>
          if c.phase = .refereeRun then s.settleCheck env t { c with got := [(c.shadow.getD 0, sig)] }
          else
            match c.repeats with
            | [] => s
            | pt :: rest =>
              let c := { c with repeats := rest, got := c.got ++ [(pt, sig)] }
              if rest = [] then s.endRepeats env t c else s.setCheck t c

/-- The replay of a struck primary of a STEP-REPLAY gang, and of the spare that takes its place: it starts from the
rolled-back state, and at its COMMIT its signature is compared with Sr (R425). -/
def replayStep (s : State) (env : Env) (t : Nat) (report : RunSignature) : State :=
  match s.check t with
  | some c =>
    let major := c.sigR.getD .lost
    let sig := if report = .own then .sig (stepSig c.writes (s.tile t)) else report
    match c.phase with
    | .replayDue => (s.rollBack env t c).restartStep env t c .replay
    | .replay =>
      if (s.tile t).core ≠ .atGate ∨ sig = .lost then s
      else
        let s := s.decideBy c t sig major
        if sig = major then s.endCheck t else (s.rollBack env t c).setCheck t { c with phase := .spareWait }
    | .spareRun =>
      if (s.tile t).core ≠ .atGate ∨ sig = .lost then s
      else if sig = major then s.endCheck t
      else s.failStep env t 0x58 c
    | _ => s
  | none => s

/-- A gate has held for 2^26 TCLK without a verdict (R409). -/
def stall (s : State) (t : Nat) : State :=
  match s.check t with
  | some c =>
    if (s.tile t).core = .atGate ∧ (c.phase = .asking ∨ c.phase = .sampling ∨ c.phase = .refereeWanted ∨ c.phase = .refereeRun)
    then (s.runUnchecked t).log .tithe .titheStall
    else s
  | none => s

/-- What the encoders show to the blighting of the step's outputs when the row carries no Env (R65). (log 8: DESIGN
CHOICE) -/
def outputEnv (s : State) (t : Nat) (c : TitheStep) : Env × State :=
  s.freeEnv ((c.writes.filter fun w => w.kind = 2).map fun w => t * 2 ^ 19 + w.addr / 64)

/-- The runs of the check of tile `t`'s step that were made in paddock `p`, which has been reset, are lost (R411). -/
def placeLost (s : State) (p t : Nat) (c : TitheStep) : State :=
  let inP := fun (o : Option Nat) => decide ((o.map paddockOf) = some p)
  match c.phase with
  | .sampling => if inP c.shadow then s.runUnchecked t else s
  | .refereeRun =>
    let c := if inP c.shadow ∧ c.got = [] then
        { c with got := [(c.shadow.getD 0, .lost)], runs := c.runs.erase .again } else c
    if inP c.referee ∧ c.sigR = none then
      s.setCheck t { c with phase := .refereeWanted, referee := none, runs := c.runs.erase .referee }
    else
      let (env, s) := s.outputEnv t c
      s.settleCheck env t c
  | .repeats =>
    let gone := c.repeats.filter fun pt => pt ≠ t ∧ paddockOf pt = p
    if gone = [] then s
    else
      let left := c.repeats.filter fun pt => !gone.contains pt
      let runs := if (c.repeats.head?.map gone.contains).getD false then c.runs.erase .again else c.runs
      let c : TitheStep := { c with repeats := left, got := c.got ++ gone.map (fun pt => (pt, .lost)), runs }
      if left = [] then
        let (env, s) := s.outputEnv t c
        s.endRepeats env t c
      else s.setCheck t c
  | _ => s

/-- The runs on places of paddock `p` are lost in a reset (R411). -/
def placesLost (s : State) (p : Nat) : State :=
  foldEach s.tithe.steps s fun e s => ((s.check e.1).map (s.placeLost p e.1)).getD s

/-! ### The granary (R428, R429) -/

/-- RESTORE of gang `g`: the header of its granary is read, or GRANARY_INVALID is logged. One that is under way goes on.
(log 87: DEDUCED) -/
def restoreGang (s : State) (g : Nat) : State :=
  let G := s.gang g
  if !(G.live && G.checkpoint && G.sheaf.isNone) then s.log .tithe .granaryInvalid
  else if G.restoring ≠ 0 then s
  else (s.onGang g fun G => { G with restoring := 1 }).sendMesh [meshReq (.restoreHead g) .read G.granary]

/-- A write of TITHE.GRANARY. -/
def writeGranary (s : State) (v : Nat) : State :=
  let s := s.setF 0x3050 31 16 (bits v 31 16)
  let g := v % 256
  if !bit v 10 then s
  else if bits v 9 8 = 1 then
    if (s.gang g).live then s.onGang g fun G => { G with snapWanted := true } else s
  else if bits v 9 8 = 2 then s.restoreGang g
  else s

end State

/-! ### Rows -/

/-- TITHE_GRANT (R397 to R399). -/
def execTitheGrant (t : Nat) (s : State) : Res := guardUnit (isTile t) (s.inClock (paddockOf t) (s.grant t))

/-- HOLD_SEND (R400, R401). -/
def execHoldSend (t : Nat) (s : State) : Res := guardUnit (isTile t) (s.inClock (paddockOf t) (s.holdSend t))

/-- TITHE_RUN_START (R405, R414). -/
def execTitheRunStart (t : Nat) (run : RunKind) (s : State) : Res := guardUnit (isTile t) (s.inClock (paddockOf t) (s.runStart t run))

/-- TITHE_RUN_END (R407, R408, R411, R413). -/
def execTitheRunEnd (t : Nat) (run : RunKind) (sig : RunSignature) (env : Env) (s : State) : Res :=
  guardUnit (isTile t) (s.inClock (paddockOf t) ((s.upset env).runEnd env t run sig))

/-- REFEREE_GRANT (R408). -/
def execRefereeGrant (t : Seen Nat) (s : State) : Res :=
  guardUnit (isTile t.val) (s.inClock (paddockOf t.val) ((s.upset t.env).refereeGrant t.env t.val))

/-- STEP_REPLAY (R425). -/
def execStepReplay (t : Nat) (repeatSig : RunSignature) (env : Env) (s : State) : Res :=
  guardUnit (isTile t) (s.inClock (paddockOf t) ((s.upset env).replayStep env t repeatSig))

/-- TITHE_STALL (R409). -/
def execTitheStall (t : Nat) (s : State) : Res := guardUnit (isTile t) (s.stall t)

end Sys2Proof.Machine
end

