-- ==== Sys2Proof/Machine/Fence.lean ====
section
/-! DEFINITION. Fencing and remaps: stopping and resuming gangs, moving a logical tile to a spare, and the fence
queue (R35 to R38, R415 to R418). -/

namespace Sys2Proof.Machine

/-! ### Renaming a physical tile that has moved -/

/-- The name of tile `o` once it has moved to `n`. -/
def renTile (o n t : Nat) : Nat := if t = o then n else t
/-- In a sender, a receiver, a line, a commit message. -/
def renSender (o n : Nat) : Sender → Sender
  | .tile p => .tile (renTile o n p)
  | r => r
def renReceiver (o n : Nat) : Receiver → Receiver
  | .tile p => .tile (renTile o n p)
  | r => r
def renLine (o n : Nat) (l : StageLine) : StageLine := { l with src := renSender o n l.src }
def renCommit (o n : Nat) (m : CommitMsg) : CommitMsg := { m with src := renSender o n m.src }
/-- In the tally tree; an arrival at the apex names a paddock. -/
def renPart (o n : Nat) : TallyPart → TallyPart
  | .leaf t => .leaf (renTile o n t)
  | p => p
def renTally (o n : Nat) : TallyMsg → TallyMsg
  | .arrival .apex id src e => .arrival .apex id src e
  | .arrival p id src e => .arrival p id (renTile o n src) e
  | .release p id e => .release (renPart o n p) id e
  | .withdrawal p id src => .withdrawal p id (renTile o n src)
/-- In a request, by who waits for it. -/
def renReq (o n : Nat) (r : MemReq) : MemReq :=
  let src := match r.src with
    | .entry t id => .entry (renTile o n t) id
    | .staged t m => .staged (renTile o n t) (renCommit o n m)
    | .restore g t k => .restore g (renTile o n t) k
    | x => x
  { r with src }
def renPillar (o n : Nat) (p : Pillar) : Pillar :=
  { p with queue := p.queue.map (renReq o n), admitted := p.admitted.map (renReq o n) }
def renChannel (o n : Nat) (c : Channel) : Channel :=
  { c with lane0 := c.lane0.map (renReq o n), lane1 := c.lane1.map (renReq o n), lane2 := c.lane2.map (renReq o n),
           reads := c.reads.map fun r => { r with req := renReq o n r.req } }
/-- In a sampled step: the struck tiles that repeat it. -/
def renCheck (o n : Nat) (c : TitheStep) : TitheStep :=
  { c with repeats := c.repeats.map (renTile o n), got := c.got.map fun g => (renTile o n g.1, g.2) }
def renNode (o n : Nat) (x : TallyNode) : TallyNode := { x with counted := x.counted.map (renTile o n) }
/-- In what a tile holds of other tiles. -/
def renInTile (o n : Nat) (x : Tile) : Tile :=
  let gate := { x.gate with receivers := x.gate.receivers.map (renReceiver o n)
                            awaiting := x.gate.awaiting.map (renReceiver o n) }
  let released := x.released.map fun k => { k with awaiting := k.awaiting.map (renReceiver o n) }
  { x with gate, released, staging := x.staging.map (renLine o n), inflight := x.inflight.map (renLine o n),
           stageWait := x.stageWait.map (renLine o n), commits := x.commits.map (renCommit o n),
           acks := x.acks.map (renReceiver o n), applying := x.applying.map fun a => (renCommit o n a.1, a.2) }

/-- A list with neighbouring duplicates joined. -/
def dedup : List Nat → List Nat
  | [] => []
  | a :: as =>
    match dedup as with
    | [] => [a]
    | b :: bs => if a = b then b :: bs else a :: b :: bs

/-- The codewords `lo` to `hi - 1` that a memory lists, `size` bytes to each. -/
def listedCws (m : SMap Byte) (size lo hi : Nat) : List Nat :=
  dedup ((m.map fun e => e.1 / size).filter fun k => lo ≤ k && k < hi)

namespace State

/-- Every reference to physical tile `o` names `n`. -/
def renameTile (s : State) (o n : Nat) : State :=
  let ridge := { s.ridge with
    staging := s.ridge.staging.map (renLine o n), inflight := s.ridge.inflight.map (renLine o n),
    stageWait := s.ridge.stageWait.map (renLine o n), commits := s.ridge.commits.map (renCommit o n),
    applying := s.ridge.applying.map fun a => (renCommit o n a.1, a.2) }
  let tally := { s.tally with
    pad := s.tally.pad.map fun e => (e.1, renNode o n e.2), padDev := s.tally.padDev.map fun e => (e.1, renNode o n e.2),
    padCrew := s.tally.padCrew.map fun e => (e.1, renNode o n e.2), msgs := s.tally.msgs.map (renTally o n),
    flagMsgs := s.tally.flagMsgs.map fun m => { m with src := renSender o n m.src } }
  let tithe := { s.tithe with steps := s.tithe.steps.map fun e => (renTile o n e.1, renCheck o n e.2) }
  { s with
    ridge, tally, tithe, tiles := s.tiles.map fun e => (e.1, renInTile o n e.2)
    pillars := s.pillars.map fun e => (e.1, renPillar o n e.2), channels := s.channels.map fun e => (e.1, renChannel o n e.2)
    mesh := s.mesh.map (renReq o n)
    traceQ := s.traceQ.map fun e => { e with fault := e.fault.map fun f => (renTile o n f.1, f.2) } }

/-! ### Stopping and resuming (R37) -/

/-- Has a tile stopped: its core is at rest, at a step boundary, or held at its gate for a verdict (R416)? -/
def stopped (s : State) (t : Nat) : Bool :=
  let x := s.tile t
  match x.core with
  | .idle => true
  | .halted => true
  | .faulted => true
  | .inReset => true
  | .atGate => x.gate.phase = .boundary || (x.gate.phase = .closed && s.sampled t)
  | _ => false

/-- The live gangs with a tile that satisfies `f`. -/
def liveGangs (s : State) (f : Nat → Bool) : List Nat :=
  (s.gangs.filter fun g => g.2.live && (g.2.tiles.map s.ptileOf).any f).map (·.1)

/-- Have all tiles of these gangs stopped? -/
def allStopped (s : State) (gs : List Nat) : Bool := gs.all fun g => (s.gangTiles g).all s.stopped

/-- Tiles at a step boundary that nothing holds go on. -/
def resumeAll (s : State) : State := foldEach (s.tiles.map (·.1)) s fun t s => s.leaveBoundary t

/-! ### Moving a logical tile (R36, R416) -/

/-- Drain the accesses in flight at the pillar of `t` (R36). -/
def drainPillar (s : State) (env : Env) (t : Nat) : State :=
  let p := s.pillar t
  let s := foldEach (p.admitted ++ p.queue) s fun r s =>
    let (l, s) := (s.keepStaged t r).performReq env r (.field t (r.dpa % 2 ^ 25))
    s.answerReq r l
  s.onPillar t fun p => { p with admitted := [], queue := [], gleanAdmitted := p.gleanAdmitted.map fun _ => 0 }

/-- Copy a pillar to another; uncorrectable codewords arrive blighted (R65, R416, R418). -/
def copyPillar (s : State) (env : Env) (o n : Nat) : State :=
  let lo := o * 2 ^ 19
  let dst := n * 2 ^ 19
  let keep := fun (size : Nat) (m : SMap Byte) => m.filter fun e => e.1 / size < dst || dst + 2 ^ 19 ≤ e.1 / size
  let cws := (listedCws s.fieldData 64 lo (lo + 2 ^ 19) ++ listedCws s.fieldCheck 8 lo (lo + 2 ^ 19)).eraseDups
  let s := { s with fieldData := keep 64 s.fieldData, fieldCheck := keep 8 s.fieldCheck }
  foldEach cws s fun k s =>
    let (l, s) := s.readCw false k
    s.writeLoc env (.field n (64 * (k - lo))) l

/-- The map changes: its generation advances (R35). (log 65: DEDUCED) -/
def bumpGen (s : State) : State := s.setF 0x4048 31 0 (s.getF 0x4048 31 0 + 1)

/-- Logical tile `l` moves from `o` to `n`: accesses drain, the pillar and the tile's state are copied, the map switches,
and a spare that takes a failed replay over executes the step (R416, R425). -/
def remapTo (s : State) (env : Env) (l o n : Nat) : State :=
  let s := ((s.drainPillar env o).drainPillar env n).copyPillar env o n
  let x := s.tile o
  let s := ((s.setTile n x).setTile o Tile.reset).renameTile o n
  let s := ({ s with fence := { s.fence with map := SMap.put (fmapDefault l) s.fence.map l n } }.bumpGen).drainHosts
  match s.check n with
  | some c => if c.phase = .spareWait then s.restartStep env n c .spareRun else s
  | none => s

/-- The spares of a paddock that logical tile `l` may move to (R8, R416). -/
def sparesFor (s : State) (l : Nat) : List Nat :=
  (s.spares (l / 256)).filter fun t => !s.fuses.cen.getLsbD l || s.fuses.pcen.getLsbD t

/-- Those that serve no place now. -/
def freeSpare (s : State) (l : Nat) : Option Nat := (s.sparesFor l).find? fun t => !s.placeBusy t

/-! ### The fence queue (R415 to R418, R457) -/

/-- May the steward work on a fence: no sweep runs, and no live change but MANIFEST_STAGE is past its start? (log 64:
DEDUCED) -/
def fenceMayRun (s : State) : Bool :=
  s.st.sweep = none &&
    match s.st.upkeep with
    | none => true
    | some u => u.op = 5 || match u.phase with | .queued => true | .ended _ => true | _ => false

/-- Take the fence at the front from the queue. -/
def popFence (s : State) : State := { s with fence := { s.fence with queue := s.fence.queue.drop 1 } }

/-- Change the fence at the front. -/
def setFence (s : State) (j : FenceJob) : State :=
  { s with fence := { s.fence with queue := j :: s.fence.queue.drop 1 } }

/-- The pillar of `t` is fenced; in place when `dead`. -/
def fencePillar (s : State) (t : Nat) (dead : Bool) : State :=
  { s with fence := { s.fence with
    pfenced := SMap.put false s.fence.pfenced t true
    inPlace := if dead then SMap.put false s.fence.inPlace t true else s.fence.inPlace } }

/-- A fence completes: FENCE.STATUS, the CPER record, which names the gang of the tile as the fence found it, and vector 66
(R393, R418, R432, R433). -/
def fenceDone (s : State) (j : FenceJob) (l : Option Nat) (noSpare : Bool) (kind gang : Option Nat) : State :=
  let s := (s.popFence).setF 0x4044 1 1 1
  let s := if noSpare then s.setF 0x4044 2 2 1 else s
  let s := (s.setF 0x4044 15 3 j.pt).setF 0x4044 27 16 (l.getD 0xFFF)
  let s := match kind with
    | some k =>
      s.cper { CperInfo.blank k with
        paddock := paddockOf j.pt, ptile := j.pt, ltile := l.getD 0xFFFF, gang := gang.getD 0xFF }
    | none => s
  (s.raise 66).resumeAll

/-- No spare is left: the logical tile keeps the fallow tile, its tallies are withdrawn (R285) and its gang faults FALLOW,
unless it has faulted and the tile is at rest; a pillar is fenced in place (R417, R418). -/
def fenceNoSpare (s : State) (j : FenceJob) (l : Nat) : State :=
  let gang := s.gangOfTile j.pt
  let s := if j.pillar then s.fencePillar j.pt true else s
  let s :=
    if j.wasFallow then s
    else
      let s := s.bumpGen
      match (s.tile j.pt).gang with
      | some g =>
        let s := s.withdrawTile j.pt g
        let rest := [CoreState.idle, .halted, .faulted].contains (s.tile j.pt).core
        if (s.gang g).faulted ∧ rest then s else s.tileFault j.pt (FaultInfo.gate 0x47 (s.tile j.pt).pc)
      | none => s
  s.fenceDone j (some l) true (some 6) gang

/-- The steward works on a fence that has begun. -/
def fenceGo (s : State) (env : Env) (j : FenceJob) : State :=
  match s.ltileOf j.pt with
  | none => (if j.pillar then s.fencePillar j.pt false else s).fenceDone j none false none none
  | some l =>
    if s.sparesFor l = [] then s.fenceNoSpare j l
    else
      match s.freeSpare l with
      | none => s
      | some n =>
        let s := s.setFence { j with stopping := true }
        if s.allStopped (s.liveGangs fun t => t = j.pt) then
          let gang := s.gangOfTile j.pt
          let s := s.remapTo env l j.pt n
          let s := if j.pillar then s.fencePillar j.pt false else s
          s.fenceDone j (some l) false (some 5) gang
        else s

/-- The steward turns to the fence at the front: one that names a fallow tile and fences no pillar anew does nothing;
any other makes the tile fallow. (log 64: DEDUCED) -/
def fenceStep (s : State) (env : Env) : State :=
  match s.fence.queue with
  | [] => s
  | j :: _ =>
    if !s.fenceMayRun then s
    else if j.begun then s.fenceGo env j
    else
      let was := s.isFallow j.pt
      if was ∧ (!j.pillar ∨ SMap.look false s.fence.pfenced j.pt) then s.popFence
      else
        let j := { j with begun := true, wasFallow := was }
        let s := { s with fence := { s.fence with fallow := SMap.put false s.fence.fallow j.pt true } }
        (s.setFence j).fenceGo env j

/-- A write of FENCE.REQ. -/
def writeFenceReq (s : State) (v : Nat) : State :=
  if !bit v 31 then s
  else if s.fence.queue ≠ [] then s.log .fence .fenceBusy
  else if 4352 ≤ v % 2 ^ 13 then s.log .fence .fenceRange
  else s.fenceAsk (v % 2 ^ 13) (bit v 13)

/-- The paddock a live change works on. -/
def upkeepPaddock (s : State) : Option Nat :=
  match s.st.upkeep with
  | some u =>
    let active := match u.phase with | .queued => false | .ended _ => false | _ => true
    if !active then none
    else if u.op = 2 then some (u.arg % 4096 / 256)
    else if u.op = 1 ∨ u.op = 6 then some (u.arg % 16)
    else none
  | none => none

end State

/-! ### Rows -/

/-- FENCE_REMAP (R415 to R418). -/
def execFenceRemap (env : Env) (s : State) : Res := .next ((s.upset env).fenceStep env)

end Sys2Proof.Machine
end

