-- ==== Sys2Proof/Machine/Manifest.lean ====
section
/-! DEFINITION. The boot manifest: its header, sections, write entries, repair map and operating points, and when it is
valid (R434 to R440). -/

namespace Sys2Proof.Machine

/-- `n` bytes of a flash slot or image from offset `off`; bytes past the end of what is given read 0xFF. -/
def imgBytes (img : List Byte) (off n : Nat) : List Byte :=
  let got := (img.drop off).take n
  got ++ List.replicate (n - got.length) 0xFF

/-- A little-endian field of an image. -/
def imgNat (img : List Byte) (off n : Nat) : Nat := leNat (imgBytes img off n)

/-- One section of a manifest (R436, R438). -/
structure MSection where
  type : Nat
  off : Nat
  len : Nat
  deriving DecidableEq, Repr

/-- The header fields (R436). -/
def mfNsect (img : List Byte) : Nat := imgNat img 6 2
def mfSeq (img : List Byte) : Nat := imgNat img 8 4
def mfLength (img : List Byte) : Nat := imgNat img 16 4

/-- The section table. -/
def mfSections (img : List Byte) : List MSection :=
  (List.range (mfNsect img)).map fun i =>
    { type := imgNat img (64 + 16 * i) 2, off := imgNat img (68 + 16 * i) 4, len := imgNat img (72 + 16 * i) 4 }

/-- Does the header pass R436? Reserved fields are zero (R14). -/
def mfHeaderOk (f : Fuses) (img : List Byte) : Bool :=
  let n := mfNsect img
  let grades := imgNat img 20 1
  imgBytes img 0 4 = [0x4A, 0x43, 0x4D, 0x46] && imgNat img 4 2 = 1 && 1 ≤ n && n ≤ 64 &&
    f.minSvn.toNat ≤ imgNat img 12 4 && mfLength img % 16 = 0 && mfLength img ≤ 0x800000 &&
    64 + 16 * n + 272 ≤ mfLength img && grades &&& 0xF1 = 0 && bit grades f.grade.toNat && imgNat img 21 43 = 0 &&
    (List.range n).all fun i => imgNat img (66 + 16 * i) 2 = 0 && imgNat img (76 + 16 * i) 4 = 0 &&
      imgNat img (68 + 16 * i) 4 % 16 = 0 && imgNat img (72 + 16 * i) 4 % 16 = 0

/-- Are the key and the signature good (R437)? -/
def mfSigOk (f : Fuses) (img : List Byte) : Bool :=
  let b := mfLength img - 272
  let key := imgBytes img b 133
  imgNat img (b + 133) 3 = 0 && imgNat img (b + 268) 4 = 0 && leNat (sha512 key) = f.mkeyHash.toNat &&
    ecdsaOk key (imgBytes img (b + 136) 66) (imgBytes img (b + 202) 66) (imgBytes img 0 (b + 136))

/-- Do the sections lie apart, between the section table and the signature block, in ascending TYPE (R438)? -/
def mfSectionsOk (img : List Byte) : Bool :=
  let ss := mfSections img
  let first := 64 + 16 * mfNsect img
  ss.all (fun x => 1 ≤ x.type && x.type ≤ 5 && first ≤ x.off &&
      x.off + x.len ≤ mfLength img - 272 && (x.type ≠ 5 || x.len = 48)) &&
    decide (ss.Pairwise fun a b => a.type ≤ b.type ∧ (a.off + a.len ≤ b.off ∨ b.off + b.len ≤ a.off))

/-- One write entry (R438). -/
structure WriteEntry where
  off : Nat
  mask : Nat
  value : Nat
  flags : Nat
  deriving DecidableEq, Repr

/-- The write entries of the sections of a type, in order. -/
def mfWrites (img : List Byte) (type : Nat) : List WriteEntry :=
  ((mfSections img).filter fun x => x.type = type).flatMap fun x =>
    (List.range (x.len / 16)).map fun i =>
      let a := x.off + 16 * i
      { off := imgNat img a 4, mask := imgNat img (a + 4) 4, value := imgNat img (a + 8) 4, flags := imgNat img (a + 12) 4 }

/-- The pages a section of write entries may name (R438). -/
def sectionPage (type : Nat) : Page → Bool
  | .global => type = 1
  | .clock _ => true
  | .paddock _ => type = 1 || type = 3
  | .barn _ => type = 1 || type = 2
  | .ridge _ => type = 1
  | .tithe => type = 1
  | .host _ => type = 1
  | .dispatch => type = 1
  | .fence => type = 1
  | .tile _ => type = 3
  | _ => false

/-- May a manifest write a field of this access (R439)? -/
def Acc.manifest : Acc → Bool
  | .rw => true
  | .rw1s => true
  | .rwl => true
  | .cntS => true
  | _ => false

/-- The bits of a register that a manifest may write. -/
def manifestMask (r : RegDesc) : Nat :=
  (r.fields.filter fun f => f.acc.manifest).foldl (fun m f => m ||| ((2 ^ f.width - 1) <<< f.lo)) 0

/-- Does a write entry name writable fields of a page of its section (R439)? (log 75: DEDUCED) -/
def writeEntryOk (type : Nat) (e : WriteEntry) : Bool :=
  e.flags ≤ 1 && e.off % 4 = 0 &&
    match pageAt e.off with
    | none => false
    | some p =>
      sectionPage type p &&
        match regAt p (e.off - p.base) with
        | none => false
        | some (r, start) =>
          let m := e.mask <<< (8 * (e.off - p.base - start))
          m &&& manifestMask r = m

/-- The raw entries of the REPAIR sections, section by section. -/
def mfRepairRaw (img : List Byte) : List (List Nat) :=
  ((mfSections img).filter fun x => x.type = 4).map fun x =>
    (List.range (x.len / 4)).map fun i => imgNat img (x.off + 4 * i) 4

/-- One repair (R438): logical tile, physical tile, PILLAR. -/
structure RepairEntry where
  l : Nat
  pt : Nat
  pillar : Bool
  deriving DecidableEq, Repr

/-- The repairs, padding left out. -/
def mfRepairs (img : List Byte) : List RepairEntry :=
  ((mfRepairRaw img).flatten.filter fun v => v ≠ 0xFFFFFFFF).map fun v =>
    { l := bits v 27 16, pt := v % 2 ^ 13, pillar := bit v 31 }

/-- The fence map that the default and the repairs build (R22). -/
def repairMap (rs : List RepairEntry) : SMap Nat :=
  rs.foldl (fun m r => SMap.put (fmapDefault r.l) m r.l r.pt) []

/-- Is a list of raw entries followed by padding only? -/
def paddedLast : List Nat → Bool
  | [] => true
  | v :: vs => if v = 0xFFFFFFFF then vs.all (· = 0xFFFFFFFF) else bits v 15 13 = 0 && bits v 30 28 = 0 && paddedLast vs

/-- Are the repairs good (R439)? Entries stay inside a paddock, so only its own logical tiles can share a tile. -/
def mfRepairsOk (f : Fuses) (img : List Byte) : Bool :=
  let rs := mfRepairs img
  let m := repairMap rs
  let at_ := fun (l : Nat) => SMap.look (fmapDefault l) m l
  (mfRepairRaw img).all paddedLast && rs.all (fun r => paddockOf r.pt = r.l / 256) &&
    decide (rs.Pairwise fun a b => a.l ≠ b.l ∧ a.pt ≠ b.pt) &&
    rs.all (fun r => (List.range 256).all fun i => at_ (256 * (r.l / 256) + i) ≠ r.pt || 256 * (r.l / 256) + i = r.l) &&
    rs.all (fun r => !r.pillar || (List.range 256).all fun i => at_ (256 * (r.l / 256) + i) ≠ fmapDefault r.l) &&
    (List.range 4096).all fun l => !f.cen.getLsbD l || f.pcen.getLsbD (at_ l)

/-- The operating points (R438): VDDT in mV and TCLK in MHz of points 0 to 7, and the boot point of each paddock; none
without an OPPOINTS section. -/
structure OpPoints where
  points : List (Nat × Nat)
  boot : List Nat
  deriving DecidableEq, Repr

/-- The operating points of each OPPOINTS section, and those of the last, which are in force. -/
def mfOpSections (img : List Byte) : List OpPoints :=
  ((mfSections img).filter fun x => x.type = 5).map fun x =>
    { points := (List.range 8).map fun i => (imgNat img (x.off + 4 * i) 2, imgNat img (x.off + 4 * i + 2) 2)
      boot := (List.range 16).map fun p => imgNat img (x.off + 32 + p) 1 }
def mfOpPoints (img : List Byte) : Option OpPoints := (mfOpSections img).getLast?

/-- Point `i`, if it is used. -/
def OpPoints.used (o : OpPoints) (i : Nat) : Option (Nat × Nat) :=
  match o.points[i]? with
  | some v => if v = (0, 0) then none else some v
  | none => none

/-- The nominal TCLK of a grade in MHz (R49). -/
def gradeMhz (g : BitVec 4) : Nat := if g = 1 then 2700 else if g = 2 then 2500 else 2000

/-- Are one section's operating points good (R439)? -/
def opPointsOk (f : Fuses) (o : OpPoints) : Bool :=
  o.points.all (fun v => v = (0, 0) || (600 ≤ v.1 && v.1 ≤ 800 && 500 ≤ v.2 && v.2 ≤ gradeMhz f.grade)) &&
    o.boot.all fun i => (o.used i).isSome

/-- Is the manifest valid (R439)? (log 75: DEDUCED) -/
def mfValid (f : Fuses) (img : List Byte) : Bool :=
  mfHeaderOk f img && mfSectionsOk img && mfSigOk f img &&
    [1, 2, 3].all (fun type => (mfWrites img type).all (writeEntryOk type)) && mfRepairsOk f img && (mfOpSections img).all (opPointsOk f)

/-- The bytes of the header and section table, as measured (R441). -/
def mfHead (img : List Byte) : List Byte := imgBytes img 0 (64 + 16 * mfNsect img)

/-- The sections of a type as measured, in section-table order. -/
def mfSectionBytes (img : List Byte) (type : Nat) : List (List Byte) :=
  ((mfSections img).filter fun x => x.type = type).map fun x => imgBytes img x.off x.len

namespace State

/-- The operating points of the active manifest. -/
def opPoints (s : State) : Option OpPoints := mfOpPoints s.st.manifest

/-- Read and measure a manifest: M1 the header, the section table and the slot letter; M2 to M5 the sections (R441). -/
def measureManifest (s : State) (img : List Byte) (slot : Nat) : State :=
  let s := (s.extend 1 (mfHead img)).extend 1 [BitVec.ofNat 8 (0x41 + slot)]
  let m := fun (i type : Nat) (s : State) => foldEach (mfSectionBytes img type) s fun d s => s.extend i d
  m 5 5 (m 4 4 (m 3 3 (m 3 2 (m 2 1 s))))

end State

end Sys2Proof.Machine
end

