-- ==== Sys2Proof/Machine/Reset.lean ====
section
/-! DEFINITION. Resets: what power-on, PERST# on H0, a warm reset, a paddock reset and a stop of the module leave (R373,
R452, R457 to R459, R468, R470). -/

namespace Sys2Proof.Machine

/-- A port's receive buffer is emptied: its cells are owed to the peer (R334). -/
def emptyRx (q : RidgePort) : RidgePort :=
  let owed := q.rx.foldl (fun m k => SMap.put 0 m k.vc (SMap.look 0 m k.vc + k.cells)) q.owedCells
  { q with rx := [], emptied := [], owedCells := owed }

/-- The ridge block after a warm reset: links keep their sequence numbers, packets in flight are discarded but for the rest
of one whose first bytes have been sent (R458). -/
def ridgeWarm (r : Ridge) : Ridge :=
  { Ridge.reset with
    ports := r.ports.map fun e => (e.1, { emptyRx e.2 with txq := [], bounce := [] })
    cut := r.cut
    walks := r.walks
    nextRead := r.nextRead }

namespace State

/-! ### Page registers (R468, R470) -/

/-- The bits of the register at `a` that a warm reset keeps: RWS and RWL fields, LOCK, HOST and FUSE pages, NODE, RING
and BREAK, STATUS and PEER of ridge ports that stay up, the live clock status, and the generation of the fence map (R35,
R458, R468, R470, R476). (log 78: DEDUCED) -/
def keepWarm (s : State) (a : Nat) : Nat :=
  let all := 2 ^ 64 - 1
  match pageAt a with
  | none => 0
  | some p =>
    let off := a - p.base
    let lock := if off = 0x0C then 4 else 0
    match p with
    | .host _ => all
    | .fuse => all
    | .ridge k =>
      if off = 0x44 then if s.linkState k = 2 then 7 else 0
      else if off = 0x48 then if s.linkState k = 2 then all else 0
      else if off = 0x100 ∨ off = 0x104 ∨ off = 0x108 then all else lock
    | .barn _ => if 0x44 ≤ off ∧ off < 0x58 then all else if off = 0x40 then 1 else lock
    | .trace => if off = 0x60 then 1 else lock
    | .clock _ => if off = 0x44 then 0xFFFF else if off = 0x40 then 0x1DFFFF else lock
    | .tile _ => if off = 0xA0 then all else lock
    | .steward => if off = 0x40 then 0xFFFF0100 else lock
    | .fence => if off = 0x48 then all else lock
    | _ => lock

/-- Registers return to their reset values but for the bits `keep` gives. -/
def resetRegs (s : State) (keep : Nat → Nat) : State :=
  { s with regs := s.regs.filterMap fun e =>
      let k := keep e.1
      let r := regReset e.1
      let v : Reg := BitVec.ofNat 64 ((e.2.toNat &&& k) ||| (r.toNat &&& ((2 ^ 64 - 1) ^^^ k)))
      if v = r then none else some (e.1, v) }

/-! ### Warm reset (R320, R374, R458) -/

/-- A channel before a warm reset: what it has accepted is performed and it enters self-refresh; a DEAD channel stays
DEAD. -/
def channelSleep (s : State) (c : Nat) : State :=
  if (s.channel c).dead then s.onChannel c fun _ => { Channel.reset with dead := true }
  else ((s.drainReads c).drainWrites c).onChannel c fun _ => { Channel.reset with selfRefresh := true }

/-- The requests of hosts that no controller has accepted, oldest first: those in queues and lanes, then the ingress
buffers. -/
def waitingReqs (s : State) : List MemReq :=
  (s.pillars.flatMap fun e => e.2.admitted ++ e.2.queue) ++
    s.channels.flatMap fun e => e.2.lane0 ++ e.2.lane1 ++ e.2.lane2

/-- Answer a waiting request of a host as one to a range that is not active (R374). -/
def refuseReq (r : MemReq) (s : State) : State :=
  match r.src with
  | .host h tag => (s.log (.host h) .notReady).respond h tag (refusal r.op)
  | _ => s

/-- Answer what waits in the ingress buffer of head `h` (R374, R379). -/
def refuseWaiting (h : Nat) (w : Waiting) (s : State) : State :=
  match w with
  | .access r => refuseReq r s
  | .reply tag a => s.respond h tag a
  | .dropped => s
  | .unsupported tag => (s.log (.host h) .cxlProto).emit (.cxlUnsupported h tag)

/-- The steward's state as a warm reset leaves it: a running live change and a sweep are abandoned, M1 to M5 are zero
(R441, R457). -/
def warmSteward (st : Steward) : Steward :=
  { st with
    boot := .warm, booting := true, slot := 0, triedSlots := [], manifest := [], applied := 0, commanded := false,
    fellBack := false, key := none, fieldActive := false, barnActive := false, settling := [], voutMode := [],
    upkeep := none, image := none, sweep := none, sweepWork := .reset, sweepDue := [], sweepRetry := [], resetWaiting := [],
    hotNext := [],
    meas := st.meas.filter fun e => e.1 = 0 || 6 ≤ e.1 }

/-- ALERT# is asserted while a reading exceeds 95 °C or a boot has stopped for want of a manifest (R492). -/
def updateAlert (s : State) : State :=
  { s with st := { s.st with alert := 95 < hottest s.st.temps || 2 ≤ s.getF 0x1040 5 4 } }

/-- Tiles as every reset wider than a tile reset leaves them: reset, but for instruction memory (R134). -/
def keepImem (ts : SMap Tile) : SMap Tile :=
  ts.filterMap fun e => if e.2.imem = [] then none else some (e.1, { Tile.reset with imem := e.2.imem })

/-- A mailbox whose poison command a warm reset has discarded answers that it is to be tried again. (log 25: DEDUCED) -/
def mailAbort (s : State) (h : Nat) : State := if (s.host h).mailBusy then s.mailboxDone h 5 [] else s

/-- A warm reset takes effect; its boot begins, but with TESTEN high, where no stage after the first is made (R493). (log 25:
DEDUCED) -/
def warmStart (s : State) : State :=
  let reqs := s.waitingReqs
  let (w0, w1) := (s.h0.ingress, s.h1.ingress)
  let s := { s with ridge := ridgeWarm s.ridge, mesh := [], h0 := { s.h0 with ingress := [] }, h1 := { s.h1 with ingress := [] } }
  let s := foldEach (List.range 64) s fun c s => s.channelSleep c
  let s := foldEach w1 (foldEach w0 (foldEach reqs s refuseReq) (refuseWaiting 0)) (refuseWaiting 1)
  let s := s.resetRegs s.keepWarm
  let s := { s with
    tiles := keepImem s.tiles, pillars := [], gangs := [], lastQueue := 63, disp := .reset, mesh := [], lastSource := 2,
    tally := .reset, locHeld := [], fence := .reset, tithe := .reset, traceQ := [],
    st := { warmSteward s.st with booting := !s.straps.testen } }
  ((s.mailAbort 0).mailAbort 1).updatePanic.updateAlert

/-! ### Power-on reset and PERST# on H0 (R458, R470) -/

/-- Everything returns to its reset value. PERST# keeps OPENED, the granted scopes, the disabled PUF and the test port;
the fuses, the flash, the regulators and the pins are outside the reset. (log 78: DEDUCED) -/
def fullReset (s : State) (power : Bool) : State :=
  let old := s.st
  let base : Steward := { Steward.reset with
    powered := old.powered, perst0 := old.perst0, perst1 := old.perst1, flash := old.flash, thermtrip := old.thermtrip }
  let kept : Steward := { base with
    puf := old.puf, scopes := old.scopes, nonce := old.nonce, vddt := old.vddt, tap := old.tap,
    bypassBit := old.bypassBit, boundary := old.boundary, tapStopped := old.tapStopped }
  let opened := s.getF 0x1040 8 8
  let s := { State.reset with
    pending := s.pending, fresh := s.fresh, out := s.out, fuses := s.fuses, sensed := s.sensed, straps := s.straps,
    tiles := if power then [] else keepImem s.tiles, regs := s.regs.filter fun e => pageAt e.1 = some .fuse,
    st := if power then base else kept }
  if power then s else s.setF 0x1040 8 8 opened

/-! ### The module stopped (R452, R489) -/

/-- The links, the tiles, the memories and the PLLs but MCLK's stop, and with them every row of their domains; the steward and the
registers stay. -/
def stopModule (s : State) : State :=
  let s := foldEach [0, 1] s fun h s => (s.setReg (linkReg h) 0).onHost h fun p =>
    { p with ingress := [], responses := [], pendingLow := none, readLatch := none, mailBusy := false }
  let s := foldEach (List.range 6) s fun p s => s.setReg ((Page.ridge p).base + 0x44) 0
  let s := foldEach ((List.range 38) ++ [39]) s fun k s => s.setF ((Page.clock k).base + 0x40) 16 16 0
  { s with
    tiles := [], pillars := [], channels := [], fieldData := [], fieldCheck := [], barnData := [], barnCheck := [],
    gangs := [], disp := .reset, mesh := [], tally := .reset, ridge := .reset, tithe := .reset, traceQ := [],
    st := { s.st with
      booting := false, linked := false, fieldActive := false, barnActive := false, settling := [], upkeep := none, image := none,
      sweep := none, sweepWork := .reset, sweepDue := [], sweepRetry := [], resetWaiting := [],
      unlocked := (List.range 38).map fun k => (k, true) } }

/-- Does the steward run: powered, out of reset, not tripped, not stopped by the test port? -/
def awake (s : State) : Bool := s.st.powered && !s.st.perst0 && !s.st.thermtrip && !s.st.tapStopped

/-! ### Operating points and PLLs (R455, R476) -/

/-- VDDT of paddock `p` in mV; the regulators start at 0.70 V (R486). -/
def vddtOf (s : State) (p : Nat) : Nat := SMap.look 700 s.st.vddt p
def setVddt (s : State) (p mv : Nat) : State := { s with st := { s.st with vddt := SMap.put 700 s.st.vddt p mv } }
/-- The operating point of paddock `p`. -/
def opPointOf (s : State) (p : Nat) : Nat := SMap.look 0 s.st.opPoint p
def setOpPoint (s : State) (p i : Nat) : State := { s with st := { s.st with opPoint := SMap.put 0 s.st.opPoint p i } }
/-- The packet error code of a write on the regulator bus: CRC-8 with polynomial 0x07 (PRESUMED: SMBus's). -/
def pec (bytes : List Byte) : Byte :=
  bytes.foldl (fun c b => (List.range 8).foldl (fun c _ => if c.msb then (c <<< 1) ^^^ 0x07 else c <<< 1) (c ^^^ b)) 0

/-- A command on the regulator bus to the device of paddock `p`: a read, which sends nothing after its command; a write of `data`
with its packet error code (R486). -/
def vrRead (s : State) (p cmd : Nat) : State := s.emit (.pmbus (0x40 + p) cmd [])
def vrWrite (s : State) (p cmd : Nat) (data : List Byte) : State :=
  s.emit (.pmbus (0x40 + p) cmd (data ++ [pec (leBytes 1 (2 * (0x40 + p)) ++ leBytes 1 cmd ++ data)]))

/-- The steward learns the format of a regulator's voltages, once per boot (R486). (log 82: DESIGN CHOICE) -/
def vrMode (s : State) (p : Nat) : State :=
  if SMap.look 0 s.st.voutMode p ≠ 0 then s
  else
    let (v, s) := (s.vrRead p 0x20).takeFree 8
    { s with st := { s.st with voutMode := SMap.put 0 s.st.voutMode p (v.toNat + 1) } }

/-- The rail of paddock `p` is commanded to `mv`. -/
def driveRail (s : State) (p mv : Nat) : State :=
  let s := s.vrMode p
  (s.vrWrite p 0x21 (leBytes 2 (Config.voutCode (SMap.look 0 s.st.voutMode p - 1) mv).toNat)).setVddt p mv

/-- The steward polls the rail of paddock `p`. -/
def pollRail (s : State) (p : Nat) : State := (s.vrRead p 0x79).vrRead p 0x8B

/-- The PLL of CLOCK page `k` runs at `f` units of 100 kHz. -/
def setFreq (s : State) (k f : Nat) : State :=
  let a := (Page.clock k).base + 0x40
  (s.setF a 15 0 f).setF a 16 16 (b2n (!s.pllLost k))

/-- TCLK of paddock `p` is locked at operating point `i`. -/
def setTclk (s : State) (p i mhz : Nat) : State := (s.setFreq p (10 * mhz)).setF ((Page.clock p).base + 0x40) 20 18 i

/-! ### Paddock reset (R457, R459) -/

/-- The mode of paddock `p` that the active manifest selects (R74). -/
def manifestMode (s : State) (p : Nat) : Nat :=
  let a := (Page.paddock p).base + 0x40
  (mfWrites s.st.manifest 1 ++ mfWrites s.st.manifest 3).foldl
    (fun m e => if e.off = a && e.flags = 0 && bit e.mask 0 then e.value % 2 else m) 0

/-- Paddock `p` goes to its boot operating point; its rail is commanded where it changes. -/
def bootPoint (s : State) (p : Nat) : State :=
  match s.opPoints with
  | none => s
  | some o =>
    let i := o.boot.getD p 0
    match o.used i with
    | none => s
    | some (mv, mhz) => ((if s.vddtOf p = mv then s else s.driveRail p mv).setOpPoint p i).setTclk p i mhz

/-- A tile of a paddock under reset. -/
def paddockTile (t : Nat) (s : State) : State :=
  let s := (s.resetTile t).onTile t fun x => { x with staging := [] }
  (s.onPillar t fun y => { y with beat := 0 }).setF ((Page.tile t).base + 0xA4) 0 0 0

/-- A paddock reset takes effect. (log 79: DEDUCED) -/
def paddockReset (s : State) (p : Nat) : State :=
  let s := foldEach (s.liveGangs fun t => paddockOf t = p) s fun g s => s.resetGang g
  let s := foldEach ((List.range 272).map (272 * p + ·)) (s.placesLost p) paddockTile
  let a := (Page.paddock p).base + 0x40
  let m := s.manifestMode p
  (((s.setF a 0 0 m).setF a 8 8 m).setF a 9 9 0).bootPoint p

/-- Does a live change or a sweep work on paddock `p`? -/
def workedOn (s : State) (p : Nat) : Bool := s.st.sweep = some p || s.upkeepPaddock = some p

/-- Paddock resets that waited for work that has ended. -/
def runWaiting (s : State) : State :=
  let ready := s.st.resetWaiting.filter fun p => !s.workedOn p
  let s := { s with st := { s.st with resetWaiting := s.st.resetWaiting.filter fun p => s.workedOn p } }
  foldEach ready s fun p s => s.paddockReset p

/-- Is a warm reset in progress, the stop that the test port makes included (R448, R458)? -/
def warmBusy (s : State) : Bool := s.st.tapStopped || (s.st.booting && s.st.boot = .warm)

/-- A write of GLOBAL.RESET. -/
def writeReset (s : State) (v : Nat) : State :=
  if !bit v 31 ∨ (v % 4 ≠ 1 ∧ v % 4 ≠ 2) then s
  else if s.warmBusy then s.log .steward .resetBusy
  else if v % 4 = 1 then s.warmStart
  else
    let p := bits v 7 4
    if s.workedOn p then { s with st := { s.st with resetWaiting := s.st.resetWaiting ++ [p] } }
    else s.paddockReset p

end State

end Sys2Proof.Machine
end

