-- ==== Sys2Proof/Machine/RidgeRx.lean ====
section
/-! DEFINITION. The ridge links and what a module does with the packets it receives: flits, replay and credits (R327 to
R337), remote operations (R348 to R353), the furrow walk (R354 to R359), breaks and failover (R360 to R365). -/

namespace Sys2Proof.Machine

/-- The other port of a port's dimension. -/
def otherPort (p : Nat) : Nat := if p % 2 = 0 then p + 1 else p - 1

/-- The STATUS register of port `p`. -/
def rstat (p : Nat) : Nat := (Page.ridge p).base + 0x44

/-- A MGMT packet. It goes to the peer of a port, so the manual gives its DST no meaning: the caller takes a free value.
(log 70: DESIGN CHOICE) -/
def mgmt (op dst src len : Nat) (args data : List Byte) : Packet :=
  { op, cls := 3, vcd := 0, zdir := 0, zset := 0, dst, src, len, blight := 0, args, data }

/-- COUNT as a byte, and a byte as COUNT. -/
def countByte (c : Int) : List Byte := [BitVec.ofInt 8 c]
def byteCount (b : Nat) : Int := sgn 8 b

namespace State

/-! ### The receive buffer (R334, R335, R337) -/

/-- The cells of VC `vc` in the receive buffer of port `p`. -/
def rxFill (s : State) (p vc : Nat) : Nat :=
  ((s.rport p).rx.filter fun k => k.vc = vc).foldl (fun n k => n + k.cells) 0

/-- Ridge panic follows the fills of the REQ and RSP channels, as host panic follows the ingress fills. (log 24:
DEDUCED) -/
def updateRidgePanic (s : State) : State :=
  let reg := fun (p : Nat) => (Page.ridge p).base + 0x4C
  let hi := fun (p : Nat) => s.getF (reg p) 9 0
  let lo := fun (p : Nat) => if hi p ≤ s.getF (reg p) 25 16 then hi p - 1 else s.getF (reg p) 25 16
  let fills := fun (p : Nat) => (List.range 4).map (s.rxFill p)
  let ports := List.range 6
  let on := s.ridgePanic || ports.any fun p => (fills p).any (hi p < ·)
  foldEach (ports.map fun p => (p, on && !(fills p).all (· < lo p))) s fun r s => s.setF (rstat r.1) 3 3 (b2n r.2)

/-- Cells come to be owed to the peer of a port. -/
def owe (q : RidgePort) (k : Packet) : SMap Nat := SMap.put 0 q.owedCells k.vc (SMap.look 0 q.owedCells k.vc + k.cells)

/-- A packet received at port `p` is taken: one in the receive buffer leaves it, and its cells are owed to the peer; one of
an earlier session of the link has left it before (R335, R360). -/
def popRx (s : State) (p : Nat) (k : Packet) : State :=
  (s.onRport p fun q =>
    if q.emptied.contains k then { q with emptied := q.emptied.erase k }
    else { q with rx := q.rx.erase k, owedCells := owe q k }).updateRidgePanic

/-- The oldest packet of VC `vc` received at port `p`. -/
def headRx (s : State) (p vc : Nat) : Option Packet :=
  ((s.rport p).emptied ++ (s.rport p).rx).find? fun k => k.vc = vc

/-- Is the link of port `p` alive: up, or draining for a retrain (R364)? -/
def linkAlive (s : State) (p : Nat) : Bool := s.linkState p = 2 || s.linkState p = 4

/-! ### Sending MGMT packets -/

/-- May port `p` be used: is it up, and not miscabled (R326, R357)? -/
def usable (s : State) (p : Nat) : Bool := s.linkState p = 2 && !(s.rport p).miscabled

/-- Send a MGMT packet to the peer of port `p` if the port may be used. -/
def sendMgmt (s : State) (p op len : Nat) (args data : List Byte) : State :=
  if s.usable p then
    let (dst, s) := s.takeFree 15
    s.leaveBy 6 p (mgmt op dst.toNat s.node len args data)
  else s

/-- Pass a MGMT packet that came in at port `p` on round its ring (R343). -/
def passOn (s : State) (p : Nat) (k : Packet) : State :=
  if s.usable (otherPort p) then s.leaveBy p (otherPort p) k else s

/-- The fuse serial number as LHELLO and FURROW carry it. -/
def serialBytes (s : State) : List Byte := leBytes 8 s.fuses.serial.toNat

/-- Send LHELLO on port `p` (R358). -/
def sendHello (s : State) (p : Nat) : State :=
  s.sendMgmt p 0x20 8 (leBytes 2 (s.node + 2 ^ 15 * b2n s.nodeValid) ++ [BitVec.ofNat 8 p] ++ zeros 5) s.serialBytes

/-! ### Remote operations (R348 to R353) -/

/-- The bytes `[lo, lo + n)` of a packet's data as 64-byte lines: the line's address, its mask, its bytes. -/
def packetLines (addr : Nat) (data : List Byte) : List (Nat × Nat × List Byte) :=
  let first := addr / 64
  let count := if data.isEmpty then 0 else (addr + data.length - 1) / 64 + 1 - first
  (List.range count).map fun i =>
    let base := 64 * (first + i)
    let inside := fun (j : Nat) => addr ≤ base + j && base + j < addr + data.length
    (base, (List.range 64).foldl (fun m j => if inside j then m + 2 ^ j else m) 0,
      (List.range 64).map fun j => if inside j then data.getD (base + j - addr) 0 else 0)

/-- The receiver and the place in it that ADDR names (R339). -/
def remotePlace (s : State) (addr : Nat) : Option (Nat × LineDest) :=
  if 2 ^ 39 ≤ addr then some (s.ptileOf (addr / 2 ^ 18 % 2 ^ 12), .bin (addr % 2 ^ 18))
  else
    match s.locate addr with
    | some (.field t off) => some (t, .pillar off)
    | some (.barn _) => some (4352, .barn addr)
    | none => none

/-- An RWR at its destination (R348, R349). (log 71: DEDUCED) -/
def takeRwr (s : State) (k : Packet) : State :=
  let addr := k.arg 8 5
  let ls := packetLines addr (padTo k.len k.data)
  foldEach ls.zipIdx s fun l s =>
    match s.remotePlace l.1.1 with
    | none => s
    | some (t, dest) =>
      s.stageArrive t
        { src := .remote k.src (k.arg 13 2 % 2 ^ 13), epoch := BitVec.ofNat 32 (k.arg 15 1), q := b2n (l.2 + 1 = ls.length),
          dest, mask := l.1.2.1, line := ⟨l.1.2.2, bit k.blight (l.1.1 / 64 % 4)⟩ }

/-- Hand on a line of a remote read; none while an earlier mesh request waits for the same place, or that is full (R23). -/
def handRead (s : State) (r : MemReq) : Option State :=
  if s.mesh.any fun x => s.meshStop x = s.meshStop r then none else s.handOn r

/-- An RRD at its destination: a mesh access; none while the queues it needs are full, or a line waits for staging room at the
stop of the tile whose bin it reads (R255, R351). One whose ADDR names no memory is dropped, and its sender faults for want of a
reply. (log 71: DEDUCED) -/
def takeRrd (s : State) (env : Env) (k : Packet) : Option State :=
  let addr := k.arg 8 5
  let need := (addr % 2 ^ 18 + k.len - 1) / 64 + 1 - addr % 2 ^ 18 / 64
  let bin := decide (2 ^ 39 ≤ addr)
  let r : RemoteRead :=
    { id := s.ridge.nextRead, src := k.src, rtile := k.arg 13 2 % 2 ^ 13, rtag := k.arg 15 1,
      addr := if bin then addr % 2 ^ 18 else addr, len := k.len, lines := [], need }
  if bin then
    let t := s.ptileOf (addr / 2 ^ 18 % 2 ^ 12)
    if (s.tile t).stageWait ≠ [] then none
    else
    let s := s.binErrors t env ((List.range need).map fun i => (64 * (r.addr / 64 + i), 64))
    let lines := (List.range need).map fun i => (i, s.binRead t (64 * (r.addr / 64 + i)) 64)
    some (s.inject (s.readReply { r with lines }) 2).2
  else if (s.locate addr).isNone then some s
  else
    let s := { s with ridge := { s.ridge with reads := s.ridge.reads ++ [r], nextRead := s.ridge.nextRead + 1 } }
    (List.range need).foldl
      (fun o i => o.bind fun s => s.handRead (meshReq (.ridge r.id i) .read (64 * (addr / 64 + i))))
      (some s)

/-- The remote entry of tile `t`: the head of its copy queue, with its command and far end. -/
def remoteEntry (s : State) (t : Nat) : Option (Entry × CpCmd × FarEnd × Nat) :=
  match s.headEntry t 2 with
  | none => none
  | some e =>
    let c := cpCmd e.desc
    let f := s.farEnd t c
    f.node.map fun n => (e, c, f, n)

/-- The first far address of an entry. -/
def farFirst (c : CpCmd) (f : FarEnd) : Nat :=
  match f.place ((if c.dir = 0 then c.src else c.dst).at_ c.sz 0 0 0).toNat with
  | .ridge _ a => a
  | _ => 0

/-- An RRSP for a tile of this module (R351, R353). -/
def takeRrsp (s : State) (k : Packet) : State :=
  let t := k.arg 13 2 % 2 ^ 13
  match s.remoteEntry t with
  | none => s
  | some (e, c, f, n) =>
    match e.unanswered.find? fun i => i % 256 = k.arg 15 1 with
    | none => s
    | some i =>
      let a := ((c.requests f).getD i (0, 0)).1
      if k.arg 8 1 ≠ 0 then s.entryFault t e 0x50 n a
      else
        let got := (packetLines a (padTo k.len k.data)).map fun l =>
          let lo := max a l.1
          (n, lo, (⟨((padTo k.len k.data).drop (lo - a)).take (min (l.1 + 64) (a + k.len) - lo), bit k.blight (l.1 / 64 % 4)⟩ : Line))
        s.setEntry t { e with unanswered := e.unanswered.erase i, got := e.got ++ got }

/-- A WACK for a tile of this module (R348, R353). One of another step is ignored. -/
def takeWack (s : State) (k : Packet) : State :=
  let t := k.arg 13 2 % 2 ^ 13
  match s.remoteEntry t with
  | none => s
  | some (e, c, f, n) =>
    if e.unplaced = 0 ∨ k.arg 15 1 ≠ (s.tile t).epoch.toNat % 256 then s
    else if k.arg 8 1 ≠ 0 then s.entryFault t e 0x50 n (farFirst c f)
    else s.setEntry t { e with unplaced := e.unplaced - 1 }

/-- The receiver of this module that RECV names (R339). -/
def recvFor (s : State) (recv : Nat) : Nat := if bit recv 12 then 4352 else s.ptileOf (recv % 2 ^ 12)

/-- A COMMIT or ABORT of another module (R350). -/
def takeRemoteCommit (s : State) (env : Env) (k : Packet) : State :=
  (s.upset env).takeCommit (s.recvFor (k.arg 12 2)) env
    { src := .remote k.src (k.arg 14 2 % 2 ^ 13), epoch := BitVec.ofNat 32 (k.arg 8 4), abort := k.op = 0x11 }

/-- A CACK for a tile of this module: it answers the ABORT or the COMMIT of that step (R350, R353). -/
def takeCack (s : State) (k : Packet) : State :=
  let t := k.arg 14 2 % 2 ^ 13
  let r : Receiver := .remote k.src (k.arg 12 2 % 2 ^ 13)
  let epoch := BitVec.ofNat 32 (k.arg 8 4)
  let x := s.tile t
  if x.aborts.contains (r, epoch) then s.onTile t fun x => { x with aborts := x.aborts.erase (r, epoch) }
  else s.gateAck t r (some epoch)

/-- A reply to a packet of this module, from another module or from its own refusal of the packet (R345, R353). -/
def takeReply (s : State) (k : Packet) : State :=
  if k.op = 0x03 then s.takeRrsp k else if k.op = 0x04 then s.takeWack k else s

/-- A packet from a crossbar input begins a leg here (R342, R345). -/
def sendFrom (s : State) (input : Nat) (k : Packet) : State :=
  match s.injectAt input k 2 with
  | (some r, s) => s.takeReply r
  | (none, s) => s

/-- A CACK that tile `t` awaits has not come: the one its gate awaits for a COMMIT, or one for an ABORT, which a tile that its
gang's fault has stopped awaits too (R353). A tile that has raised a fault itself does not fault again. (log 71: DEDUCED) -/
def cackTimeout (s : State) (t : Nat) : State :=
  let x := s.tile t
  let fault := fun (s : State) (n : Nat) =>
    if x.core = .faulted ∧ x.fcode ≠ 0 then s else s.tileFault t { FaultInfo.gate 0x51 x.pc with detail := n }
  match x.gate.awaiting.find? State.isRemote, x.aborts with
  | some (.remote n _), _ => fault s n
  | _, (.remote n _, _) :: rest => fault (s.onTile t fun x => { x with aborts := rest }) n
  | _, _ => s

/-- A reply that tile `t` awaits has not come for 2^24 TCLK: a read or write of its copy queue, or (`q` of no queue that
sends any) a CACK (R353). -/
def replyTimeout (s : State) (t q : Nat) : State :=
  if q = 2 then
    match s.remoteEntry t with
    | some (e, c, f, n) =>
      match e.unanswered with
      | i :: _ => s.entryFault t e 0x51 n ((c.requests f).getD i (0, 0)).1
      | [] => if e.unplaced ≠ 0 then s.entryFault t e 0x51 n (farFirst c f) else s
    | none => s
  else s.cackTimeout t

/-! ### Breaks, holds and bounces (R360 to R365) -/

/-- The direction a SYNC packet takes from here to coordinate `x` of dimension `d`: a port, by R342. -/
def legPort (s : State) (d x : Nat) : Option Nat :=
  let n := s.ringLen d
  let c := s.coord d
  if !s.ringAddressed d ∨ n ≤ x ∨ x = c then none
  else
    let hp := (x + n - c % n) % n
    let hn := (c + n - x) % n
    let okP := (s.breaks d).all fun b => hp ≤ (b + n - c % n) % n
    let okN := (s.breaks d).all fun b => hn ≤ (c + 2 * n - (b + 1)) % n
    if okP ∧ (!okN ∨ hp ≤ hn) then some (2 * d) else if okN then some (2 * d + 1) else none

/-- A SEAL has returned: what was held for it and no longer is goes on in order (R363). -/
def release (s : State) (d cls : Nat) : State :=
  match takeFirst (fun (x : Sealing) => decide (x.dim = d ∧ x.cls = cls)) s.ridge.sealing with
  | none => s
  | some (_, rest) =>
    let held := s.ridge.held
    let s := { s with ridge := { s.ridge with sealing := rest } }
    let mine := fun (h : Nat × Nat × Packet) => decide (h.1 = d) && decide (h.2.2.cls = cls) && !s.holds d h.2.2
    let s := { s with ridge := { s.ridge with held := held.filter fun h => !mine h } }.showHeld
    foldEach (held.filter mine) s fun h s => s.sendFrom h.2.1 h.2.2

/-- Does a SEAL belong to this module? -/
def ownSeal (s : State) (k : Packet) : Bool := k.arg 9 1 % 32 = s.coord (k.arg 8 1 % 4)

/-- Send one packet back the way it came from the broken link of port `p`: it restarts its leg on VCD 0 (R361, R362). A
SEAL turns with the others, and so does every MGMT packet. (log 72: DEDUCED) -/
def bounce (p : Nat) (k : Packet) (s : State) : State :=
  let back := fun (s : State) => s.leaveBy p (otherPort p) { k with vcd := 0 }
  if k.op = 0x25 then if s.ownSeal k then s.release (p / 2) k.cls else back s
  else if k.cls = 3 then if s.usable (otherPort p) then back s else s
  else
    let k := { k with vcd := 0, zset := if p / 2 = 2 then 0 else k.zset }
    match s.route k with
    | .go q zdir zset => s.leaveBy p q { k with zdir, zset }
    | .deliver => s
    | .refuse => s.sendFrom p k

/-- Bounce these packets and then what is queued for port `p`. -/
def bounceAll (s : State) (p : Nat) (ks : List Packet) : State :=
  let ks := ks ++ (s.rport p).txq.map (·.2)
  let s := s.onRport p fun q => { q with txq := [], bounce := [], awaitingRxseq := false, told := none }
  foldEach ks s (bounce p)

/-- The peer of the broken link of port `p` has told the last flit it accepted: every packet with a byte in a later one is
bounced (R361). -/
def bounceAfter (s : State) (p : Nat) (seq : BitVec 12) : State :=
  s.bounceAll p ((((s.rport p).bounce.filter fun f => serialGT 12 f.seq.toNat seq.toNat).map (·.packets)).flatten)

/-- Send a packet from a crossbar input on port `p`; where the link is down and nothing waits for RXSEQ, it is bounced. -/
def goAlong (s : State) (input p : Nat) (k : Packet) : State :=
  if s.linkAlive p ∨ (s.rport p).awaitingRxseq then s.leaveBy input p k else bounce p k s

/-- Seal the classes of dimension `d` towards the coordinates whose direction has changed (R363). (log 72: DEDUCED) -/
def sealUp (s : State) (d p : Nat) (dsts : List Nat) : State :=
  foldEach (if d = 2 then [2] else [0, 1, 2]) s fun cls s =>
    let x : Sealing := { dim := d, cls, dsts }
    let s : State := { s with ridge := { s.ridge with sealing := s.ridge.sealing ++ [x] } }
    let args := leBytes 1 d ++ leBytes 1 (s.coord d) ++ zeros 6
    s.goAlong 6 p
      { op := 0x25, cls, vcd := 0, zdir := p % 2, zset := b2n (d = 2), dst := s.node, src := s.node, len := 0, blight := 0,
        args, data := [] }

/-- The nodes that staged lines came from. -/
def stagedNodes (s : State) : List Nat :=
  (((s.tiles.flatMap fun e => e.2.staging) ++ s.ridge.staging).filterMap fun l =>
    match l.src with | .remote n _ => some n | .tile _ => none).eraseDups

/-- Discard the staged lines of a node; lines that still wait for room are not staged yet (R255, R365). -/
def purgeNode (s : State) (n : Nat) : State :=
  let keep := fun (ls : List StageLine) =>
    ls.filter fun l => match l.src with | .remote m _ => decide (m ≠ n) | .tile _ => true
  { s with tiles := s.tiles.map fun e => (e.1, { e.2 with staging := keep e.2.staging })
           ridge := { s.ridge with staging := keep s.ridge.staging } }

/-- Is a node out of reach? -/
def unreachable (s : State) (n : Nat) : Bool :=
  s.route { op := 0x10, cls := 2, vcd := 0, zdir := 0, zset := 0, dst := n, src := s.node, len := 0, blight := 0,
            args := [], data := [] } = .refuse

/-- Staged lines of nodes that have become unreachable are discarded (R365). -/
def dropOrphans (s : State) : State :=
  match s.stagedNodes.filter s.unreachable with
  | [] => s
  | ns => (foldEach ns s fun n s => s.purgeNode n).log (.ridge 0) .stageOrphan

/-- The BREAK field that lists these breaks, the first two of more. -/
def breakWord : List Nat → Nat
  | [] => 0
  | [a] => a % 32 + 32
  | a :: b :: _ => a % 32 + 32 + (b % 32 + 32) * 64

/-- The breaks of dimension `d` beyond the two that RIDGE.BREAK has room for. -/
def setCut (s : State) (d : Nat) (bs : List Nat) : State :=
  { s with ridge := { s.ridge with cut := (s.ridge.cut.filter fun c => c.1 ≠ d) ++ (bs.drop 2).map fun b => (d, b) } }

/-- The RING and BREAK fields of dimension `d` take new values, a ring change for vector 68 (R393); classes whose direction
changes are sealed. -/
def setRing (s : State) (d len state : Nat) (bs : List Nat) : State :=
  let before := (List.range 32).map (s.legPort d)
  let s := ((s.setF 0x48104 (8 * d + 4) (8 * d) len).setF 0x48104 (8 * d + 7) (8 * d + 5) state).setF 0x48108
    (12 * d + 11) (12 * d) (breakWord bs)
  let s := s.setCut d bs
  let changed := (List.range 32).filter fun x =>
    match before.getD x none, s.legPort d x with
    | some a, some b => decide (a ≠ b)
    | _, _ => false
  let s := s.raise 68
  match changed with
  | [] => s
  | x :: _ => if s.nodeValid then s.sealUp d ((before.getD x none).getD 0) changed else s

/-- The ring of dimension `d` has these breaks, in a state that follows their number. -/
def setBreaks (s : State) (d : Nat) (bs : List Nat) : State :=
  let state := match bs.length with | 0 => 1 | 1 => 2 | _ => 3
  s.setRing d (s.ringLen d - 1) state bs

/-- A break is learnt (R360). -/
def addBreak (s : State) (d b : Nat) : State :=
  if s.ringAddressed d ∧ !(s.breaks d).contains b then (s.setBreaks d (s.breaks d ++ [b])).dropOrphans else s

/-- The break that the link of port `p` makes. -/
def breakOf (s : State) (p : Nat) : Nat :=
  let d := p / 2
  if p % 2 = 0 then s.coord d else (s.coord d + s.ringLen d - 1) % s.ringLen d

/-- The link of port `p` goes down (R333, R360); `planned` after every flit has been acknowledged (R364). Whole packets
received leave the buffer and stay to be handled; the peer has not wholly accepted a packet whose last bytes are still to
be sent (R361). -/
def linkGoesDown (s : State) (p : Nat) (planned : Bool) : State :=
  let d := p / 2
  let rxseq := ((s.rport p).rxSeq - 1).toNat
  let begun := (s.rport p).tailPkt.toList
  let s := if planned then s else s.log (.ridge p) .linkDown
  let s := (s.setF (rstat p) 2 0 3).onRport p fun q =>
    { q with part := [], emptied := q.emptied ++ q.rx, rx := [],
             bounce := q.sent ++ (q.tailPkt.toList.map fun k => ⟨q.txSeq, [], [k]⟩), sent := [], tailPkt := none,
             tail := [], awaitingRxseq := true, nakState := false, nakOwed := false, unacked := 0, owedCells := [],
             usedCells := [], replays := 0, closing := false }
  let s := s.updateRidgePanic
  let s :=
    if s.coordValid d ∧ s.ringAddressed d then
      let s := s.sendMgmt (otherPort p) 0x24 0
        (leBytes 1 d ++ leBytes 1 (s.coord d + 32 * b2n (p % 2 = 0)) ++ leBytes 2 (rxseq + 2 ^ 12) ++ zeros 4) []
      s.addBreak d (s.breakOf p)
    else s
  if planned then s.bounceAll p begun
  else match (s.rport p).told with
    | some seq => s.bounceAfter p seq
    | none => s

/-- A planned take-down of port `p`, when every flit is acknowledged; EN set again meanwhile lets the port train. -/
def closeLink (s : State) (p : Nat) : State :=
  let s := s.linkGoesDown p true
  if s.getF ((Page.ridge p).base + 0x40) 0 0 = 1 then s.setF (rstat p) 2 0 1 else s

/-- RIDGE.CTRL.EN takes the link of port `p` down: no new DATA flits, and once every flit is acknowledged it goes down
(R364, R366). -/
def planDown (s : State) (p : Nat) : State :=
  if !s.linkAlive p then s
  else
    let s := (s.setF (rstat p) 2 0 4).onRport p fun q => { q with closing := true }
    if (s.rport p).sent = [] then s.closeLink p else s

/-! ### Link layer (R328 to R335) -/

/-- May ACKSEQ be right: not later than the last flit sent, not earlier than the oldest unacknowledged (R331)? -/
def ackOk (q : RidgePort) (a : BitVec 12) : Bool :=
  serialGE 12 (q.txSeq - 1).toNat a.toNat && (match q.sent with | [] => true | f :: _ => serialGE 12 a.toNat f.seq.toNat)

/-- Is port `p`, which is being taken down, to go down now that every flit is acknowledged (R364)? -/
def drained (s : State) (p : Nat) : Bool := s.linkState p = 4 && (s.rport p).sent.isEmpty && (s.rport p).closing

/-- Release the flits that ACKSEQ acknowledges; a port that is being taken down goes down after its last (R331, R364). -/
def ackTo (s : State) (p : Nat) (a : BitVec 12) : State :=
  let s := s.onRport p fun q =>
    { q with sent := q.sent.filter fun f => serialGT 12 f.seq.toNat a.toNat, replays := 0 }
  if s.drained p then s.closeLink p else s.pumpAll p

/-- An ACKSEQ arrives. -/
def ackReceive (s : State) (p : Nat) (a : BitVec 12) : State :=
  if !s.linkAlive p then s
  else if ackOk (s.rport p) a then s.ackTo p a
  else s.log (.ridge p) .linkProto

/-- Send again every flit after ACKSEQ (R330). -/
def resend (s : State) (p : Nat) : State :=
  let fs := (s.rport p).sent
  let s := foldEach fs s fun f s => s.emit (.flit p (f.bytes ++ flitCrc f.seq f.bytes))
  let a := (Page.ridge p).base
  let s := (s.addF (a + 0x58) 63 0 fs.length).addF (a + 0x50) 31 16 1
  match fs with
  | [] => s
  | f :: _ =>
    let n := if (s.rport p).replays ≠ 0 ∧ (s.rport p).replayFrom = f.seq then (s.rport p).replays + 1 else 1
    let s := s.onRport p fun q => { q with replays := n, replayFrom := f.seq }
    if 16 ≤ n then s.linkGoesDown p false else s

/-- A NAK arrives: its ACKSEQ may also be the flit before the oldest unacknowledged one. (log 68: DEDUCED) -/
def nakReceive (s : State) (p : Nat) (a : BitVec 12) : State :=
  if !s.linkAlive p then s
  else
    let q := s.rport p
    match q.sent with
    | [] => if ackOk q a then s.resend p else s.log (.ridge p) .linkProto
    | f :: _ =>
      if a = f.seq - 1 then s.resend p
      else if ackOk q a then
        let s := s.onRport p fun q => { q with sent := q.sent.filter fun f => serialGT 12 f.seq.toNat a.toNat, replays := 0 }
        let s := s.resend p
        if s.drained p then s.closeLink p else s
      else s.log (.ridge p) .linkProto

/-- Cells come back (R335). -/
def creditReturn (s : State) (p vc n : Nat) : State :=
  if !s.linkAlive p then s
  else
    let s := s.onRport p fun q => { q with usedCells := SMap.put 0 q.usedCells vc (SMap.look 0 q.usedCells vc - n) }
    s.pumpAll p

/-- The link-control record of a flit acts (R330 to R332, R335). (log 67: DESIGN CHOICE) -/
def takeRecord (s : State) (p : Nat) (r : List Byte) : State :=
  let w := field r 0 2
  let a := BitVec.ofNat 12 w
  let s := if bit w 13 then s.nakReceive p a else if bit w 12 then s.ackReceive p a else s
  foldEach (List.range 8) s fun v s =>
    let n := field r 2 4 / 16 ^ v % 16
    if n = 0 then s else s.creditReturn p v n

/-- Cut packets from the bytes of a flit; `n` bounds them. Answers the packets and the bytes of an unfinished one. A
packet whose reserved header fields are not zero is kept as one of no OP (R329, R338, R340). -/
def cutPackets (bs : List Byte) : Nat → List Packet × List Byte
  | 0 => ([], [])
  | n + 1 =>
    if bs.headD 0 = 0 then ([], [])
    else if bs.length < 16 then ([], bs)
    else
      let k := Packet.parse bs
      let size := 16 + k.follows
      if bs.length < size then ([], bs)
      else
        let k := if headerClean bs then k else { k with op := 0, len := k.follows }
        let (ks, rest) := cutPackets (bs.drop size) n
        (k :: ks, rest)

/-- Send an IDLE flit with a link-control record. -/
def sendRecord (s : State) (p : Nat) : State := s.sendFlit p false true [] []

/-- A flit fails (R330): it is discarded and counted, and a NAK goes out. (log 68: DEDUCED) -/
def flitFails (s : State) (p : Nat) (proto : Bool) : State :=
  let s := s.addF ((Page.ridge p).base + 0x50) 15 0 1
  let s := if proto then s.log (.ridge p) .linkProto else s
  if (s.rport p).nakState then s
  else (s.onRport p fun q => { q with nakState := true, nakOwed := true }).sendRecord p

/-- A flit arrives on port `p`. -/
def flitReceive (s : State) (p : Nat) (flit : List Byte) (fecOk : Bool) : State :=
  if !s.linkAlive p then s
  else
    let q := s.rport p
    let f := padTo 256 flit
    let hdr := field f 0 1
    let crc := decide (f.drop 252 = flitCrc q.rxSeq (f.take 252))
    let form := decide (hdr % 4 < 2 ∧ hdr < 8)
    if !(fecOk && crc && form) then s.flitFails p (crc && !form)
    else if q.nakState ∧ hdr % 4 = 1 then s.addF ((Page.ridge p).base + 0x50) 15 0 1
    else
      let body := (f.take 252).drop (if bit hdr 2 then 9 else 1)
      let s :=
        if hdr % 4 = 0 then
          let (ks, rest) := cutPackets (q.part ++ body) 32
          (s.onRport p fun q =>
            { q with rxSeq := q.rxSeq + 1, nakState := false, unacked := q.unacked + 1, rx := q.rx ++ ks, part := rest }).updateRidgePanic
        else s
      if bit hdr 2 then s.takeRecord p ((f.drop 1).take 8) else s

/-! ### The furrow walk (R354 to R358) -/

/-- The walk of dimension `d`. -/
def walk (s : State) (d : Nat) : Walk := SMap.look Walk.reset s.ridge.walks d
def onWalk (s : State) (d : Nat) (f : Walk → Walk) : State :=
  { s with ridge := { s.ridge with walks := SMap.put Walk.reset s.ridge.walks d (f (s.walk d)) } }

/-- Is this module the origin of dimension `d`? -/
def isOrigin (s : State) (d : Nat) : Bool :=
  if d = 0 then s.straps.originX else if d = 1 then s.straps.originY else s.straps.originZ

/-- Set this module's coordinate in dimension `d`, not yet valid. -/
def setCoord (s : State) (d c : Nat) : State := s.setF 0x48100 (5 * d + 4) (5 * d) c

/-- The cause of a ring state (R357). -/
def ringCause (state : Nat) : Option Cause :=
  match state with
  | 4 => some .noOrigin
  | 5 => some .twoOrigins
  | 6 => some .ringLong
  | _ => none

/-- Send RINGINFO on one port. -/
def sendRinginfo (s : State) (p d state len : Nat) (bs : List Nat) : State :=
  s.sendMgmt p 0x23 8 (leBytes 1 d ++ leBytes 1 (len - 1) ++ leBytes 1 state ++ leBytes 2 (breakWord bs) ++ zeros 3) s.serialBytes

/-- Does the peer of port `p` lie where it should: one step along the dimension, the other coordinates alike? -/
def peerFits (s : State) (p n : Nat) : Bool :=
  let d := p / 2
  let len := s.ringLen d
  let want := if p % 2 = 0 then (s.coord d + 1) % len else (s.coord d + len - 1) % len
  [0, 1, 2].all fun x => nodeCoord n x = if x = d then want else s.coord x

/-- The link of port `p` joins a ring in which it was a break: the ring routes across it again, and both ways round the
ring are told (R364). -/
def rejoin (s : State) (p : Nat) : State :=
  let d := p / 2
  if s.ringAddressed d ∧ (s.breaks d).contains (s.breakOf p) then
    let bs := (s.breaks d).erase (s.breakOf p)
    let s := s.setBreaks d bs
    (s.sendRinginfo p d (s.ringState d) (s.ringLen d) bs).sendRinginfo (otherPort p) d (s.ringState d) (s.ringLen d) bs
  else s

/-- The check of port `p` against what its peer's last LHELLO reported, while both addresses are valid (R358). (log 73:
DEDUCED) -/
def checkPeer (s : State) (p : Nat) : State :=
  let v := s.getF ((Page.ridge p).base + 0x48) 15 0
  if !s.usable p || !(s.nodeValid && bit v 15) then s
  else if s.peerFits p (v % 2 ^ 15) then ((s.onRport p fun q => { q with mgmtOnly := false }).rejoin p).pumpAll p
  else (s.onRport p fun q => { q with mgmtOnly := true }).log (.ridge p) .coordMismatch

/-- LHELLO goes out on every port that is up, and every port is checked (R358, R359). -/
def greetAll (s : State) : State :=
  let s := foldEach (List.range 6) s fun p s => s.sendHello p
  foldEach (List.range 6) s fun p s => s.checkPeer p

/-- When every walk has ended, LHELLO goes out on every port that is up, and stage 11 of a full boot is done (R358,
R442). -/
def walksEnded (s : State) : State :=
  if [0, 1, 2].all fun d => (s.walk d).ended then
    let s := s.greetAll
    if s.st.booting ∧ s.st.boot = .full ∧ s.getF 0x1040 3 0 = 10 then
      let s := (s.setF 0x1040 3 0 11).setF 0x1040 5 4 1
      { s with st := { s.st with booting := false } }
    else s
  else s

/-- The walk of dimension `d` ends here with a ring state, a length and a break. -/
def endWalk (s : State) (d state len : Nat) (bs : List Nat) : State :=
  let w := s.walk d
  let good := decide (state = 1 ∨ state = 2)
  let c := if w.count < 0 then (Int.toNat (len + w.count)) else w.count.toNat
  let s := ((s.setF 0x48104 (8 * d + 4) (8 * d) (len - 1)).setF 0x48104 (8 * d + 7) (8 * d + 5) state).setF 0x48108
    (12 * d + 11) (12 * d) (breakWord bs)
  let s := if good then (s.setCoord d c).setF 0x48100 (16 + d) (16 + d) 1 else s
  let s := match ringCause state with | some x => s.log (.ridge 0) x | none => s.raise 68
  (s.onWalk d fun w => { w with ended := true, early := [] }).walksEnded

/-- Is port `p` present in the walk of its dimension: was it up when the walk began, if it has (R354)? -/
def portPresent (s : State) (p : Nat) : Bool :=
  let w := s.walk (p / 2)
  !w.begun || (if p % 2 = 1 then w.upN else w.upP)

/-- End the walk and tell the ring both ways, by the ports that are present. -/
def concludeWalk (s : State) (d state len : Nat) (bs : List Nat) : State :=
  let tell := fun (p : Nat) (s : State) => if s.portPresent p then s.sendRinginfo p d state len bs else s
  (foldEach [2 * d, 2 * d + 1] s tell).endWalk d state len bs

/-- Send a token or an end report of dimension `d`. -/
def sendToken (s : State) (p op d : Nat) (nToken : Bool) (count : Int) (serial : List Byte) : State :=
  s.sendMgmt p op 8 (leBytes 1 (d + 4 * b2n nToken) ++ countByte count ++ zeros 6) serial

/-- May the walk of dimension `d` use its N (or else its P) port: was it up when the walk began, and may it be used
(R354, R356, R357)? -/
def walkPort (s : State) (d : Nat) (nSide : Bool) : Bool := s.portPresent (2 * d + b2n nSide) && s.usable (2 * d + b2n nSide)

/-- The origin has the P-end report, with COUNT `a`: it starts the N-token, or the chain is complete (R356). -/
def pEndKnown (s : State) (d a : Nat) : State :=
  let s := s.onWalk d fun w => { w with pEnd := some a }
  if s.walkPort d true then s.sendToken (2 * d + 1) 0x21 d true (-1) s.serialBytes
  else s.concludeWalk d 2 (a + 1) [a]

/-- A P-token at a module that is not the origin. -/
def takePToken (s : State) (d : Nat) (count : Int) (serial : List Byte) : State :=
  let c := (count + 1).toNat
  if 32 ≤ c then s.concludeWalk d 6 32 []
  else
    let s := (s.onWalk d fun w => { w with token := true, count := c }).setCoord d c
    if s.walkPort d false then s.sendToken (2 * d) 0x21 d false c serial
    else s.sendToken (2 * d + 1) 0x22 d false c serial

/-- An N-token at a module that is not the origin. -/
def takeNToken (s : State) (d : Nat) (count : Int) (serial : List Byte) : State :=
  let s := s.onWalk d fun w => { w with token := true, count }
  if s.walkPort d true then s.sendToken (2 * d + 1) 0x21 d true (count - 1) serial
  else s.sendToken (2 * d) 0x22 d true count serial

/-- A FURROW packet at port `p` (R354 to R357); a port that was not up when the walk began is absent from it. -/
def takeFurrow (s : State) (p : Nat) (k : Packet) : State :=
  let d := p / 2
  let w := s.walk d
  let nTok := bit (k.arg 8 1) 2
  let count := byteCount (k.arg 9 1)
  let own := decide (k.data = s.serialBytes)
  if !nTok ∧ p % 2 = 0 then (s.onRport p fun q => { q with miscabled := true }).log (.ridge p) .miscabled
  else if nTok ∧ p % 2 = 1 then s
  else if !w.begun then s.onWalk d fun w => { w with early := w.early ++ [(p, k)] }
  else if w.ended ∨ !s.portPresent p then s
  else if s.isOrigin d then
    if !own then s.concludeWalk d 5 1 []
    else if nTok then s
    else s.concludeWalk d 1 (count + 1).toNat []
  else if w.token then s.concludeWalk d 5 1 []
  else if nTok then s.takeNToken d count k.data
  else s.takePToken d count k.data

/-- A FURROWEND packet at port `p` (R356). -/
def takeFurrowend (s : State) (p : Nat) (k : Packet) : State :=
  let d := p / 2
  let w := s.walk d
  let nTok := bit (k.arg 8 1) 2
  let count := byteCount (k.arg 9 1)
  if !s.portPresent p then s
  else if !s.isOrigin d then if s.portPresent (otherPort p) then s.passOn p k else s
  else if !w.begun ∨ w.ended then s
  else if !nTok then s.pEndKnown d count.toNat
  else
    let a := w.pEnd.getD 0
    let n := a + (-count).toNat + 1
    if 32 < n then s.concludeWalk d 6 32 [] else s.concludeWalk d 2 n [a]

/-- A RINGINFO packet at port `p`: the first ends the walk here; a later one tells of a change of the ring (R355, R364).
One that tells nothing new goes no further. -/
def takeRinginfo (s : State) (p : Nat) (k : Packet) : State :=
  let d := p / 2
  let w := s.walk d
  let len := k.arg 9 1 % 32 + 1
  let state := k.arg 10 1 % 8
  let brk := k.arg 11 2 % 2 ^ 12
  let bs := (if bit brk 5 then [brk % 32] else []) ++ (if bit brk 11 then [bits brk 10 6] else [])
  if !w.ended then
    if !s.portPresent p then s
    else
      let on := s.portPresent (otherPort p)
      let s := s.endWalk d state len bs
      if on then s.passOn p k else s
  else if s.ringState d = state ∧ s.breaks d = bs then s
  else if s.ringAddressed d ∧ (state = 1 ∨ state = 2 ∨ state = 3) then
    (s.setRing d (len - 1) state bs).dropOrphans.passOn p k
  else s

/-- Begin the walk of dimension `d`. -/
def beginWalk (s : State) (d : Nat) : State :=
  let upP := s.usable (2 * d)
  let upN := s.usable (2 * d + 1)
  let early := (s.walk d).early
  let s := s.onWalk d fun w => { w with begun := true, upP, upN, early := [] }
  if !upP ∧ !upN then s.endWalk d 1 1 []
  else if s.isOrigin d then
    let s := if upP then s.sendToken (2 * d) 0x21 d false 0 s.serialBytes else s.pEndKnown d 0
    foldEach early s fun e s => s.takeFurrow e.1 e.2
  else foldEach early s fun e s => s.takeFurrow e.1 e.2

/-- 500 ms have passed since the walks began (R357). (log 74: DEDUCED) -/
def walkTimeout (s : State) : State :=
  foldEach [0, 1, 2] s fun d s =>
    let w := s.walk d
    if !w.begun ∨ w.ended then s
    else if s.isOrigin d then s.concludeWalk d 4 1 []
    else if w.token then s
    else s.endWalk d 4 1 []

/-! ### LHELLO (R326, R358, R364) -/

/-- An LHELLO at port `p`. (log 73: DEDUCED) -/
def takeHello (s : State) (p : Nat) (k : Packet) : State :=
  let n := k.arg 8 2
  let s := s.setF ((Page.ridge p).base + 0x48) 18 0 (n + 2 ^ 16 * (k.arg 10 1 % 8))
  if k.arg 10 1 % 8 ≠ otherPort p then
    (s.onRport p fun q => { q with miscabled := true }).log (.ridge p) .miscabled
  else
    (s.onRport p fun q => { q with miscabled := false }).checkPeer p

/-- May ridge ports train: stage 6 is complete, no boot has stopped for want of a manifest, and the reference clock of the ridge is
there (R440, R444, R490)? -/
def ridgeTrains (s : State) : Bool := 6 ≤ s.getF 0x1040 3 0 && s.getF 0x1040 5 4 < 2 && s.straps.refL

/-- A link finishes training (R329, R335, R354, R358): its sequence numbers and credits start afresh. One that comes up
once the walk has ended carries MGMT only until the check passes. -/
def ridgeUp (s : State) (p : Nat) : State :=
  if s.linkAlive p ∨ s.getF ((Page.ridge p).base + 0x40) 0 0 = 0 ∨ !s.awake ∨ !s.ridgeTrains then s
  else
    let s := (s.setF (rstat p) 2 0 2).onRport p fun q =>
      { RidgePort.reset with emptied := q.emptied, txq := q.txq, bounce := q.bounce, awaitingRxseq := q.awaitingRxseq,
                             mgmtOnly := (s.walk (p / 2)).ended }
    (s.raise 68).sendHello p

/-! ### LINKDOWN and SEAL (R360 to R363) -/

/-- A LINKDOWN at port `p`: the break is recorded; the module at the other end of the link takes RXSEQ, which it keeps where it
has not declared the link down itself (R361); others pass the packet on. -/
def takeLinkdown (s : State) (p : Nat) (k : Packet) : State :=
  let d := p / 2
  let n := s.ringLen d
  let r := k.arg 9 1 % 32
  let pSide := bit (k.arg 9 1) 5
  let b := if pSide then r else (r + n - 1) % n
  let mine := if pSide then decide (s.coord d = (r + 1) % n) else decide (s.coord d = b)
  let port := if pSide then 2 * d + 1 else 2 * d
  let s := s.addBreak d b
  let seq := BitVec.ofNat 12 (k.arg 10 2)
  if !mine then s.passOn p k
  else if !bit (k.arg 10 2) 12 then s
  else if (s.rport port).awaitingRxseq then s.bounceAfter port seq
  else if s.linkAlive port then s.onRport port fun q => { q with told := some seq }
  else s

/-- No RXSEQ has come within 20 µs: the unacknowledged packets are lost (R361). -/
def rxseqLost (s : State) (p : Nat) : State :=
  if (s.rport p).awaitingRxseq then
    let n := ((s.rport p).bounce.map (·.packets)).flatten.length
    (s.addF ((Page.ridge p).base + 0x60) 63 0 n).bounceAll p []
  else s

/-- A packet in transit keeps its direction on a ring until its leg ends, and then turns; at a break it is bounced (R342,
R343, R361, R362). -/
def transit (s : State) (p : Nat) (k : Packet) : State :=
  let d := p / 2
  let out := otherPort p
  if k.op ≠ 0x25 ∧ nodeCoord k.dst d = s.coord d then s.sendFrom p k
  else if (s.breaks d).contains (s.breakOf out) ∧ !(s.rport out).awaitingRxseq ∧ (s.rport out).told = none then bounce out k s
  else s.goAlong p out k

end State

/-! ### Rows -/

/-- A row of a ridge port, whose clock is LCLK (R49, R476). -/
def ridgeRow (ok : Bool) (s : State) (f : State → State) : Res := guardUnit ok (s.inClock 37 (f s))

/-- A row of packets: the oldest packet of VC `vc` at port `p`, when it is well formed and has one of these OPs. `f` takes
it; where it answers none the packet stays in the buffer. Packets other than MGMT are dropped while the module's address
is not valid or the port may not carry them (R326, R341, R358). -/
def packetRow (p vc : Nat) (ops : List Nat) (s : State) (f : Packet → State → Option State) : Res :=
  ridgeRow (isPort p && vc < 8) s fun s =>
    match s.headRx p vc with
    | none => s
    | some k =>
      if !ops.contains k.op ∨ k.bad then s
      else if k.cls ≠ 3 ∧ (!s.nodeValid ∨ (s.rport p).miscabled ∨ (s.rport p).mgmtOnly) then s.popRx p k
      else if (s.rport p).miscabled ∧ k.op ≠ 0x20 then s.popRx p k
      else (f k (s.popRx p k)).getD s

/-- A packet row whose packet is for the module named by DST; others pass it on. -/
def nodeRow (p vc : Nat) (ops : List Nat) (s : State) (f : Packet → State → Option State) : Res :=
  packetRow p vc ops s fun k s => if k.dst = s.node then f k s else some (s.transit p k)

/-- RIDGE_LINK_UP (R358). -/
def execRidgeLinkUp (p : Nat) (s : State) : Res := ridgeRow (isPort p) s fun s => s.ridgeUp p

/-- DATA_FLIT_RECEIVE (R329, R330). -/
def execDataFlitReceive (p : Nat) (flit : List Byte) (fecOk : Bool) (s : State) : Res :=
  ridgeRow (isPort p) s fun s => s.flitReceive p flit fecOk

/-- NAK_RECEIVE (R330, R333). -/
def execNakReceive (p : Nat) (ackseq : BitVec 12) (s : State) : Res := ridgeRow (isPort p) s fun s => s.nakReceive p ackseq

/-- ACK_RECEIVE (R331). -/
def execAckReceive (p : Nat) (ackseq : BitVec 12) (s : State) : Res := ridgeRow (isPort p) s fun s => s.ackReceive p ackseq

/-- CREDIT_RETURN (R335). -/
def execCreditReturn (p vc cells : Nat) (s : State) : Res := 
  ridgeRow (isPort p && vc < 8) s fun s => s.creditReturn p vc cells

/-- IDLE_FLIT_TIMER (R329, R332). -/
def execIdleFlitTimer (p : Nat) (s : State) : Res :=
  ridgeRow (isPort p) s fun s => if s.linkAlive p then s.sendFlit p false (State.lcrDue (s.rport p)) [] [] else s

/-- ACK_TIMER (R332). -/
def execAckTimer (p : Nat) (s : State) : Res :=
  ridgeRow (isPort p) s fun s => if s.linkAlive p && (s.rport p).unacked ≠ 0 then s.sendRecord p else s

/-- NAK_REPEAT (R330). -/
def execNakRepeat (p : Nat) (s : State) : Res :=
  ridgeRow (isPort p) s fun s =>
    if s.linkAlive p && (s.rport p).nakState then (s.onRport p fun q => { q with nakOwed := true }).sendRecord p else s

/-- LINK_DOWN (R333, R360); a port that is training fails it and goes down (R491). -/
def execLinkDown (p : Nat) (s : State) : Res :=
  ridgeRow (isPort p) s fun s =>
    if s.linkAlive p then s.linkGoesDown p false else if s.linkState p = 1 then s.setF (rstat p) 2 0 3 else s

/-- RXSEQ_TIMEOUT (R361). -/
def execRxseqTimeout (p : Nat) (s : State) : Res := ridgeRow (isPort p) s fun s => s.rxseqLost p

/-- RWR (R348, R349). -/
def execRwr (p vc : Nat) (s : State) : Res := nodeRow p vc [0x01] s fun k s => some (s.takeRwr k)

/-- RRD (R351). -/
def execRrd (p : Nat) (vc : Seen Nat) (s : State) : Res :=
  nodeRow p vc.val [0x02] s fun k s => (s.upset vc.env).takeRrd vc.env k

/-- RRSP (R351, R353). -/
def execRrsp (p vc : Nat) (s : State) : Res := nodeRow p vc [0x03] s fun k s => some (s.takeRrsp k)

/-- WACK (R348, R353). -/
def execWack (p vc : Nat) (s : State) : Res := nodeRow p vc [0x04] s fun k s => some (s.takeWack k)

/-- RIDGE_COMMIT (R350). -/
def execRidgeCommit (p : Nat) (vc : Seen Nat) (s : State) : Res :=
  nodeRow p vc.val [0x10] s fun k s => some (s.takeRemoteCommit vc.env k)

/-- RIDGE_ABORT (R350). -/
def execRidgeAbort (p vc : Nat) (s : State) : Res := nodeRow p vc [0x11] s fun k s => some (s.takeRemoteCommit Env.none k)

/-- CACK (R350). -/
def execCack (p vc : Nat) (s : State) : Res := nodeRow p vc [0x12] s fun k s => some (s.takeCack k)

/-- TARRIVE (R290, R352). -/
def execTarrive (p vc : Nat) (s : State) : Res := nodeRow p vc [0x18] s fun k s => some (s.takeCrew k 10)

/-- TRELEASE (R290, R352). -/
def execTrelease (p vc : Nat) (s : State) : Res := nodeRow p vc [0x19] s fun k s => some (s.takeCrew k 10)

/-- TWITHDRAW (R286, R290). -/
def execTwithdraw (p vc : Nat) (s : State) : Res := nodeRow p vc [0x1A] s fun k s => some (s.takeCrew k 10)

/-- TLOST (R286, R290). -/
def execTlost (p vc : Nat) (s : State) : Res := nodeRow p vc [0x1B] s fun k s => some (s.takeCrew k 10)

/-- FLAGADD (R282, R352). -/
def execFlagadd (p vc : Nat) (s : State) : Res :=
  nodeRow p vc [0x1C] s fun k s =>
    some (s.takeFlagAdd { src := .remote k.src 0, f := k.arg 8 1 % 128, v := BitVec.ofNat 64 (leNat k.data), gang := none, crew := k.arg 14 2 })

/-- LHELLO (R326, R358). -/
def execLhello (p vc : Nat) (s : State) : Res := packetRow p vc [0x20] s fun k s => some (s.takeHello p k)

/-- FURROW (R354 to R357). -/
def execFurrow (p vc : Nat) (s : State) : Res := packetRow p vc [0x21] s fun k s => some (s.takeFurrow p k)

/-- FURROWEND (R356). -/
def execFurrowend (p vc : Nat) (s : State) : Res := packetRow p vc [0x22] s fun k s => some (s.takeFurrowend p k)

/-- RINGINFO (R355, R357, R364). -/
def execRinginfo (p vc : Nat) (s : State) : Res := packetRow p vc [0x23] s fun k s => some (s.takeRinginfo p k)

/-- LINKDOWN (R360, R361). -/
def execLinkdownPkt (p vc : Nat) (s : State) : Res := packetRow p vc [0x24] s fun k s => some (s.takeLinkdown p k)

/-- SEAL (R363). -/
def execSealPkt (p vc : Nat) (s : State) : Res :=
  packetRow p vc [0x25] s fun k s => some (if s.ownSeal k then s.release (p / 2) k.cls else s.transit p k)

/-- PACKET_BAD (R340). -/
def execPacketBad (p vc : Nat) (s : State) : Res :=
  ridgeRow (isPort p && vc < 8) s fun s =>
    match s.headRx p vc with
    | some k => if k.bad then (s.popRx p k).log (.ridge p) .packetBad else s
    | none => s

/-- RIDGE_TIMEOUT (R353). -/
def execRidgeTimeout (t q : Nat) (s : State) : Res := 
  guardUnit (isTile t) (s.inClock (paddockOf t) (s.replyTimeout t q))

end Sys2Proof.Machine
end

