-- ==== Sys2Proof/Machine/Upkeep.lean ====
section
/-! DEFINITION. Live changes, regulators, PLLs and temperatures (R364, R451 to R457, R476, R486). -/

namespace Sys2Proof.Machine

namespace State

/-! ### Starting and ending a live change (R453, R457) -/

/-- The live change in progress takes a new phase. -/
def setPhase (s : State) (ph : JobPhase) : State :=
  { s with st := { s.st with upkeep := s.st.upkeep.map fun u => { u with phase := ph } } }

/-- May a queued live change start: no sweep runs and no fence waits (R457)? -/
def upkeepFree (s : State) : Bool := s.awake && s.st.sweep = none && s.fence.queue.isEmpty

/-- A live change is accepted, or refused while one runs. OP 0 and 7 and a port that does not exist fail, and OP 3 on a
DEAD channel fails at once; on another channel it trains as soon as nothing holds the change back (R321, R322, R460).
(log 80: DEDUCED) -/
def startUpkeep (s : State) (op arg : Nat) : State :=
  if s.st.upkeep.isSome then s.log .steward .upkeepBusy
  else
    let phase : JobPhase :=
      if op = 0 ∨ op = 7 ∨ (op = 4 ∧ 6 ≤ arg % 8) then .ended 4
      else if op = 3 ∧ (s.channel (arg % 64)).dead then .ended 5
      else if op = 3 ∧ s.upkeepFree then .changing
      else .queued
    let s := (s.setF 0x1058 1 0 1).setF 0x1058 4 2 op
    let s := if phase = .changing then s.beginTraining (arg % 64) else s
    { s with st := { s.st with upkeep := some { op, arg, phase } } }

/-- A write of STEWARD.UPKEEP. -/
def writeUpkeep (s : State) (v : Nat) : State := if bit v 31 then s.startUpkeep (v % 8) (s.reg 0x1050) else s

/-- The live change has ended: gangs it stopped go on, and a queued fence goes next (R457). -/
def endUpkeep (s : State) (result : Nat) : State := (s.setPhase (.ended result)).resumeAll

/-- The end is reported: UPKEEP_STATUS, the record in M7 and vector 70 (R441, R453). -/
def reportUpkeep (s : State) : State :=
  match s.st.upkeep with
  | some ⟨op, arg, .ended r⟩ =>
    let s := ((s.setF 0x1058 1 0 (if r = 0 then 2 else 3)).setF 0x1058 11 8 r).setF 0x1058 12 12 1
    let s := s.extend 7 (leBytes 1 op ++ leBytes 1 r ++ zeros 2 ++ leBytes 8 arg ++ leBytes 4 (s.getF 0x4048 31 0))
    { s.raise 70 with st := { s.st with upkeep := none } }.runWaiting
  | _ => s

/-! ### OP 1, 2 and 3 -/

/-- PADDOCK_RECAL: owed refreshes of the paddock's pillars are issued and their timing recalibrated. -/
def recal (s : State) : State :=
  match s.st.upkeep with
  | some ⟨1, arg, .queued⟩ =>
    if s.upkeepFree then
      (foldEach ((List.range 272).map (272 * (arg % 16) + ·)) s fun t s =>
        s.onPillar t fun p => { p with owed := [] }).endUpkeep 0
    else s
  | _ => s

/-- TILE_SWAP: gangs stop, and the logical tile moves to a free spare; its old tile becomes a spare. -/
def swapStep (s : State) (env : Env) : State :=
  match s.st.upkeep with
  | some ⟨2, arg, ph⟩ =>
    let l := arg % 4096
    let o := s.ptileOf l
    let go := fun (s : State) =>
      if s.allStopped (s.liveGangs fun t => t = o) then
        match s.freeSpare l with
        | some n => (s.remapTo env l o n).endUpkeep 0
        | none => s
      else s
    match ph with
    | .queued =>
      if !s.upkeepFree then s
      else if s.sparesFor l = [] then s.endUpkeep 2
      else go (s.setPhase .quiescing)
    | .quiescing => go s
    | _ => s
  | _ => s

/-- BARN_RETRAIN of channel `c`: an AUTO retrain, or OP 3, which an AUTO retrain under way absorbs (R321, R322). (log
80: DEDUCED) -/
def retrainStep (s : State) (c : Nat) (ok1 ok2 : Bool) : State :=
  let mine : Bool := match s.st.upkeep with
    | some ⟨3, arg, .queued⟩ => decide (arg % 64 = c)
    | some ⟨3, arg, .changing⟩ => decide (arg % 64 = c)
    | _ => false
  let ch := s.channel c
  if ch.dead then if mine then s.endUpkeep 5 else s
  else if ch.training ∨ (mine ∧ s.upkeepFree) then
    let s := s.retrain c ok1 ok2
    if mine then s.endUpkeep (if ok1 || ok2 then 0 else 5) else s
  else s

/-- A write of BARN.TRAIN: THRESH, FAIL, and GO, which a training channel absorbs and a DEAD one ignores. -/
def writeTrain (s : State) (c v : Nat) : State :=
  let a := (Page.barn c).base + 0x64
  let s := s.setF a 23 8 (bits v 23 8)
  let s := if bit v 2 then s.setF a 2 2 0 else s
  let ch := s.channel c
  if !bit v 0 ∨ ch.training ∨ ch.dead then s else s.startUpkeep 3 c

/-! ### OP 4 (R364) -/

/-- RIDGE_RETRAIN of port `p`: no new DATA flits until every flit is acknowledged, then the link is taken down and
trained. A port that does not exist or is disabled cannot be trained. -/
def ridgeRetrainStep (s : State) (p : Nat) (ok : Bool) : State :=
  let finish := fun (s : State) =>
    if s.linkAlive p ∧ (s.rport p).sent ≠ [] then (s.setF (rstat p) 2 0 4).setPhase .changing
    else
      let s := if s.linkAlive p then s.linkGoesDown p true else s
      if ok ∧ s.ridgeTrains ∧ s.getF ((Page.ridge p).base + 0x40) 0 0 = 1 then (s.ridgeUp p).endUpkeep 0
      else (s.setF (rstat p) 2 0 3).endUpkeep 5
  match s.st.upkeep with
  | some ⟨4, arg, ph⟩ =>
    if arg % 8 ≠ p then s
    else
      match ph with
      | .queued =>
        if !s.upkeepFree then s
        else if s.getF ((Page.ridge p).base + 0x40) 0 0 = 0 then s.endUpkeep 5
        else finish s
      | .changing => finish s
      | _ => s
  | _ => s

/-- A write of RIDGE.CTRL: EN takes the link down for good or lets it train, once it is down; RETRAIN starts OP 4 (R366,
R453). -/
def writeRidgeCtrl (s : State) (p v : Nat) : State :=
  let a := (Page.ridge p).base + 0x40
  let old := s.getF a 0 0
  let s := s.setF a 0 0 (v % 2)
  let s :=
    if old = v % 2 then s
    else if v % 2 = 0 then if s.linkAlive p then s.planDown p else s.setF (rstat p) 2 0 3
    else if s.linkState p = 4 then s
    else if s.ridgeTrains then s.setF (rstat p) 2 0 1
    else s
  if bit v 1 then s.startUpkeep 4 p else s

/-! ### OP 5 (R456) -/

/-- Replace a slot of the flash. -/
def setSlot (s : State) (slot : Nat) (bs : List Byte) : State :=
  let f := s.st.flash
  { s with st := { s.st with flash := if slot = 0 then { f with slotA := bs } else { f with slotB := bs } } }

/-- The image that MANIFEST_STAGE has read, as far as the flash holds it; none while lines are missing. -/
def stagedImage (s : State) (len : Nat) : Option (List Byte) :=
  match s.st.image with
  | some ls =>
    let n := (len + 63) / 64
    if ls.length < n then none
    else some (((List.range n).flatMap fun k => ((ls.find? fun l => l.1 = k).map (·.2.data)).getD []).take len)
  | none => none

/-- MANIFEST_STAGE has failed: the inactive slot is invalid. -/
def stageFails (s : State) (slot : Nat) : State :=
  let s := ((s.setSlot slot []).log .steward .manifestInvalid).endUpkeep 3
  { s with st := { s.st with image := none } }

/-- MANIFEST_STAGE, by the parts the steward can be stopped between: its lines are asked for; once all have come they are checked,
and the inactive slot is erased, so that it is incomplete from then on; it is programmed, and read back as `same` says. (log 93:
DEDUCED) -/
def stageManifest (s : State) (env : Env) (same : Bool) : State :=
  match s.st.upkeep with
  | some ⟨5, arg, ph⟩ =>
    let dpa := arg % 2 ^ 39
    let len := min (bits arg 63 40) 0x800000
    let slot := 1 - s.getF 0x1040 6 6
    match ph with
    | .queued =>
      if !s.upkeepFree then s
      else if dpa % 64 ≠ 0 ∨ dpa < 0x2000000000 ∨ 0x6000000000 < dpa + bits arg 63 40 then s.endUpkeep 4
      else
        let s := (s.upset env).setPhase .reading
        { s with st := { s.st with image := some [] } }.sendMesh
          ((List.range ((len + 63) / 64)).map fun k => meshReq (.image k) .read (dpa + 64 * k))
    | .reading =>
      match s.stagedImage len with
      | none => s
      | some img =>
        if mfValid s.fuses img ∧ serialGT 32 (mfSeq img) (s.reg 0x1044) then (s.setSlot slot []).setPhase .changing
        else s.stageFails slot
    | .changing =>
      match s.stagedImage len with
      | none => s
      | some img =>
        if same then
          let s := (s.setSlot slot img).endUpkeep 0
          { s with st := { s.st with image := none } }
        else s.stageFails slot
    | _ => s
  | _ => s

/-! ### OP 6 and the regulators (R455, R486) -/

/-- Command the rail of paddock `p`, and wait for it. -/
def commandRail (s : State) (p mv : Nat) : State :=
  let s := s.driveRail p mv
  { s with st := { s.st with settling := SMap.put false s.st.settling p true } }
/-- The rail of paddock `p` is no longer awaited. -/
def railDone (s : State) (p : Nat) : State := { s with st := { s.st with settling := SMap.put false s.st.settling p false } }
def railWaits (s : State) (p : Nat) : Bool := SMap.look false s.st.settling p

/-- Voltage and frequency of operating point `i` of the active manifest. -/
def point (s : State) (i : Nat) : Option (Nat × Nat) := s.opPoints.bind fun o => o.used i

/-- VF_SET: gangs stop; a raise commands the rail, a lowering relocks TCLK first. (log 82: DEDUCED) -/
def vfStep (s : State) : State :=
  match s.st.upkeep with
  | some ⟨6, arg, ph⟩ =>
    let p := arg % 16
    let i := bits arg 10 8
    match s.point i with
    | none => match ph with | .queued => if s.upkeepFree then s.endUpkeep 4 else s | _ => s
    | some (mv, mhz) =>
      let go := fun (s : State) =>
        if !s.allStopped (s.liveGangs fun t => paddockOf t = p) then s
        else if s.vddtOf p < mv then (s.setPhase .changing).commandRail p mv
        else
          let s := s.setTclk p i mhz
          if mv < s.vddtOf p then (s.setPhase .changing).commandRail p mv
          else (s.setOpPoint p i).endUpkeep 0
      match ph with
      | .queued => if s.upkeepFree then go (s.setPhase .quiescing) else s
      | .quiescing => go s
      | _ => s
  | _ => s

/-- A regulator reports its rail settled: the change it belongs to goes on, or the restore is complete. -/
def railSettled (s : State) (p : Nat) : State :=
  if !s.railWaits p then s
  else
    let s := (s.pollRail p).railDone p
    match s.st.upkeep with
    | some ⟨6, arg, ph⟩ =>
      if arg % 16 ≠ p then s
      else
        match ph with
        | .changing =>
          match s.point (bits arg 10 8) with
          | some (_, mhz) => ((s.setTclk p (bits arg 10 8) mhz).setOpPoint p (bits arg 10 8)).endUpkeep 0
          | none => s
        | .restoring =>
          match s.point (s.opPointOf p) with
          | some (_, mhz) => (s.setTclk p (s.opPointOf p) mhz).endUpkeep 1
          | none => s.endUpkeep 1
        | _ => s
    | _ => s

/-- A rail that VF_SET awaits has not settled: the previous point is commanded back, or a warm reset starts (R455). -/
def railTimeout (s : State) (p : Nat) : State :=
  match s.st.upkeep with
  | some ⟨6, arg, ph⟩ =>
    if arg % 16 ≠ p ∨ !s.railWaits p then s
    else
      match ph with
      | .changing =>
        let mv := ((s.point (s.opPointOf p)).map (·.1)).getD 700
        (s.setPhase .restoring).commandRail p mv
      | .restoring => s.warmStart
      | _ => s
  | _ => s

/-- OP 2 or OP 6 has not stopped its gangs in 10 ms (R454). -/
def quiesceTimeout (s : State) : State :=
  match s.st.upkeep with
  | some ⟨op, arg, .quiescing⟩ =>
    let conc := fun (t : Nat) => if op = 2 then decide (t = s.ptileOf (arg % 4096)) else decide (paddockOf t = arg % 16)
    if s.allStopped (s.liveGangs conc) then s else s.endUpkeep 1
  | _ => s

/-! ### PLLs (R476) -/

/-- A PLL that is locked loses lock; MCLK's is the steward's own and TCK has none. (log 83: DEDUCED) -/
def pllUnlock (s : State) (k : Nat) : State :=
  let a := (Page.clock k).base
  if k = 38 ∨ k = 39 ∨ s.getF (a + 0x40) 16 16 = 0 then s
  else
    let s : State := { s with st := { s.st with unlocked := SMap.put false s.st.unlocked k true } }
    (((s.setF (a + 0x40) 16 16 0).setF (a + 0x40) 17 17 1).addF (a + 0x48) 15 0 1).log (.clock k) .pllUnlock

/-- A PLL relocks: what the crossings of its domain have held goes on, and tiles and ports that waited look again. -/
def pllRelock (s : State) (k : Nat) : State :=
  if s.pllLost k ∧ !s.st.thermtrip then
    let s : State := { s with st := { s.st with unlocked := SMap.put false s.st.unlocked k false } }
    let s := (s.setF ((Page.clock k).base + 0x40) 16 16 1).drainHosts
    if k < 16 then s.wakeAll ((List.range 272).map (272 * k + ·))
    else if k = 37 then foldEach (List.range 6) s fun p s => s.pumpAll p
    else s
  else s

/-! ### Temperatures (R81, R314, R451, R452) -/

/-- The refresh intervals halve above 95 °C and return below 93 °C. -/
def hotter (was temp : Nat) : Nat := if 95 < temp then 1 else if temp < 93 then 0 else was

/-- The thermal state of the module: normal, above 95 °C, above 105 °C. -/
def thermalState (t : Nat) : Nat := if 105 < t then 2 else if 95 < t then 1 else 0

/-- The readings in one order. -/
def readingList (r : Readings) : List Nat :=
  (List.range 16).map (r.base.getD · 0) ++ (List.range 128).map (r.field.getD · 0) ++ (List.range 32).map (r.barn.getD · 0)

/-- The hottest field die above paddock `p` (R81); the barn die of channel `c` (R295). -/
def fieldReading (r : Readings) (p : Nat) : Nat := ((List.range 8).map fun d => r.field.getD (8 * p + d) 0).foldl max 0
def barnReading (r : Readings) (c : Nat) : Nat := r.barn.getD (c / 2) 0

/-- The steward reads every sensor. The refresh intervals follow from the next due time on (R81, R314), and each crossing
of 95 °C or 105 °C raises vector 71 (R452). (log 81: DEDUCED) -/
def sampleTemps (s : State) (r : Readings) : State :=
  if !s.st.powered ∨ (s.st.perst0 ∧ !s.st.thermtrip) then s
  else
    let old := s.st.temps
    let s : State := { s with st := { s.st with temps := r } }
    let s := foldEach (List.range 16) s fun p s =>
      let a := (Page.paddock p).base + 0x44
      let t := fieldReading r p
      let hot := hotter (b2n (SMap.look false s.st.hotNext p)) t = 1
      let s := s.setF a 7 0 (min 255 t)
      { s with st := { s.st with hotNext := SMap.put false s.st.hotNext p hot } }
    let s := foldEach (List.range 64) s fun c s =>
      let a := (Page.barn c).base + 0x60
      let t := barnReading r c
      (s.setF a 15 8 (min 255 t)).onChannel c fun ch => { ch with hotNext := hotter (b2n ch.hotNext) t = 1 }
    let top := fun (l : List Nat) => min 255 (l.foldl max 0)
    let s := ((s.setF 0x105C 7 0 (top r.base)).setF 0x105C 15 8 (top r.field)).setF 0x105C 23 16 (top r.barn)
    let s := (s.peakF 0x105C 31 24 (min 255 (hottest r))).updateAlert
    let s := foldEach ((readingList old).zip (readingList r)) s fun x s =>
      let s := if decide (95 < x.1) ≠ decide (95 < x.2) then s.raise 71 else s
      if decide (105 < x.1) ≠ decide (105 < x.2) then s.raise 71 else s
    let s := if thermalState (hottest old) ≠ thermalState (hottest r) then s.addEvent (.thermal (hottest r)) else s
    if 105 < hottest r ∧ !s.st.thermtrip then
      let s := (s.log .steward .thermtrip).stopModule
      { s with st := { s.st with thermtrip := true } }
    else s

end State

/-! ### Rows -/

/-- PADDOCK_RECAL (R453). -/
def execPaddockRecal (s : State) : Res := .next s.recal

/-- TILE_SWAP (R416, R453, R454). -/
def execTileSwap (env : Env) (s : State) : Res := .next ((s.upset env).swapStep env)

/-- BARN_RETRAIN (R321 to R323, R453). -/
def execBarnRetrain (c : Nat) (ok1 ok2 : Bool) (s : State) : Res := 
  guardUnit (isChannel c) (s.inClock (32 + c / 16) (s.retrainStep c ok1 ok2))

/-- RIDGE_RETRAIN (R364, R453). -/
def execRidgeRetrain (p : Nat) (ok : Bool) (s : State) : Res :=
  guardUnit (isPort p) (s.inClock 37 (s.ridgeRetrainStep p ok))

/-- MANIFEST_STAGE (R456). -/
def execManifestStage (env : Env) (same : Bool) (s : State) : Res := .next (s.stageManifest env same)

/-- VF_SET (R453, R455). -/
def execVfSet (s : State) : Res := .next s.vfStep

/-- UPKEEP_DONE (R453). -/
def execUpkeepDone (s : State) : Res := .next s.reportUpkeep

/-- UPKEEP_QUIESCE_TIMEOUT (R454). -/
def execUpkeepQuiesceTimeout (s : State) : Res := .next s.quiesceTimeout

/-- PLL_UNLOCK (R476). -/
def execPllUnlock (k : Nat) (s : State) : Res := guardUnit (isClock k) (s.pllUnlock k)

/-- PLL_RELOCK (R476). -/
def execPllRelock (k : Nat) (s : State) : Res := guardUnit (isClock k) (s.pllRelock k)

/-- PLL_RELOCK_TIMEOUT (R476). -/
def execPllRelockTimeout (k : Nat) (s : State) : Res :=
  guardUnit (isClock k) (if s.pllLost k && s.awake && !s.warmBusy then s.warmStart else s)

/-- TEMP_SAMPLE (R451, R452). -/
def execTempSample (r : Readings) (s : State) : Res := .next (s.sampleTemps r)

end Sys2Proof.Machine
end

