-- ==== Sys2Proof/Machine/Sweep.lean ====
section
/-! DEFINITION. Margin sweeps of a paddock (R419 to R422), and the regulators' answers, which sweeps and VF_SET await. -/

namespace Sys2Proof.Machine

namespace State

/-! ### Margin sweeps (R419 to R422) -/

/-- A write of TITHE.SWEEP. -/
def writeSweep (s : State) (v : Nat) : State :=
  let s := s.setF 0x3054 0 0 (v % 2)
  let s := if bit v 11 then s.setF 0x3054 11 11 0 else s
  if bit v 5 then { s with st := { s.st with sweepDue := s.st.sweepDue ++ [bits v 4 1] } } else s

/-- The paddock of a sweep that falls due, `now` MCLK cycles after stage 10 ended. -/
def sweepPaddock (s : State) (why : SweepCause) (now : Nat) : Option Nat :=
  match why with
  | .schedule =>
    let i := s.reg 0x3058
    if s.getF 0x3054 0 0 = 1 ∧ i ≠ 0 ∧ 1 ≤ now * 16 / i then some ((now * 16 / i + 15) % 16) else none
  | .retry => s.st.sweepRetry.head?
  | .request => s.st.sweepDue.head?

/-- The sweep of paddock `p` is over: everything goes on. -/
def endSweep (s : State) : State :=
  let s : State := { s with st := { s.st with sweep := none, sweepWork := .reset } }
  (s.setF 0x3054 6 6 0).resumeAll.runWaiting

/-- A sweep of paddock `p` is skipped, and is to be tried again (R422, R432). -/
def skipSweep (s : State) (p : Nat) : State :=
  let retry := if s.st.sweepRetry.contains p then s.st.sweepRetry else s.st.sweepRetry ++ [p]
  let s : State := { s with st := { s.st with sweepRetry := retry } }
  let s := (s.setF 0x3054 11 11 1).log .tithe .sweepSkipped
  (s.cper { CperInfo.blank 8 with paddock := p }).endSweep

/-- Change how far the sweep is. -/
def onSweep (s : State) (f : SweepWork → SweepWork) : State := { s with st := { s.st with sweepWork := f s.st.sweepWork } }

/-- The spare pillars of paddock `p` that are free. -/
def freePillars (s : State) (p : Nat) : List Nat :=
  (s.spares p).filter fun t => !s.placeBusy t && !SMap.look false s.fence.pfenced t

/-- May the sweep of paddock `p` go on past its second step: the runs on its places have ended and its gangs are
stopped? -/
def sweepStopped (s : State) (p : Nat) : Bool :=
  s.allStopped (s.liveGangs fun t => paddockOf t = p) &&
    !((List.range 272).any fun i => s.placeBusy (272 * p + i))

/-! ### Saving and restoring bins and cribs (R420) -/

/-- The codeword that keeps line `k` of the `j`th gang tile: tile after tile through the three pillars, the bin before the crib.
(log 66: DESIGN CHOICE) -/
def savedAt (ps : List Nat) (j k : Nat) : Nat :=
  let i := 4352 * j + k
  ps.getD (i / 2 ^ 19) 0 * 2 ^ 19 + i % 2 ^ 19

/-- The lines of a tile that its lists name: every other one is zero and not blighted. -/
def listedLines (x : Tile) : List Nat :=
  let marked := fun (m : SMap Bool) => m.map fun e => e.1
  let cribs := listedCws x.crib 64 0 256 ++ marked x.cribBlight
  (listedCws x.bin 64 0 4096 ++ marked x.binBlight ++ cribs.map (4096 + ·)).eraseDups.filter fun k => k < 4352

/-- The codewords of physical pillar `n` become zeros. -/
def wipePillar (n : Nat) (s : State) : State :=
  let keep := fun (size : Nat) (m : SMap Byte) => m.filter fun e => e.1 / size / 2 ^ 19 ≠ n
  { s with fieldData := keep 64 s.fieldData, fieldCheck := keep 8 s.fieldCheck }

/-- The bins and cribs of these tiles are saved in the pillars `ps`. -/
def saveTiles (s : State) (ps ts : List Nat) : State :=
  foldEach ts.zipIdx (foldEach ps s wipePillar) fun x s =>
    foldEach (listedLines (s.tile x.1)) s fun k s =>
      let cw := savedAt ps x.2 k
      s.writeLoc Env.none (.field (cw / 2 ^ 19) (64 * (cw % 2 ^ 19))) ((s.tile x.1).line k)

/-- They are restored: lines come back as the pillars deliver them. -/
def restoreTiles (s : State) (ps ts : List Nat) : State :=
  foldEach ts.zipIdx s fun x s =>
    let s := s.onTile x.1 fun y => { y with bin := [], binBlight := [], crib := [], cribBlight := [] }
    let mine := fun (cw : Nat) =>
      ((ps.zipIdx.find? fun n => n.1 = cw / 2 ^ 19).bind fun n =>
        let i := n.2 * 2 ^ 19 + cw % 2 ^ 19
        if i / 4352 = x.2 then some (i % 4352, cw) else none)
    let cws := ps.flatMap fun n =>
      (listedCws s.fieldData 64 (n * 2 ^ 19) ((n + 1) * 2 ^ 19) ++ listedCws s.fieldCheck 8 (n * 2 ^ 19) ((n + 1) * 2 ^ 19)).eraseDups
    foldEach (cws.filterMap mine) s fun w s =>
      let (l, s) := s.readLoc (.field (w.2 / 2 ^ 19) (64 * (w.2 % 2 ^ 19)))
      s.onTile x.1 fun y => y.setLine w.1 l

/-! ### The steps of a sweep (R420, R421) -/

/-- Steps 3 and 4 begin: bins and cribs are saved, and the rail is commanded 5 % down; the sweep is skipped for want of three free
spare pillars. -/
def sweepLower (s : State) (p : Nat) : State :=
  let ps := (s.freePillars p).take 3
  if ps.length < 3 then s.skipSweep p
  else
    let ts := ((s.liveGangs fun t => paddockOf t = p).flatMap s.gangTiles).filter fun t => paddockOf t = p
    let (mv, freq) := (s.vddtOf p, s.getF ((Page.clock p).base + 0x40) 15 0)
    let s := (s.saveTiles ps ts).onSweep fun w => { w with step := .lowering, pillars := ps, saved := ts, mv, freq }
    s.commandRail p (mv * 95 / 100)

/-- A sweep falls due and starts, or is skipped for want of three spare pillars; given again once the runs have ended and the gangs
are stopped, the row goes on with the one in progress. (log 66: DESIGN CHOICE) -/
def sweepStart (s : State) (why : SweepCause) (now : Nat) : State :=
  match s.st.sweep with
  | some p => if s.st.sweepWork.step = .stopping ∧ s.sweepStopped p then s.sweepLower p else s
  | none =>
    match s.sweepPaddock why now with
    | none => s
    | some p =>
      if s.fence.queue ≠ [] ∨ s.upkeepPaddock = some p ∨ !s.st.fieldActive then s
      else
        let due := match why with | .request => s.st.sweepDue.drop 1 | _ => s.st.sweepDue
        let retry := match why with | .retry => s.st.sweepRetry.drop 1 | _ => s.st.sweepRetry
        let s : State := { s with st := { s.st with sweepDue := due, sweepRetry := retry, sweep := some p, sweepWork := .reset } }
        let s := (s.setF 0x3054 6 6 1).setF 0x3054 10 7 p
        if (s.spares p).length < 3 then s.skipSweep p else s

/-- Steps 6 and 7: each tile found marginal takes a strike, decided by its repeat, and the rail is commanded back. Step 8: strikes
taken outside the tests are decided, and bins and cribs restored. (log 66: DESIGN CHOICE) -/
def sweepDone (s : State) (marginal : List (Nat × Bool)) : State :=
  match s.st.sweep with
  | none => s
  | some p =>
    let w := s.st.sweepWork
    match w.step with
    | .testing =>
      let s := foldEach (marginal.filter fun m => paddockOf m.1 = p && !s.isFallow m.1) s fun m s =>
        (s.strike m.1).decideStrike m.1 m.2 (s.tileInfo 3 m.1)
      (s.commandRail p w.mv).onSweep fun w => { w with step := .restoring }
    | .restored =>
      let s := foldEach w.struck s fun t s =>
        s.decideStrike t (!marginal.contains (t, false)) (s.tileInfo 3 t)
      let s := s.restoreTiles w.pillars w.saved
      if w.skip then s.skipSweep p else s.endSweep
    | _ => s

/-- The rail that the sweep of paddock `p` awaits has settled: TCLK is raised 5 %, or is as it was. -/
def sweepSettled (s : State) (p : Nat) : State :=
  let w := s.st.sweepWork
  let s := (s.pollRail p).railDone p
  match w.step with
  | .lowering => (s.setFreq p (w.freq * 105 / 100)).onSweep fun w => { w with step := .testing }
  | .restoring => (s.setFreq p w.freq).onSweep fun w => { w with step := .restored }
  | _ => s

/-- It has not: the rail is commanded back and the sweep is skipped; a rail that will not come back ends in a warm reset (R420,
R455). -/
def sweepRailFails (s : State) (p : Nat) : State :=
  let w := s.st.sweepWork
  match w.step with
  | .lowering => (s.commandRail p w.mv).onSweep fun w => { w with step := .restoring, skip := true }
  | .restoring => s.warmStart
  | _ => s

/-- A regulator reports its rail settled, or has not within 1 ms; a sweep or a live change awaits it (R420, R455, R486). -/
def vrSettled (s : State) (p : Nat) : State :=
  if s.st.sweep = some p ∧ s.railWaits p then s.sweepSettled p else s.railSettled p
def vrFails (s : State) (p : Nat) : State :=
  if s.st.sweep = some p ∧ s.railWaits p then s.sweepRailFails p else s.railTimeout p

end State

/-! ### Rows -/

/-- SWEEP_START (R419, R420, R422). -/
def execSweepStart (why : SweepCause) (now : BitVec 64) (s : State) : Res := .next (s.sweepStart why now.toNat)

/-- SWEEP_DONE, once for steps 6 and 7 and once for step 8 (R420, R421). -/
def execSweepDone (marginal : List (Nat × Bool)) (s : State) : Res :=
  guardUnit (marginal.all fun m => isTile m.1) (s.sweepDone marginal)

/-- SWEEP_QUIESCE_TIMEOUT: gangs have not stopped within 10 ms (R422). -/
def execSweepQuiesceTimeout (s : State) : Res :=
  .next (match s.st.sweep with
    | some p => if s.st.sweepWork.step ≠ .stopping ∨ s.sweepStopped p then s else s.skipSweep p
    | none => s)

/-- VR_SETTLED (R420, R455, R486). -/
def execVrSettled (p : Nat) (s : State) : Res := guardUnit (isPaddock p) (s.vrSettled p)

end Sys2Proof.Machine
end

