-- ==== Sys2Proof/Machine/View.lean ====
section
/-! DEFINITION. What a register reads as (R15, R464, R467, R471 to R477 and the register tables): the stored fields, and
the fields that show the block's state at the moment. -/

namespace Sys2Proof.Machine

/-- What bits of a register store: write-only fields read zero (R15). -/
def readable (r : RegDesc) (v : Nat) : Nat :=
  (r.fields.filter fun f => f.acc = .wo).foldl (fun v f => v - bits v (f.lo + f.width - 1) f.lo * 2 ^ f.lo) v

/-- A number whose bit `i` is `f i`, for `i < n`. -/
def bitmap (n : Nat) (f : Nat → Bool) : Nat := (List.range n).foldl (fun v i => v + b2n (f i) * 2 ^ i) 0

/-- `TILE.CORE.STATE`. A COMMIT that waits for the queues to drain waits on a sync entry while one of `queue` is not
complete, and otherwise shows as held at the gate. (log 21: DESIGN CHOICE) -/
def CoreState.code (queue : List Entry) : CoreState → Nat
  | .idle => 0
  | .running => 1
  | .waitq _ => 2
  | .stalled => 3
  | .draining => if queue.any fun e => e.q = 5 then 2 else 4
  | .atGate => 4
  | .halted => 5
  | .faulted => 6
  | .inReset => 7

namespace State

/-! ### The common header (R464, R467) -/

/-- PAGE_CAPS. -/
def pageCaps (p : Page) : Nat :=
  b2n p.caps.1 + 2 * b2n p.caps.2.1 + 4 * b2n p.caps.2.2 + 256 * p.causes.length

/-- READY: boot has reached the page's block and the block is in use. (log 17: DEDUCED) -/
def pageReady (s : State) : Page → Bool
  | .global => 1 ≤ s.getF 0x1040 3 0
  | .steward => 1 ≤ s.getF 0x1040 3 0
  | .fuse => 1 ≤ s.getF 0x1040 3 0
  | .clock k => s.getF ((Page.clock k).base + 0x40) 16 16 = 1
  | .host h => s.headUp h
  | .ridge p => s.linkState p = 2
  | .barn c => 8 ≤ s.getF 0x1040 3 0 && !(s.channel c).dead
  | .tile n => 10 ≤ s.getF 0x1040 3 0 && !s.isFallow n
  | _ => 10 ≤ s.getF 0x1040 3 0

/-- Is the quiesce of a page complete? -/
def quiesced (s : State) (p : Page) : Bool :=
  s.getF (p.base + 0x0C) 1 1 = 1 &&
    match p with
    | .paddock q => s.allStopped (s.liveGangs fun t => paddockOf t = q)
    | .barn c => (s.channel c).reads.isEmpty && (s.channel c).writes.isEmpty
    | .doorbell q => s.reg (dbReg q 0x64) = s.reg (dbReg q 0x68)
    | _ => false

/-- FENCED: a fallow tile or a fenced pillar, a DEAD channel. -/
def pageFenced (s : State) : Page → Bool
  | .tile n => s.isFallow n || SMap.look false s.fence.pfenced n
  | .barn c => (s.channel c).dead
  | _ => false

/-- ERR: ERR_FIRST or ERR_NEXT is valid. -/
def pageErr (s : State) (p : Page) : Bool :=
  s.getF (p.base + 0x14) 31 31 = 1 || s.getF (p.base + 0x18) 31 31 = 1

/-- PAGE_STATUS. -/
def pageStatus (s : State) (p : Page) : Nat :=
  b2n (s.pageReady p) + 2 * b2n (s.quiesced p) + 4 * b2n (s.pageFenced p) + 8 * b2n (s.pageErr p)

/-! ### The summary registers (R471 to R473) -/

/-- `GLOBAL.ERRSUM_TILE` word `k` of paddock `p`. -/
def errsumTile (s : State) (p k : Nat) : Nat :=
  bitmap (if k = 8 then 16 else 32) fun j => s.pageErr (.tile (272 * p + 32 * k + j))

/-- `GLOBAL.ERRSUM`. -/
def errsum (s : State) : Nat :=
  let e := fun (p : Page) => b2n (s.pageErr p)
  e .global + 2 * e .steward + 8 * e .tithe + 16 * e .fence + 32 * e .dispatch + 64 * e .trace +
    128 * b2n ((List.range 40).any fun k => s.pageErr (.clock k)) +
    256 * bitmap 2 (fun h => s.pageErr (.host h)) + 2 ^ 10 * bitmap 6 (fun p => s.pageErr (.ridge p)) +
    2 ^ 16 * bitmap 16 (fun p => s.pageErr (.paddock p)) + 2 ^ 32 * e (.tally 16) +
    2 ^ 33 * b2n ((List.range 16).any fun p => s.pageErr (.tally p)) +
    2 ^ 34 * b2n ((List.range 64).any fun c => s.pageErr (.barn c)) +
    2 ^ 35 * b2n ((List.range 64).any fun q => s.pageErr (.doorbell q)) +
    2 ^ 36 * bitmap 16 fun p => (List.range 272).any fun i => s.pageErr (.tile (272 * p + i))

/-- GPIO.IN: a ball that OE drives shows its bit of OUT; what another shows, or one that the trace port drives, is not the block's
to say (R471, R494). (log 20: DESIGN CHOICE) -/
def ballsIn (s : State) (gpio : Nat) : Nat :=
  let free := (Config.free 8 s.fresh).toNat
  let driven := if s.getF 0x6060 0 0 = 1 then 0 else bits gpio 15 8
  bitmap 8 fun i => if bit driven i then bit gpio i else bit free i

/-- A register of the GLOBAL page. -/
def viewGlobal (s : State) (off v : Nat) : Nat :=
  if off = 0x50 then v + 2 ^ 16 * s.ballsIn v
  else if off = 0x80 then s.errsum
  else if off = 0x88 then bitmap 40 fun k => s.pageErr (.clock k)
  else if off = 0x90 then bitmap 64 fun c => s.pageErr (.barn c)
  else if off = 0x98 then bitmap 64 fun q => s.pageErr (.doorbell q)
  else if off = 0xA0 then bitmap 16 fun p => s.pageErr (.tally p)
  else if 0x400 ≤ off then s.errsumTile ((off - 0x400) / 0x40) ((off - 0x400) % 0x40 / 4)
  else v

/-! ### Fuses and measurements (R441, R474) -/

/-- A register of the FUSE page. -/
def viewFuse (s : State) (off v : Nat) : Nat :=
  let f := s.fuses
  let word := fun (n base : Nat) => n / 2 ^ (8 * (off - base)) % 2 ^ 32
  if off = 0x40 then f.grade.toNat + 256 * 0xB0
  else if off = 0x48 then f.serial.toNat
  else if off = 0x50 then f.minSvn.toNat
  else if 0x100 ≤ off ∧ off < 0x140 then word f.mkeyHash.toNat 0x100
  else if 0x140 ≤ off ∧ off < 0x180 then word f.dkeyHash.toNat 0x140
  else if 0x200 ≤ off ∧ off < 0x400 then word f.cen.toNat 0x200
  else if 0x400 ≤ off then word f.pcen.toNat 0x400
  else v

/-- A register of the STEWARD page. -/
def viewSteward (s : State) (off v : Nat) : Nat :=
  if 0x100 ≤ off then
    let i := (off - 0x100) / 0x40
    leNat (((s.measBytes i).drop ((off - 0x100) % 0x40)).take 4)
  else v

/-! ### Tallies and flags (R270, R284, R291) -/

/-- A register of a TALLY page. -/
def viewTally (s : State) (p off v : Nat) : Nat :=
  if 0x100 ≤ off ∧ off < 0x200 then
    let x := if p = 16 then s.devNode ((off - 0x100) / 4) else s.padNode p ((off - 0x100) / 4)
    x.gang + 256 * b2n x.bound + 512 * b2n x.lost
  else if 0x200 ≤ off ∧ off < 0x400 then
    let n := (off - 0x200) / 8
    let x := if p = 16 then s.devNode n else s.padNode p n
    let count :=
      if p = 16 then (List.range 16).foldl (fun c q => c + (s.padNode q (64 + n)).counted.length) 0 else x.counted.length
    count + 2 ^ 16 * (if x.bound then x.expected else 0) + 2 ^ 32 * x.epoch.toNat
  else if 0x400 ≤ off ∧ off < 0x600 then
    let c := s.crew ((off - 0x400) / 8)
    c.crew + 2 ^ 16 * c.gang + 2 ^ 24 * b2n c.isLocal + 2 ^ 25 * c.level + 2 ^ 27 * b2n c.bound + 2 ^ 28 * b2n c.lost +
      2 ^ 32 * c.expRow + 2 ^ 40 * c.expAcre + 2 ^ 48 * c.expEst
  else if 0x600 ≤ off ∧ off < 0x800 then
    let c := s.crew ((off - 0x600) / 8)
    let n := (List.range 16).foldl (fun k q => k + (s.padNode q (128 + (off - 0x600) / 8)).counted.length) 0
    n + 2 ^ 13 * c.rowCount.length + 2 ^ 19 * c.acreCount.length + 2 ^ 25 * c.estCount.length +
      2 ^ 32 * c.epoch.toNat
  else if 0x800 ≤ off ∧ off < 0xC00 then (s.flag ((off - 0x800) / 8)).value.toNat
  else if 0xC00 ≤ off then
    let f := s.flag ((off - 0xC00) / 4)
    f.ownerId + 2 ^ 16 * f.kind + 2 ^ 18 * b2n f.frozen
  else v

/-! ### The other pages -/

/-- A register of a BARN page. -/
def viewBarn (s : State) (c off v : Nat) : Nat :=
  let ch := s.channel c
  if off = 0x60 then
    (if ch.dead then 3 else if ch.training then 2 else b2n ch.selfRefresh) + 4 * bits v 2 2 + 8 * b2n s.hostPanic +
      16 * b2n s.ridgePanic + 256 * bits v 15 8 + 2 ^ 16 * ch.writes.length + 2 ^ 24 * bits v 27 24
  else v

/-- A register of a HOST page. -/
def viewHost (s : State) (h off v : Nat) : Nat :=
  if off = 0x4C then bits v 31 10 * 2 ^ 10 + (s.host h).ingress.length
  else if off = 0xC80 then bitmap 64 fun i => (s.host h).msixPending.contains i
  else if off = 0xC88 then bitmap 8 fun i => (s.host h).msixPending.contains (64 + i)
  else v

/-- A register of a TILE page; MAP reads zero until stage 6 of a boot builds the fence map (R136, R265, R442, R477). -/
def viewTile (s : State) (t off v : Nat) : Nat :=
  let x := s.tile t
  if off = 0x44 then CoreState.code x.queue x.core + 256 * (x.pc % 2 ^ 16) + 2 ^ 24 * x.fcode
  else if off = 0x98 then x.staging.length + 2 ^ 16 * bits v 26 16
  else if off = 0xA8 then
    if s.getF 0x1040 3 0 < 6 then 0
    else
    let l := s.ltileOf t
    l.getD 0xFFF + 2 ^ 12 * b2n ((l.map s.computeEnabled).getD false) + 2 ^ 13 * b2n (s.isFallow t) +
      2 ^ 14 * b2n (SMap.look false s.fence.pfenced t) + 2 ^ 15 * b2n (s.placeBusy t)
  else v

/-- A register of the DISPATCH page. -/
def viewDispatch (s : State) (off v : Nat) : Nat :=
  if 0x80 ≤ off ∧ off < 0xA0 then bitmap 32 fun j => (s.gang (8 * (off - 0x80) + j)).live
  else if 0xA0 ≤ off ∧ off < 0xC0 then bitmap 32 fun j => (s.gang (8 * (off - 0xA0) + j)).faulted
  else v

/-- A register of the FENCE page. -/
def viewFence (s : State) (off v : Nat) : Nat :=
  if off = 0x44 then v / 2 * 2 + b2n (!s.fence.queue.isEmpty)
  else if 0x50 ≤ off ∧ off < 0x60 then
    (List.range 4).foldl (fun n j => n + 2 ^ (8 * j) * (s.spares (off - 0x50 + j)).length) 0
  else v

/-- What the register that starts at BAR0 offset `a` reads as; a reserved offset reads zero (R462). -/
def view (s : State) (a : Nat) : Nat :=
  match pageAt a with
  | none => 0
  | some p =>
    let off := a - p.base
    match regAt p off with
    | none => 0
    | some (r, _) =>
      let v := readable r (s.reg a)
      if off = 0 then p.ident.1 + 2 ^ 16 * p.ident.2
      else if off = 8 then pageCaps p
      else if off = 0x10 then s.pageStatus p
      else
        match p with
        | .global => s.viewGlobal off v
        | .fuse => s.viewFuse off v
        | .steward => s.viewSteward off v
        | .tally q => s.viewTally q off v
        | .barn c => s.viewBarn c off v
        | .host h => s.viewHost h off v
        | .tile t => s.viewTile t off v
        | .dispatch => s.viewDispatch off v
        | .fence => s.viewFence off v
        | .ridge _ => if off = 0x11C then v + s.ridge.staging.length else v
        | .paddock _ => if off = 0x40 then v + 2 ^ 10 * b2n (s.hostPanic && bits v 8 8 = 1) else v
        | _ => v

end State

end Sys2Proof.Machine
end

