-- ==== Sys2Proof/Machine/Bar0.lean ====
section
/-! DEFINITION. Host accesses to BAR0: widths and halves, reserved offsets, pages before boot, locks, counters, and what a
write of each register does (R15 to R17, R461 to R469). -/

namespace Sys2Proof.Machine

/-- The access of one field by the value `v` written to its register, `old` the register's value (R15, R469). -/
def fieldWrite (locked : Bool) (f : Fld) (old v : Nat) : Nat :=
  let hi := f.lo + f.width - 1
  let a := bits old hi f.lo
  let b := bits v hi f.lo
  let n :=
    match f.acc with
    | .rw => b
    | .rw1c => a - (a &&& b)
    | .rw1s => a ||| b
    | .wo => a
    | .rwl => if locked then a else b
    | .cnt => if b = 2 ^ f.width - 1 then 0 else a
    | .cntS => if b = 2 ^ f.width - 1 then 0 else a
  old - a * 2 ^ f.lo + n * 2 ^ f.lo

/-- A register's new value when every writable field takes the write. -/
def writtenValue (locked : Bool) (r : RegDesc) (old v : Nat) : Nat :=
  r.fields.foldl (fun x f => fieldWrite locked f x v) old

namespace State

/-! ### Header registers (R465 to R468) -/

/-- Does LOCK hold on page `p`? -/
def locked (s : State) (p : Page) : Bool := s.getF (p.base + 0x0C) 2 2 = 1

/-- Fields without an effect of their own take the write. -/
def plainWrite (s : State) (p : Page) (r : RegDesc) (a v : Nat) : State :=
  s.setReg a (writtenValue (s.locked p) r (s.reg a) v)

/-- A write of PAGE_CTRL. In BARN pages LOCK is also BARN.CTRL.LOCK. (log 18: DEDUCED) -/
def writePageCtrl (s : State) (p : Page) (v : Nat) : State :=
  let a := p.base + 0x0C
  let s := s.setF a 0 0 (v % 2)
  let s := if bit v 2 then s.setF a 2 2 1 else s
  let s :=
    match p with
    | .barn _ => if bit v 2 then s.setF (p.base + 0x40) 0 0 1 else s
    | _ => s
  if !p.caps.2.1 then s
  else if bit v 1 then s.setF a 1 1 1
  else (s.setF a 1 1 0).resumeAll

/-- A write of ERR_FIRST (slot 1) or ERR_NEXT (slot 2): VALID clears the register and releases a location its logging
recorded. (log 19: DEDUCED) -/
def writeErr (s : State) (p : Page) (slot v : Nat) : State :=
  if !bit v 31 then s
  else
    let s := s.setReg (p.base + 0x10 + 4 * slot) 0
    if SMap.look 0 s.locHeld p.base = slot then { s with locHeld := SMap.put 0 s.locHeld p.base 0 } else s

/-- A write of ERR_INJECT. (log 22: DEDUCED) -/
def writeInject (s : State) (p : Page) (v : Nat) : State :=
  if !bit v 31 then s
  else
    match p.causes.find? fun c => c.row.1 = v % 256 with
    | some c => (s.logAs p c true 0).2
    | none => s

/-! ### RIDGE page 0 (R359, R365) -/

/-- A write of RIDGE.OVERRIDE: coordinates and ring lengths are replaced, walks end, and the check runs again. (log 72:
DEDUCED) -/
def writeOverride (s : State) (v : Nat) : State :=
  let s := s.setReg 0x48110 (v % 2 ^ 15 + bits v 30 16 * 2 ^ 16)
  if !bit v 31 then s
  else
    let s := s.setReg 0x48100 (v % 2 ^ 15 + 0xF * 2 ^ 16)
    let len := fun (d : Nat) => bits v (20 + 5 * d) (16 + 5 * d)
    let s := s.setReg 0x48104 (len 0 + 7 * 2 ^ 5 + len 1 * 2 ^ 8 + 7 * 2 ^ 13 + len 2 * 2 ^ 16 + 7 * 2 ^ 21)
    let walks := (List.range 3).map fun d => (d, { (SMap.look Walk.reset s.ridge.walks d) with ended := true })
    let s : State := { s with ridge := { s.ridge with walks } }
    (s.raise 68).walksEnded

/-! ### The write of one register -/

/-- A write of a base register, ignored while EN of the control register at `ctrl` is 1. -/
def writeBase (s : State) (p : Page) (r : RegDesc) (ctrl a v : Nat) : State :=
  if s.getF ctrl 0 0 = 1 then s else s.plainWrite p r a v

/-- A write of a register of the GLOBAL page. -/
def writeGlobal (s : State) (r : RegDesc) (off v : Nat) : State :=
  if off = 0x40 then s.writeReset v else s.plainWrite .global r off v

/-- A write of a register of the TITHE page. -/
def writeTithe (s : State) (r : RegDesc) (off v : Nat) : State :=
  let a := 0x3000 + off
  if off = 0x50 then s.writeGranary v
  else if off = 0x54 then s.writeSweep v
  else if off = 0x60 then s.writeBase .tithe r 0x3068 a v
  else if off = 0x68 then
    let s := if bits v 31 16 = 0xFFFF then s.setF a 31 16 0 else s
    s.writeRingCtrl a 0x3060 256 v .tithe .cperConfig
  else s.plainWrite .tithe r a v

/-- A write of a register of the DISPATCH page. -/
def writeDispatch (s : State) (r : RegDesc) (off v : Nat) : State :=
  let a := 0x5000 + off
  if off = 0x44 then s.writeGangReset v
  else if off = 0x48 then s.writeBase .dispatch r 0x5050 a v
  else if off = 0x50 then s.writeRingCtrl a 0x5048 64 v .dispatch .flogConfig
  else s.plainWrite .dispatch r a v

/-- A write of a register of the TRACE page. -/
def writeTrace (s : State) (r : RegDesc) (off v : Nat) : State :=
  let a := 0x6000 + off
  if off = 0x40 then s.writeBase .trace r 0x6048 a v
  else if off = 0x48 then
    let s := if bit v 1 ∧ s.getF a 0 0 = 0 then (s.setReg 0x604C 0).setReg 0x6050 0 else s
    s.writeRingCtrl a 0x6040 32 v .trace .traceConfig
  else s.plainWrite .trace r a v

/-- A write of a register of a HOST page. -/
def writeHost (s : State) (h : Nat) (r : RegDesc) (off v : Nat) : State :=
  if 0x800 ≤ off ∧ off < 0xC80 then s.writeMsix h off v
  else
    let s := s.plainWrite (.host h) r ((Page.host h).base + off) v
    if off = 0x44 ∨ off = 0x48 then s.updatePanic else s

/-- A write of a register of a RIDGE page. -/
def writeRidge (s : State) (p : Nat) (r : RegDesc) (off v : Nat) : State :=
  if off = 0x40 then s.writeRidgeCtrl p v
  else if off = 0x110 then s.writeOverride v
  else if off = 0x118 then if bit v 15 then s.purgeNode (v % 2 ^ 15) else s
  else
    let s := s.plainWrite (.ridge p) r ((Page.ridge p).base + off) v
    if off = 0x4C then s.updateRidgePanic else s

/-- A write of a register of a TALLY page. -/
def writeTally (s : State) (p off v : Nat) : State :=
  if 0x100 ≤ off ∧ off < 0x200 then s.writeTCfg p ((off - 0x100) / 4) v
  else if 0x400 ≤ off ∧ off < 0x600 then s.writeCCfg ((off - 0x400) / 8) v
  else if 0x600 ≤ off ∧ off < 0x800 then
    s.onCrew ((off - 0x600) / 8) fun c => if c.bound then c else { c with epoch := BitVec.ofNat 32 (v / 2 ^ 32) }
  else if 0x800 ≤ off ∧ off < 0xC00 then s.writeFlag ((off - 0x800) / 8) (BitVec.ofNat 64 v)
  else if 0xC00 ≤ off then s.writeFlagOwner ((off - 0xC00) / 4) v
  else s

/-- A write of a register of a BARN page. -/
def writeBarn (s : State) (c : Nat) (r : RegDesc) (off v : Nat) : State :=
  if off = 0x40 then s.writeBarnCtrl c v
  else if 0x44 ≤ off ∧ off < 0x58 then s.writeBankHash c ((off - 0x44) / 4) v
  else if off = 0x64 then s.writeTrain c v
  else if off = 0x5C then (s.plainWrite (.barn c) r ((Page.barn c).base + off) v).updateDrain c
  else s.plainWrite (.barn c) r ((Page.barn c).base + off) v

/-- A write of a register of a DOORBELL page. -/
def writeDoorbell (s : State) (q off v : Nat) : State :=
  if off = 0x40 then s.writeQctrl q v
  else if off = 0x48 ∨ off = 0x50 ∨ off = 0x58 then s.writeQbase q off v
  else if off = 0x60 then s.writeProd q v
  else if off = 0x6C then s.writeCqHead q v
  else s

/-- Register `r` of page `p` at page offset `off` takes the whole value `v`. -/
def writeReg (s : State) (p : Page) (r : RegDesc) (off v : Nat) : State :=
  let a := p.base + off
  if off = 0x0C then s.writePageCtrl p v
  else if off = 0x14 then s.writeErr p 1 v
  else if off = 0x18 then s.writeErr p 2 v
  else if off = 0x20 then s.writeInject p v
  else if off < 0x40 then s.plainWrite p r a v
  else
    match p with
    | .global => s.writeGlobal r off v
    | .steward => if off = 0x48 then s.writeUpkeep v else s.plainWrite p r a v
    | .tithe => s.writeTithe r off v
    | .fence => if off = 0x40 then s.writeFenceReq v else s.plainWrite p r a v
    | .dispatch => s.writeDispatch r off v
    | .trace => s.writeTrace r off v
    | .host h => s.writeHost h r off v
    | .ridge k => s.writeRidge k r off v
    | .paddock k => if off = 0x40 then s.writeMode k v else if off = 0x58 then s.writeGlean k v else s.plainWrite p r a v
    | .tally k => s.writeTally k off v
    | .barn c => s.writeBarn c r off v
    | .doorbell q => s.writeDoorbell q off v
    | .tile t => if off = 0x40 then s.writeTileCtrl t v else s.plainWrite p r a v
    | .fuse => s.plainWrite p r a v
    | .clock _ => s.plainWrite p r a v

/-! ### Accesses (R17, R462) -/

/-- Is an access of `w` bytes at `a` of a wrong width or alignment? Only a register declared 64 bits wide takes 64 bits; the
CXL range takes both widths (R17). (log 14: DESIGN CHOICE) -/
def badAccess (a w : Nat) : Bool :=
  !((w = 4 || w = 8) && a % w = 0) ||
    (w = 8 && !isCxlRange a && match pageAt a with
      | some p => (match regAt p (a - p.base) with
        | some (r, start) => r.width ≠ 64 || p.base + start ≠ a
        | none => true)
      | none => true)

/-- Does BAR0 offset `a` lie in no page, or where its page defines no register? -/
def unmappedAt (a : Nat) : Bool :=
  match pageAt a with
  | some p => (regAt p (a - p.base)).isNone
  | none => !isCxlRange a

/-- Are host writes of this page ignored until boot stage 6 (R462)? -/
def notBooted (s : State) (p : Page) : Bool := p ≠ .global && s.early

/-- A write of `w` bytes at an offset that holds a register. -/
def writeMapped (s : State) (h a w : Nat) (v : BitVec 64) (p : Page) (r : RegDesc) (start : Nat) : State :=
  let at_ := p.base + start
  let v := v.toNat
  if w = 8 then s.writeReg p r start v
  else if r.width ≠ 64 then s.writeReg p r start (v % 2 ^ 32)
  else if a = at_ then s.onHost h fun x => { x with pendingLow := some (a, BitVec.ofNat 32 v) }
  else
    let low :=
      match (s.host h).pendingLow with
      | some (_, x) => x.toNat
      | none => s.view at_ % 2 ^ 32
    let s := s.onHost h fun x => { x with pendingLow := none }
    s.writeReg p r start (low + v % 2 ^ 32 * 2 ^ 32)

/-- Does BAR0 answer head `h`: the module hears it and the function is in D0 (R368)? -/
def barAnswers (s : State) (h : Nat) : Bool := s.headHears h && s.inD0 h

/-- A write through head `h` of `w` bytes at BAR0 offset `a`. Nothing reaches the module while the link is down. An event
that the write itself logs with the giving up of a half is not lost to what the write clears (R16). -/
def bar0Write (s : State) (h a w : Nat) (v : BitVec 64) : State :=
  if !s.barAnswers h then s
  else
    let lost := s.lostHalf h a w true
    let s := s.clearLatches h lost
    if badAccess a w then (s.logLost lost).logAccess .accessWidth a true
    else if isCxlRange a then
      if s.early then (s.logLost lost).logAccess .notBooted a true else (s.logLost lost).cxlWrite h a w v.toNat
    else
      match pageAt a with
      | none => (s.logLost lost).logAccess .unmapped a true
      | some p =>
        match regAt p (a - p.base) with
        | none => (s.logLost lost).logAccess .unmapped a true
        | some (r, start) =>
          if s.notBooted p then
            ((s.onHost h fun x => { x with pendingLow := none }).logLost lost).logAccess .notBooted a true
          else if p = .global ∧ start = 0x1C then (s.logLost lost).writeMapped h a w v p r start
          else (s.writeMapped h a w v p r start).logLost lost

/-- A 32-bit write of register `off` of page `p`. -/
def pageWrite (s : State) (h : Nat) (p : Page) (off : Nat) (v : BitVec 32) : State :=
  s.bar0Write h (p.base + off) 4 (v.setWidth 64)

/-- LINKERR of a head is read: while its link is up, its link layer may have replayed any number of times since the last read (R395).
(log 6: DESIGN CHOICE) -/
def countReplays (s : State) (a : Nat) : State :=
  match [0, 1].find? fun h => a = (Page.host h).base + 0x60 && s.headUp h with
  | some _ =>
    let (d, s) := s.takeFree 16
    s.addF a 15 0 d.toNat
  | none => s

/-- The value of a read of `w` bytes at `a` of register `r`, which starts at `at_`, with what the head's latch held before:
the lower half of a 64-bit register latches its upper half (R17). -/
def readMapped (s : State) (h a w : Nat) (r : RegDesc) (at_ : Nat) (latch : Option (Nat × BitVec 32)) : State :=
  let s := s.countReplays at_
  let v := s.view at_
  let s := if at_ = Page.base .global + 0x50 then (s.takeFree 8).2 else s
  if r.width = 64 ∧ w = 4 then
    if a = at_ then
      (s.onHost h fun x => { x with readLatch := some (a, BitVec.ofNat 32 (v / 2 ^ 32)) }).emit
        (.bar0 h (BitVec.ofNat 64 (v % 2 ^ 32)))
    else
      match latch with
      | some (lo, x) => s.emit (.bar0 h (if lo + 4 = a then x.setWidth 64 else BitVec.ofNat 64 (v / 2 ^ 32)))
      | none => s.emit (.bar0 h (BitVec.ofNat 64 (v / 2 ^ 32)))
  else s.emit (.bar0 h (BitVec.ofNat 64 v))

/-- A read through head `h` of `w` bytes at BAR0 offset `a`: zero at a reserved offset, all ones where the width or the
alignment is wrong or the function is not in D0 (R17, R368, R462). (log 13: DESIGN CHOICE) -/
def bar0Read (s : State) (h a w : Nat) : State :=
  if !s.headHears h then s
  else if !s.inD0 h then s.emit (.bar0 h (BitVec.allOnes 64))
  else
    let latch := (s.host h).readLatch
    let lost := s.lostHalf h a w false
    let s := (s.clearLatches h lost).logLost lost
    if badAccess a w then (s.logAccess .accessWidth a false).emit (.bar0 h (BitVec.allOnes 64))
    else if isCxlRange a then s.cxlRead h a w
    else
      match pageAt a with
      | none => (s.logAccess .unmapped a false).emit (.bar0 h 0)
      | some p =>
        match regAt p (a - p.base) with
        | none => (s.logAccess .unmapped a false).emit (.bar0 h 0)
        | some (r, start) => s.readMapped h a w r (p.base + start) latch

end State

/-- A command that is a write of register `off` of page `p` through head `h`, with a value that satisfies `when_`. (log
16: DEDUCED) -/
def writeRow (s : State) (h : Nat) (ok : Bool) (p : Page) (off : Nat) (v : BitVec 32) (when_ : Bool) : Res :=
  guardUnit (isHead h && ok) (if when_ then s.pageWrite h p off v else s)

/-! ### Rows: dispatch (R137 to R175) -/

/-- DOORBELL_WRITE (R28). -/
def execDoorbellWrite (h q : Nat) (v : BitVec 32) (s : State) : Res := writeRow s h (isSheafQueue q) (.doorbell q) 0x60 v true

/-- CQ_HEAD_WRITE (R142). -/
def execCqHeadWrite (h q : Nat) (v : BitVec 32) (s : State) : Res := writeRow s h (isSheafQueue q) (.doorbell q) 0x6C v true

/-- QUEUE_ENABLE (R138): EN is written 1. -/
def execQueueEnable (h q : Nat) (v : BitVec 32) (s : State) : Res :=
  writeRow s h (isSheafQueue q) (.doorbell q) 0x40 v (v.getLsbD 0)

/-- QUEUE_DISABLE (R143): EN is written 0. -/
def execQueueDisable (h q : Nat) (v : BitVec 32) (s : State) : Res :=
  writeRow s h (isSheafQueue q) (.doorbell q) 0x40 v (!v.getLsbD 0)

/-- QUEUE_RESET (R140): RESET is written 1. -/
def execQueueReset (h q : Nat) (v : BitVec 32) (s : State) : Res :=
  writeRow s h (isSheafQueue q) (.doorbell q) 0x40 v (v.getLsbD 1)

/-- GANG_RESET (R172). -/
def execGangReset (h : Nat) (v : BitVec 32) (s : State) : Res := writeRow s h true .dispatch 0x44 v (v.getLsbD 8)

/-- FLOG_ENABLE (R171). -/
def execFlogEnable (h : Nat) (v : BitVec 32) (s : State) : Res := writeRow s h true .dispatch 0x50 v (v.getLsbD 0)

/-- TRACE_ENABLE (R475). -/
def execTraceEnable (h : Nat) (v : BitVec 32) (s : State) : Res := writeRow s h true .trace 0x48 v (v.getLsbD 0)

/-- TRACE_RESTART (R475). -/
def execTraceRestart (h : Nat) (v : BitVec 32) (s : State) : Res := writeRow s h true .trace 0x48 v (v.getLsbD 1)

/-- TILE_RESET (R134). -/
def execTileReset (h t : Nat) (v : BitVec 32) (s : State) : Res := writeRow s h (isTile t) (.tile t) 0x40 v (v.getLsbD 0)

/-- MODE_SELECT (R75). -/
def execModeSelect (h p : Nat) (v : BitVec 32) (s : State) : Res := writeRow s h (isPaddock p) (.paddock p) 0x40 v true

/-- MSIX_UNMASK (R394): vector control of vector `n` of head `h` is written with its mask clear. -/
def execMsixUnmask (h n : Nat) (v : BitVec 32) (s : State) : Res :=
  writeRow s h (n < 72) (.host h) (0x80C + 16 * n) v (!v.getLsbD 0)

/-! ### Rows: tallies and flags (R268 to R291) -/

/-- TALLY_BIND (R268). -/
def execTallyBind (h p n : Nat) (v : BitVec 32) (s : State) : Res :=
  writeRow s h (isTallyPage p && n < 64) (.tally p) (0x100 + 4 * n) v (v.getLsbD 8)

/-- TALLY_UNBIND (R269). -/
def execTallyUnbind (h p n : Nat) (v : BitVec 32) (s : State) : Res :=
  writeRow s h (isTallyPage p && n < 64) (.tally p) (0x100 + 4 * n) v (!v.getLsbD 8)

/-- CREW_TALLY_BIND (R289): one 64-bit write with BOUND set. -/
def execCrewTallyBind (h n : Nat) (v : BitVec 64) (s : State) : Res :=
  guardUnit (isHead h && n < 64) (if v.getLsbD 27 then s.bar0Write h (0x60400 + 8 * n) 8 v else s)

/-- FLAG_WRITE (R282): one 64-bit write. -/
def execFlagWrite (h f : Nat) (v : BitVec 64) (s : State) : Res :=
  guardUnit (isHead h && f < 128) (s.bar0Write h (0x60800 + 8 * f) 8 v)

/-- FLAG_OWNER_WRITE (R282). -/
def execFlagOwnerWrite (h f : Nat) (v : BitVec 32) (s : State) : Res :=
  writeRow s h (f < 128) (.tally 16) (0xC00 + 4 * f) v true

/-! ### Rows: granary, CPER, fences, sweeps, bank hashes (R299, R415 to R432) -/

/-- GRANARY_SNAPSHOT_REQUEST (R428): OP 1 with GO. -/
def execGranarySnapshotRequest (h : Nat) (v : BitVec 32) (s : State) : Res :=
  writeRow s h true .tithe 0x50 v (v.getLsbD 10 && bits v.toNat 9 8 = 1)

/-- RESTORE (R429): OP 2 with GO. -/
def execRestore (h : Nat) (v : BitVec 32) (env : Env) (s : State) : Res :=
  let go := v.getLsbD 10 && bits v.toNat 9 8 = 2
  writeRow (if go then s.upset env else s) h true .tithe 0x50 v go

/-- CPER_ENABLE (R432). -/
def execCperEnable (h : Nat) (v : BitVec 32) (s : State) : Res := writeRow s h true .tithe 0x68 v (v.getLsbD 0)

/-- FENCE_REQUEST (R415). -/
def execFenceRequest (h : Nat) (v : BitVec 32) (s : State) : Res := writeRow s h true .fence 0x40 v (v.getLsbD 31)

/-- SWEEP_REQUEST (R419). -/
def execSweepRequest (h : Nat) (v : BitVec 32) (s : State) : Res := writeRow s h true .tithe 0x54 v (v.getLsbD 5)

/-- BANKHASH_WRITE (R299). -/
def execBankhashWrite (h c i : Nat) (v : BitVec 32) (s : State) : Res :=
  writeRow s h (isChannel c && i < 5) (.barn c) (0x44 + 4 * i) v true

/-! ### Rows: live changes and resets (R453, R458 to R460) -/

/-- UPKEEP_INVALID_OP (R460): OP 0 or 7 with GO. -/
def execUpkeepInvalidOp (h : Nat) (v : BitVec 32) (s : State) : Res :=
  writeRow s h true .steward 0x48 v (v.getLsbD 31 && (v.toNat % 8 = 0 || v.toNat % 8 = 7))

/-- UPKEEP_BUSY (R453): GO while a live change runs. -/
def execUpkeepBusy (h : Nat) (v : BitVec 32) (s : State) : Res :=
  writeRow s h true .steward 0x48 v (v.getLsbD 31 && s.st.upkeep.isSome)

/-- WARM_RESET (R458): KIND 1 with GO. -/
def execWarmReset (h : Nat) (v : BitVec 32) (s : State) : Res :=
  writeRow s h true .global 0x40 v (v.getLsbD 31 && v.toNat % 4 = 1)

/-- PADDOCK_RESET (R459): KIND 2 with GO. -/
def execPaddockReset (h : Nat) (v : BitVec 32) (s : State) : Res :=
  writeRow s h true .global 0x40 v (v.getLsbD 31 && v.toNat % 4 = 2)

/-- RESET_BUSY (R458): a request while a warm reset runs. -/
def execResetBusy (h : Nat) (v : BitVec 32) (s : State) : Res :=
  writeRow s h true .global 0x40 v (v.getLsbD 31 && s.warmBusy)

/-! ### Rows: the ridge (R359, R365, R366) -/

/-- RIDGE_OVERRIDE (R359). -/
def execRidgeOverride (h : Nat) (v : BitVec 32) (s : State) : Res := writeRow s h true (.ridge 0) 0x110 v (v.getLsbD 31)

/-- STAGE_PURGE (R365). -/
def execStagePurge (h : Nat) (v : BitVec 32) (s : State) : Res := writeRow s h true (.ridge 0) 0x118 v (v.getLsbD 15)

/-- RIDGE_PORT_DISABLE (R366): EN is written 0. -/
def execRidgePortDisable (h p : Nat) (v : BitVec 32) (s : State) : Res :=
  writeRow s h (isPort p) (.ridge p) 0x40 v (!v.getLsbD 0)

/-- RIDGE_PORT_ENABLE (R366): EN is written 1. -/
def execRidgePortEnable (h p : Nat) (v : BitVec 32) (s : State) : Res :=
  writeRow s h (isPort p) (.ridge p) 0x40 v (v.getLsbD 0)

/-! ### Rows: register pages (R461 to R469) -/

/-- QUIESCE_REQUEST (R467): a write of PAGE_CTRL at BAR0 offset `a`. -/
def execQuiesceRequest (h a : Nat) (v : BitVec 32) (s : State) : Res :=
  guardUnit (isHead h && (pageAt a).isSome)
    (if a % 0x1000 = 0x0C then s.bar0Write h a 4 (v.setWidth 64) else s)

/-- ERR_CLEAR (R465): a write of ERR_FIRST or ERR_NEXT at BAR0 offset `a`. -/
def execErrClear (h a : Nat) (v : BitVec 32) (s : State) : Res :=
  guardUnit (isHead h && (pageAt a).isSome)
    (if a % 0x1000 = 0x14 ∨ a % 0x1000 = 0x18 then s.bar0Write h a 4 (v.setWidth 64) else s)

/-- ERR_INJECT (R465): a write of ERR_INJECT at BAR0 offset `a`. -/
def execErrInject (h a : Nat) (v : BitVec 32) (s : State) : Res :=
  guardUnit (isHead h && (pageAt a).isSome)
    (if a % 0x1000 = 0x20 then s.bar0Write h a 4 (v.setWidth 64) else s)

/-- Has the register at `a` a counter or high-water field? -/
def hasCounter (a : Nat) : Bool :=
  match pageAt a with
  | some p =>
    match regAt p (a - p.base) with
    | some (r, _) => r.fields.any fun f => f.acc = .cnt || f.acc = .cntS
    | none => false
  | none => false

/-- COUNTER_CLEAR (R469): a write of a register with a counter field. -/
def execCounterClear (h a w : Nat) (v : BitVec 64) (s : State) : Res :=
  guardUnit (isHead h && a < 0x4000000) (if hasCounter a then s.bar0Write h a w v else s)

/-- UNMAPPED (R462): a reserved offset is read or written. -/
def execUnmapped (h a : Nat) (write : Bool) (s : State) : Res :=
  guardUnit (isHead h && a < 0x4000000)
    (if !(State.unmappedAt a && a % 4 = 0) then s else if write then s.bar0Write h a 4 0 else s.bar0Read h a 4)

/-- ACCESS_WIDTH (R17): an access of a wrong width or alignment; and, as a read of a register has no row of its own, any
read, which may abandon a pending half too, configuration space included. (log 13: DESIGN CHOICE) -/
def execAccessWidth (h a w : Nat) (write : Bool) (s : State) : Res :=
  guardUnit (isHead h && a < State.configBase + 0x1000)
    (if State.configBase ≤ a then if write then s else s.configRead h a
    else if !write then s.bar0Read h a w
    else if State.badAccess a w then s.bar0Write h a w 0
    else s)

/-- REGISTER_WRITE (R17): any write of a register, or of a word of configuration space. (log 15: DESIGN CHOICE) -/
def execRegisterWrite (h a w : Nat) (v : BitVec 64) (s : State) : Res :=
  guardUnit (isHead h && a < State.configBase + 0x1000)
    (if State.configBase ≤ a then s.configWrite h a v.toNat else s.bar0Write h a w v)

end Sys2Proof.Machine
end

