-- ==== Sys2Proof/Machine/Boot.lean ====
section
/-! DEFINITION. The pins that reset the module and the stages of a boot (R22, R74, R435, R440 to R445, R486 to R495). -/

namespace Sys2Proof.Machine

namespace State

/-! ### Where a boot stands (R442) -/

/-- The last boot stage completed. -/
def stage (s : State) : Nat := s.getF 0x1040 3 0

/-- Boot stage `n` is complete; the write entries of the next one start at the first. -/
def setStage (s : State) (n : Nat) : State :=
  let s := s.setF 0x1040 3 0 n
  { s with st := { s.st with applied := 0 } }

/-- Is a boot under way, with stage `n` the last completed? A stage may come before one it does not depend on. (log 76: DEDUCED) -/
def bootAt (s : State) (n : Nat) : Bool := s.awake && s.st.booting && s.stage = n

/-- A full boot, or a warm one. -/
def fullBoot (s : State) : Bool := s.st.boot = .full

/-- A boot of the given kind is to begin; with TESTEN high it makes no stage after the first (R493). -/
def startBoot (s : State) (k : BootKind) : State :=
  { s with st := { s.st with boot := k, booting := k = .full || !s.straps.testen } }

/-- The boot stops with a STATE, which ALERT# shows; no range is active and no ridge port trains (R440, R444). -/
def stopBoot (s : State) (state : Nat) : State :=
  let s := s.setF 0x1040 5 4 state
  let s := foldEach (List.range 6) s fun p s => if s.linkState p = 1 then s.setF (rstat p) 2 0 0 else s
  { s with st := { s.st with booting := false, fieldActive := false, barnActive := false } }.updateAlert

/-! ### Stages 1 and 2 -/

/-- Has each paddock 32 compute-disabled logical tiles, as on a CM384-E (R5)? -/
def cen32 (cen : BitVec 4096) : Bool :=
  (List.range 16).all fun p => ((List.range 256).filter fun i => !cen.getLsbD (256 * p + i)).length = 32

/-- Can a part have these fuses: a grade that is not reserved, and CEN all ones but on a CM384-E (R5, R7, R8)? -/
def fusesOk (f : Fuses) : Bool :=
  (f.grade = 1 || f.grade = 2 || f.grade = 3) && if f.grade = 2 then cen32 f.cen else f.cen = BitVec.allOnes 4096

/-- Stage 1: MCLK locks at 400 MHz, the fuses are sensed and M0 extended. Fuses sensed before are what they were then (R7).
With TESTEN high the boot ends here (R493). -/
def senseFuses (s : State) (new : Fuses) : State :=
  let f := if s.sensed then s.fuses else new
  let s : State := { s with fuses := f, sensed := true }
  let s := (s.setFreq 38 4000).extend 0 (Config.fuseImage f.grade.toNat 0xB0 f.serial f.minSvn f.mkeyHash)
  let s := s.setStage 1
  if s.straps.testen then { s with st := { s.st with booting := false } } else s

/-- Stage 2: the debug state is measured, HCLK locks at 1.0 GHz, and the host ports that are not in reset train. Stage 3 does not
depend on it and may have come first. -/
def startLinks (s : State) : State :=
  let s := (s.extend 6 [BitVec.ofNat 8 (s.getF 0x1040 8 8)]).setFreq 36 10000
  let s := (s.setReg (linkReg 0) (s.linkTrains 0)).setReg (linkReg 1) (if s.st.perst1 then 3 else s.linkTrains 1)
  let s : State := { s with st := { s.st with linked := true } }
  if s.stage = 1 then s.setStage 2 else s

/-! ### Stages 3 to 5: the manifest (R440, R441, R445) -/

/-- The bytes of a slot of the flash. -/
def slotBytes (s : State) (i : Nat) : List Byte :=
  if !s.st.flash.found then [] else if i = 0 then s.st.flash.slotA else s.st.flash.slotB

/-- The slots that are candidates and have not failed in this boot. -/
def candidates (s : State) : List Nat :=
  [0, 1].filter fun i => !s.st.triedSlots.contains i && mfHeaderOk s.fuses (s.slotBytes i)

/-- The candidate to use: the later SEQ, slot A of two alike. -/
def pickSlot (s : State) : Option Nat :=
  match s.candidates with
  | [] => none
  | [i] => some i
  | _ => if serialGT 32 (mfSeq (s.slotBytes 1)) (mfSeq (s.slotBytes 0)) then some 1 else some 0

/-- Stage 4: the chosen slot is read and measured, and the identity key derived while the PUF is enabled. -/
def readManifest (s : State) : State :=
  let s :=
    match s.pickSlot with
    | none => { s with st := { s.st with manifest := [] } }
    | some i =>
      let img := s.slotBytes i
      { s with st := { s.st with slot := i, manifest := img } }.measureManifest img i
  { s with st := { s.st with key := if s.st.puf then some (identityScalar s.fuses.serial) else none } }.setStage 4

/-- Stage 5: the manifest is used if it is valid; otherwise the other candidate is tried, or the boot stops. -/
def verifyManifest (s : State) : State :=
  match s.pickSlot with
  | none => s.stopBoot 2
  | some i =>
    if mfValid s.fuses s.st.manifest then
      ((s.setF 0x1040 6 6 i).setReg 0x1044 (mfSeq s.st.manifest)).setStage 5
    else
      let s : State := { s with st := { s.st with triedSlots := s.st.triedSlots ++ [i], manifest := [] } }
      if s.candidates = [] then s.stopBoot 2 else s.setStage 3

/-- What must be applied could not be: MANIFEST_APPLY, and the boot restarts once from stage 3 with the other slot if
that is valid, or stops (R444). (log 77: DEDUCED) -/
def applyFail (s : State) : State :=
  let s := s.log .steward .manifestApply
  let other := 1 - s.st.slot
  if !s.st.fellBack ∧ !s.st.triedSlots.contains other ∧ mfValid s.fuses (s.slotBytes other) then
    let s : State :=
      { s with st := { s.st with
          fellBack := true, triedSlots := s.st.triedSlots ++ [s.st.slot], commanded := false, settling := [],
          barnActive := false } }
    (s.setF 0x1040 7 7 1).setStage 3
  else s.stopBoot 3

/-! ### Write entries (R438, R444) -/

/-- The register that holds the word at `a`, with its page. -/
def entryReg (a : Nat) : Option (Page × RegDesc × Nat) :=
  match pageAt a with
  | none => none
  | some p => (regAt p (a - p.base)).map fun r => (p, r.1, r.2)

/-- The bits of a register whose written value acts: a composed value holds zero in all others. -/
def actMask (r : RegDesc) : Nat :=
  (r.fields.filter fun f => f.acc = .rw || f.acc = .rw1s || f.acc = .rwl).foldl
    (fun m f => m ||| ((2 ^ f.width - 1) <<< f.lo)) 0

/-- The word at `a`: a whole register or half of one. -/
def wordAt (s : State) (a : Nat) : Nat :=
  match entryReg a with
  | some (p, _, start) => s.view (p.base + start) / 2 ^ (8 * (a - p.base - start)) % 2 ^ 32
  | none => 0

/-- Has the wait of an entry ended? -/
def waitMet (s : State) (e : WriteEntry) : Bool := s.wordAt e.off &&& e.mask = e.value

/-- Perform an entry that writes. -/
def applyEntry (e : WriteEntry) (s : State) : State :=
  match entryReg e.off with
  | none => s
  | some (p, r, start) =>
    let sh := 8 * (e.off - p.base - start)
    let old := s.view (p.base + start) &&& actMask r
    let m := e.mask <<< sh
    let v := (old - (old &&& m)) ||| ((e.value <<< sh) &&& m)
    s.writeReg p r start v

/-- The write entries of the running stage. -/
def stageEntries (s : State) : List WriteEntry :=
  mfWrites s.st.manifest (if s.stage = 5 then 1 else if s.stage = 6 then 2 else 3)

/-- Perform entries in order up to a wait that is not met; answers whether all are done. -/
def applyList (s : State) : List WriteEntry → Bool × State
  | [] => (true, s)
  | e :: es =>
    let next := fun (s : State) => { s with st := { s.st with applied := s.st.applied + 1 } }
    if e.flags % 2 = 1 then if s.waitMet e then applyList (next s) es else (false, s)
    else applyList (next (applyEntry e s)) es

/-- Go on with the write entries of the running stage. -/
def applyEntries (s : State) : Bool × State := s.applyList (s.stageEntries.drop s.st.applied)

/-- Does the running stage wait at an entry? -/
def entryWaits (s : State) : Bool :=
  match s.stageEntries.drop s.st.applied with
  | e :: _ => decide (e.flags % 2 = 1) && !s.waitMet e
  | [] => false

/-! ### Stage 6: map, operating points, ridge -/

/-- The fence map of the default and the repairs (R22, R35, R438). -/
def buildMap (s : State) : State :=
  let rs := mfRepairs s.st.manifest
  let map := repairMap rs
  let gone := (rs.map fun r => (fmapDefault r.l, r.pillar)).filter fun x =>
    (List.range 256).all fun i => SMap.look (fmapDefault (256 * (paddockOf x.1) + i)) map (256 * (paddockOf x.1) + i) ≠ x.1
  let fence : Fence :=
    { Fence.reset with
      map
      fallow := gone.foldl (fun m x => SMap.put false m x.1 true) []
      pfenced := gone.foldl (fun m x => SMap.put false m x.1 x.2) [] }
  let s : State := { s with fence }
  if s.fullBoot then s else s.bumpGen

/-- Command the boot operating points: every rail is awaited (R486). -/
def commandBoot (s : State) : State :=
  let s : State := { s with st := { s.st with commanded := true } }
  match s.opPoints with
  | none => s
  | some o =>
    foldEach (List.range 16) s fun p s =>
      match o.used (o.boot.getD p 0) with
      | some (mv, _) => s.commandRail p mv
      | none => s

/-- TCLK of paddock `p` locks at its boot operating point; without operating points the manual gives no frequency. -/
def lockTclk (p : Nat) (s : State) : State :=
  match s.opPoints with
  | some _ => s.bootPoint p
  | none =>
    let (f, s) := s.takeFree 16
    s.setFreq p f.toNat

/-- The clocks lock and the ridge ports that are not up train; without REFCLK_L they are absent, and LCLK does not lock (R490). -/
def lockClocks (s : State) : State :=
  let s := foldEach (List.range 16) s lockTclk
  let s := foldEach (List.range 16) s fun p s => s.setFreq (16 + p) 13500
  let s := foldEach (List.range 4) s fun k s => s.setFreq (32 + k) 10000
  let s := if s.straps.refL then s.setFreq 37 15625 else s
  foldEach (List.range 6) s fun p s =>
    if s.linkState p = 2 then s
    else s.setF (rstat p) 2 0 (if s.getF ((Page.ridge p).base + 0x40) 0 0 = 0 then 3 else b2n s.straps.refL)

/-- Stage 6. -/
def applyStage (s : State) : State :=
  let (done, s) := if s.st.commanded then (true, s) else s.applyEntries
  if !done then s
  else
    let s := if s.st.commanded then s else s.buildMap.commandBoot
    if (List.range 16).any s.railWaits then s
    else
      let s := s.lockClocks
      { s with st := { s.st with commanded := false } }.setStage 6

/-! ### Stages 7 to 11 -/

/-- Channel `c` is trained, or leaves self-refresh in a warm boot; `bad` says that a step failed three times (R319,
R320). -/
def trainChannel (s : State) (c : Nat) (bad : Bool) : State :=
  if !s.fullBoot then if (s.channel c).dead then s else s.wakeChannel c
  else
    let s := s.onChannel c fun _ => { Channel.reset with dead := bad }
    if bad then s.log (.barn c) .trainFail else s

/-- Stage 7: BARNCAL and training; a full boot zeroes barn memory. -/
def barnStage (s : State) (failed : List Nat) : State :=
  let (done, s) := s.applyEntries
  if !done then s
  else
    let s := foldEach (List.range 64) s fun c s => s.trainChannel c (failed.contains c)
    let s : State := if s.fullBoot then { s with barnData := [], barnCheck := [] } else s
    s.setStage 7

/-- Stage 9: PILLARCAL, and every field codeword is written with zeros. -/
def pillarStage (s : State) : State :=
  let (done, s) := s.applyEntries
  if !done then s else { s with fieldData := [], fieldCheck := [] }.setStage 9

/-- Stage 10: modes start as the manifest in use selects (R74), field memory is active, the dispatcher opens; a warm
boot is complete. -/
def fieldStage (s : State) : State :=
  let s := foldEach (List.range 16) s fun p s =>
    let a := (Page.paddock p).base + 0x40
    let m := s.manifestMode p
    ((s.setF a 0 0 m).setF a 8 8 m).setF a 9 9 0
  let s : State := { s with st := { s.st with fieldActive := true } }
  let s := s.setStage 10
  if s.fullBoot then s else { s.setF 0x1040 5 4 1 with st := { s.st with booting := false } }

/-- Stage 11: the walks that no override has ended begin. -/
def walkStage (s : State) : State :=
  let ended := fun (d : Nat) => (s.walk d).ended
  if [0, 1, 2].all ended then s.walksEnded
  else foldEach [0, 1, 2] s fun d s => if (s.walk d).begun ∨ (s.walk d).ended then s else s.beginWalk d

/-! ### Pins (R487, R489, R493, R495) -/

/-- PWR_OK rises. -/
def powerRise (s : State) (x : Straps) : State :=
  if s.st.powered then s
  else
    let s := s.fullReset true
    let s : State := { s with straps := x, st := { s.st with powered := true, thermtrip := false } }
    if s.st.perst0 then s else s.startBoot .full

/-- PWR_OK falls: everything but THERMTRIP# is lost. -/
def powerFall (s : State) : State :=
  if !s.st.powered then s
  else
    let s := s.fullReset true
    { s with st := { s.st with powered := false } }

/-- PERST# on H0 is asserted. -/
def perst0Rise (s : State) : State :=
  let s : State := { s with st := { s.st with perst0 := true } }
  if !s.st.powered ∨ s.st.thermtrip then s else s.fullReset false

/-- PERST# on H0 is released. -/
def perst0Fall (s : State) (x : Straps) : State :=
  if !s.st.perst0 then s
  else
    let s : State := { s with st := { s.st with perst0 := false } }
    if !s.st.powered then s
    else
      let s : State := { s with straps := x }
      if s.st.thermtrip ∨ s.st.tapStopped then s else s.startBoot .full

/-- PERST# on H1 is released: its link trains, whatever boot or test keeps the module, once stage 2 has been made. -/
def perst1Fall (s : State) : State :=
  if !s.st.perst1 then s
  else
    let s : State := { s with st := { s.st with perst1 := false } }
    if s.st.powered ∧ !s.st.perst0 ∧ !s.st.thermtrip ∧ s.st.linked then s.setReg (linkReg 1) (s.linkTrains 1) else s

end State

/-! ### Rows -/

/-- PWR_OK_RISE (R487, R493). -/
def execPwrOkRise (x : Straps) (s : State) : Res := .next (s.powerRise x)

/-- PWR_OK_FALL (R489). -/
def execPwrOkFall (s : State) : Res := .next s.powerFall

/-- PERST0_ASSERT (R458, R495): an assertion while it is asserted changes nothing. -/
def execPerst0Assert (s : State) : Res := .next (if s.st.perst0 then s else s.perst0Rise)

/-- PERST0_DEASSERT (R442, R493). -/
def execPerst0Deassert (x : Straps) (s : State) : Res := .next (s.perst0Fall x)

/-- PERST1_DEASSERT (R495). -/
def execPerst1Deassert (s : State) : Res := .next s.perst1Fall

/-- BOOT_FUSE_SENSE: stage 1 of a full boot (R7, R442), which no module makes without REFCLK_C (R490). No part has fuses that R7 and R8 shut out. -/
def execBootFuseSense (f : Fuses) (s : State) : Res :=
  .next (if s.bootAt 0 && s.fullBoot && s.straps.refC && (s.sensed || State.fusesOk f) then s.senseFuses f else s)

/-- BOOT_LINK_START: stage 2 of a full boot (R442). -/
def execBootLinkStart (s : State) : Res := .next 
  (if s.awake && s.fullBoot && decide (1 ≤ s.stage) && !s.st.linked && !s.straps.testen then s.startLinks else s)

/-- BOOT_SLOT_HEADERS: stage 3, the first of a warm boot (R435, R440, R442). -/
def execBootSlotHeaders (flash : FlashImage) (s : State) : Res :=
  .next (if (if s.fullBoot then s.bootAt 1 || s.bootAt 2 else s.bootAt 0) then { s with st := { s.st with flash } }.setStage 3 else s)

/-- BOOT_MANIFEST_READ: stage 4 (R441, R445). -/
def execBootManifestRead (s : State) : Res := .next (if s.bootAt 3 then s.readManifest else s)

/-- BOOT_MANIFEST_VERIFY: stage 5 (R437, R440). -/
def execBootManifestVerify (s : State) : Res := .next (if s.bootAt 4 then s.verifyManifest else s)

/-- BOOT_APPLY: stage 6, as far as waits and regulators let it (R438, R442, R486). -/
def execBootApply (s : State) : Res := .next (if s.bootAt 5 then s.applyStage else s)

/-- MANIFEST_WAIT_TIMEOUT: the entry at which stage 6, 7 or 9 waits has waited 10 ms (R444). -/
def execManifestWaitTimeout (s : State) : Res :=
  .next (if ((s.bootAt 5 && !s.st.commanded) || s.bootAt 6 || s.bootAt 7 || s.bootAt 8) && s.entryWaits then s.applyFail else s)

/-- BOOT_BARN_TRAIN: stage 7 (R319, R320). -/
def execBootBarnTrain (failed : List Nat) (s : State) : Res := .next (if s.bootAt 6 then s.barnStage failed else s)

/-- BOOT_BARN_ACTIVE: stage 8, which only stage 7 has to precede (R374, R442). -/
def execBootBarnActive (s : State) : Res :=
  .next
    (if s.awake && decide (7 ≤ s.stage) && !s.st.barnActive && (s.st.booting || s.getF 0x1040 5 4 = 1) then
      let s : State := { s with st := { s.st with barnActive := true } }
      if s.stage = 7 then s.setF 0x1040 3 0 8 else s
    else s)

/-- BOOT_PILLAR_CAL: stage 9 (R442). -/
def execBootPillarCal (s : State) : Res := .next (if s.bootAt 7 || s.bootAt 8 then s.pillarStage else s)

/-- BOOT_FIELD_READY: stage 10 (R74, R442). -/
def execBootFieldReady (s : State) : Res := .next (if s.bootAt 9 then s.fieldStage else s)

/-- FURROW_WALK_START: stage 11 of a full boot (R354, R355). -/
def execFurrowWalkStart (s : State) : Res := .next (if s.bootAt 10 && s.fullBoot then s.walkStage else s)

/-- WALK_TIMEOUT (R357). -/
def execWalkTimeout (s : State) : Res := .next (if s.bootAt 10 && s.fullBoot then s.walkTimeout else s)

/-- VR_SETTLE_TIMEOUT: a rail has not settled 1 ms after its command, or its regulator has failed its retries, at boot, in a sweep or
in VF_SET (R420, R455, R486). (log 82: DEDUCED) -/
def execVrSettleTimeout (p : Nat) (s : State) : Res :=
  guardUnit (isPaddock p)
    (if s.bootAt 5 && s.railWaits p then ((s.pollRail p).railDone p).applyFail else s.vrFails p)

end Sys2Proof.Machine
end

