-- ==== Sys2Proof/Machine/Spdm.lean ====
section
/-! DEFINITION. The SPDM 1.3 responder (R446, R447, R450), its I3C address (R492), and the test port (R448 to R450, R495).
The manual cites SPDM, whose message layouts (DMTF DSP0274) are presumed. -/

namespace Sys2Proof.Machine

namespace State

/-! ### Transports -/

/-- One transport's state, and changing it (R447). -/
def spdm (s : State) : Transport → Spdm
  | .doe0 => s.st.doe
  | .mctp => s.st.mctp
def onSpdm (s : State) (tr : Transport) (f : Spdm → Spdm) : State :=
  match tr with
  | .doe0 => { s with st := { s.st with doe := f s.st.doe } }
  | .mctp => { s with st := { s.st with mctp := f s.st.mctp } }

/-- Is the sideband out of reset: powered, and PERST0# not asserted, which has no effect after THERMTRIP# (R495)? -/
def sidebandUp (s : State) : Bool := s.st.powered && (!s.st.perst0 || s.st.thermtrip)

/-- Does a request on a transport reach the steward: over H0's link, or over I3C once an address is assigned? -/
def spdmReach (s : State) : Transport → Bool
  | .doe0 => s.headHears 0 && !s.st.tapStopped
  | .mctp => s.sidebandUp && !s.st.tapStopped && s.st.i3c.isSome

/-- Send a response. -/
def spdmSend (s : State) (tr : Transport) (resp : List Byte) : State := s.emit (.spdm tr resp)

/-- Send a response to a request that settles version, capabilities or algorithms; to one for digests or certificates: they extend
their part of the transcript. (log 47: PRESUMED) -/
def spdmSettle (s : State) (tr : Transport) (req resp : List Byte) : State :=
  (s.onSpdm tr fun x => { x with vca := x.vca ++ req ++ resp }).spdmSend tr resp
def spdmCert (s : State) (tr : Transport) (req resp : List Byte) : State :=
  (s.onSpdm tr fun x => { x with certs := x.certs ++ req ++ resp, meas := [] }).spdmSend tr resp

/-- The signature by the identity key over a transcript, in a context of SPDM 1.3. (log 47: PRESUMED) -/
def spdmSign (s : State) (context : String) (transcript : List Byte) : List Byte × State :=
  let c := textBytes context
  let head := (List.replicate 4 (textBytes "dmtf-spdm-v1.3.*")).flatten ++ zeros (36 - c.length) ++ c
  let (k, s) := s.takeFree 521
  (ecdsaSign ((s.st.key.map (·.toNat)).getD 0) (k.toNat % (p521N - 1) + 1) (head ++ sha512 transcript), s)

/-- A header: version 1.3, code and two parameters. -/
def spdmHead (code p1 p2 : Nat) : List Byte := [0x13, BitVec.ofNat 8 code, BitVec.ofNat 8 p1, BitVec.ofNat 8 p2]

/-- An ERROR response; it does not enter the transcript. (log 47: PRESUMED) -/
def spdmError (s : State) (tr : Transport) (code data : Nat) : State := s.emit (.spdm tr (spdmHead 0x7F code data))

/-! ### Certificate chain and measurements (R435, R446) -/

/-- The DER certificates of the flash: a 4-byte length, then that many bytes. -/
def certDer (s : State) : List Byte := (s.st.flash.cert.drop 4).take (leNat (s.st.flash.cert.take 4))

/-- The length of the first DER element of a byte string. -/
def derLen (bs : List Byte) : Nat :=
  let b := (bs.getD 1 0).toNat
  if b < 0x80 then 2 + b else 2 + (b - 0x80) + beNat ((bs.drop 2).take (b - 0x80))

/-- The chain of slot 0: length, reserved, the hash of its first certificate, the certificates. -/
def certChain (s : State) : List Byte :=
  let der := s.certDer
  leBytes 2 (68 + der.length) ++ zeros 2 ++ sha512 (der.take (derLen der)) ++ der

/-- The measurement block of index `i`: a raw measurement manifest of 64 bytes, M(i − 1). -/
def measBlock (s : State) (i : Nat) : List Byte :=
  leBytes 1 i ++ leBytes 1 1 ++ leBytes 2 67 ++ leBytes 1 0x84 ++ leBytes 2 64 ++ s.measBytes (i - 1)

/-- Every block. -/
def measBlocks (s : State) : List Byte := (List.range 8).flatMap fun i => s.measBlock (i + 1)

/-! ### Requests -/

/-- Is the debug port opened (R450)? -/
def opened (s : State) : Bool := s.getF 0x1040 8 8 = 1

/-- A request that needs the identity: refused once the port has been opened, and before the algorithms are settled.
(log 47: PRESUMED) -/
def identityRequest (s : State) (tr : Transport) (f : State → State) : State :=
  if !s.spdmReach tr then s
  else if s.opened then s.spdmError tr 0x05 0x01
  else if (s.spdm tr).phase ≠ .negotiated then s.spdmError tr 0x04 0
  else f s

/-- GET_VERSION starts the transport afresh. -/
def spdmVersion (s : State) (tr : Transport) : State :=
  if !s.spdmReach tr then s
  else
    (s.onSpdm tr fun _ => { Spdm.reset with phase := .versioned }).spdmSettle tr [0x10, 0x84, 0, 0]
      ([0x10, 0x04, 0, 0, 0, 1] ++ leBytes 2 0x1300)

/-- GET_CAPABILITIES: CERT_CAP, CHAL_CAP, MEAS_CAP with signature; CTExponent 20; transfer sizes are free. -/
def spdmCapabilities (s : State) (tr : Transport) (payload : List Byte) : State :=
  if !s.spdmReach tr then s
  else if (s.spdm tr).phase ≠ .versioned then s.spdmError tr 0x04 0
  else if payload.length ≠ 16 then s.spdmError tr 0x01 0
  else
    let (sizes, s) := s.freeBytes 8
    (s.onSpdm tr fun x => { x with phase := .capable }).spdmSettle tr (spdmHead 0xE1 0 0 ++ payload)
      (spdmHead 0x61 0 0 ++ [0, 20, 0, 0] ++ leBytes 4 0x16 ++ sizes)

/-- NEGOTIATE_ALGORITHMS: P-521, SHA-512 and the DMTF measurement specification, where the requester offers them. -/
def spdmAlgorithms (s : State) (tr : Transport) (payload : List Byte) : State :=
  if !s.spdmReach tr then s
  else if (s.spdm tr).phase ≠ .capable then s.spdmError tr 0x04 0
  else if payload.length < 28 then s.spdmError tr 0x01 0
  else
    let meas := field payload 2 1 % 2
    let asym := field payload 4 4 &&& 0x100
    let hash := field payload 8 4 &&& 0x4
    (s.onSpdm tr fun x => { x with phase := .negotiated }).spdmSettle tr (spdmHead 0xE3 0 0 ++ payload)
      (spdmHead 0x63 0 0 ++ leBytes 2 36 ++ leBytes 1 meas ++ zeros 1 ++ leBytes 4 (8 * meas) ++ leBytes 4 asym ++
        leBytes 4 hash ++ zeros 16)

/-- GET_DIGESTS: slot 0. -/
def spdmDigests (s : State) (tr : Transport) : State :=
  s.identityRequest tr fun s => s.spdmCert tr (spdmHead 0x81 0 0) (spdmHead 0x01 1 1 ++ sha512 s.certChain)

/-- GET_CERTIFICATE: a portion of the chain of slot 0. -/
def spdmCertificate (s : State) (tr : Transport) (slot off len : Nat) : State :=
  s.identityRequest tr fun s =>
    let chain := s.certChain
    if slot ≠ 0 ∨ chain.length ≤ off then s.spdmError tr 0x01 0
    else
      let part := (chain.drop off).take len
      s.spdmCert tr (spdmHead 0x82 slot 0 ++ leBytes 2 off ++ leBytes 2 len)
        (spdmHead 0x02 slot 0 ++ leBytes 2 part.length ++ leBytes 2 (chain.length - off - part.length) ++ part)

/-- CHALLENGE: signed with the identity key over the transcript, which starts afresh. The nonce and the requester's context are
free, and so is the summary of a TCB the manual does not name. Without an identity key the responder is busy. (log 47:
PRESUMED) -/
def spdmChallenge (s : State) (tr : Transport) (slot summary : Nat) (nonce : BitVec 256) : State :=
  s.identityRequest tr fun s =>
    if slot ≠ 0 ∨ (summary ≠ 0 ∧ summary ≠ 1 ∧ summary ≠ 0xFF) then s.spdmError tr 0x01 0
    else if s.st.key.isNone then s.spdmError tr 0x03 0
    else
      let (mine, s) := s.freeBytes 32
      let (tcb, s) := s.freeBytes 64
      let (ctx, s) := s.freeBytes 8
      let sum := if summary = 0 then [] else if summary = 1 then tcb else sha512 s.measBlocks
      let req := spdmHead 0x83 slot summary ++ leBytes 32 nonce.toNat
      let resp := spdmHead 0x03 0 1 ++ sha512 s.certChain ++ mine ++ sum ++ zeros 2 ++ ctx
      let x := s.spdm tr
      let (sig, s) := s.spdmSign "responder-challenge_auth signing" (x.vca ++ x.certs ++ req ++ resp)
      (s.onSpdm tr fun x => { x with certs := [], meas := [] }).spdmSend tr (resp ++ sig)

/-- GET_MEASUREMENTS: index 0 asks how many there are, 1 to 8 for one, 0xFF for all; a signature covers the measurement messages
since the last. (log 47: PRESUMED) -/
def spdmMeasurements (s : State) (tr : Transport) (signed : Bool) (index slot : Nat) (nonce : BitVec 256) : State :=
  s.identityRequest tr fun s =>
    if (8 < index ∧ index ≠ 0xFF) ∨ (signed ∧ slot ≠ 0) then s.spdmError tr 0x01 0
    else if signed ∧ s.st.key.isNone then s.spdmError tr 0x03 0
    else
      let (mine, s) := s.freeBytes 32
      let (ctx, s) := s.freeBytes 8
      let rec_ := if index = 0 then [] else if index = 0xFF then s.measBlocks else s.measBlock index
      let n := if index = 0 then 0 else if index = 0xFF then 8 else 1
      let req := spdmHead 0xE0 (b2n signed) index ++ (if signed then leBytes 32 nonce.toNat ++ leBytes 1 slot else [])
      let resp := spdmHead 0x60 (if index = 0 then 8 else 0) 0 ++ leBytes 1 n ++ leBytes 3 rec_.length ++ rec_ ++ mine ++
        zeros 2 ++ ctx
      let x := s.spdm tr
      if signed then
        let (sig, s) := s.spdmSign "responder-measurements signing" (x.vca ++ x.meas ++ req ++ resp)
        (s.onSpdm tr fun x => { x with certs := [], meas := [] }).spdmSend tr (resp ++ sig)
      else (s.onSpdm tr fun x => { x with certs := [], meas := x.meas ++ req ++ resp }).spdmSend tr resp

/-- The request codes the steward answers otherwise than by UnsupportedRequest. -/
def spdmCodes : List Nat := [0x81, 0x82, 0x83, 0x84, 0xE0, 0xE1, 0xE3]

/-- Any other request code (R446). -/
def spdmOther (s : State) (tr : Transport) (code : Nat) : State :=
  if !s.spdmReach tr ∨ spdmCodes.contains code then s else s.spdmError tr 0x07 code

/-! ### The test port (R448, R449) -/

/-- The TAP instruction in force. -/
def setTap (s : State) (i : TapIr) : State := { s with st := { s.st with tap := i } }

/-- The bits of a number, lowest first, as the TAP shifts them. -/
def bitList (n v : Nat) : List Bool := (List.range n).map fun i => bit v i

/-- A fresh nonce is shifted out; the one before is no longer valid. -/
def shiftNonce (s : State) : State :=
  let (v, s) := (s.setTap .unlockNonce).takeFree 256
  { s with st := { s.st with nonce := some v } }.emit (.tap (bitList 256 v.toNat))

/-- Is a token good: 180 bytes, and the key in the 133 bytes after it (R449)? (log 51: DEDUCED) -/
def tokenOk (s : State) (t : List Byte) : Bool :=
  let key := t.drop 180
  let nonce := match s.st.nonce with
    | some v => decide ((t.drop 8).take 32 = leBytes 32 v.toNat)
    | none => false
  t.length = 313 && t.take 8 = leBytes 8 s.fuses.serial.toNat && nonce && (t.drop 42).take 6 = zeros 6 &&
    leNat (sha512 key) = s.fuses.dkeyHash.toNat && ecdsaOk key ((t.drop 48).take 66) ((t.drop 114).take 66) (t.take 48)

/-- UNLOCK: a good token zeroises the key, disables the PUF, sets OPENED and extends M6 before its scopes open; a bad
one counts. (log 51: DEDUCED) -/
def unlockPort (s : State) (t : List Byte) : State :=
  let s := s.setTap .unlock
  if !s.awake then s
  else if s.tokenOk t then
    let s : State := { s with st := { s.st with key := none, puf := false } }
    let s := (s.setF 0x1040 8 8 1).extend 6 [0x01]
    { s with st := { s.st with scopes := s.st.scopes ||| field t 40 2 % 4 } }
  else { s with st := { s.st with nonce := none } }.addF 0x1040 31 16 1

/-- EXTEST, CLAMP and HIGHZ stop the module as a warm reset does, until the TAP is reset. -/
def tapStop (s : State) (i : TapIr) : State :=
  let s := s.setTap i
  let s := if s.awake then s.warmStart else s
  { s with st := { s.st with booting := false, tapStopped := true } }

/-- The TAP is reset: a module that it stopped boots. -/
def tapReset (s : State) : State :=
  let s : State := { s.setTap .idcode with st := { s.st with tap := .idcode, bypassBit := false } }
  if !s.st.tapStopped then s
  else
    let s : State := { s with st := { s.st with tapStopped := false } }
    if s.awake then s.startBoot s.st.boot else s

end State

/-- A row of the test port: it has power. -/
def tapRow (s : State) (f : State → State) : Res := .next (if s.st.powered then f s else s)

/-! ### Rows: SPDM and I3C -/

/-- GET_VERSION (R446). -/
def execGetVersion (tr : Transport) (s : State) : Res := .next (s.spdmVersion tr)

/-- GET_CAPABILITIES (R446). -/
def execGetCapabilities (tr : Transport) (payload : List Byte) (s : State) : Res := .next (s.spdmCapabilities tr payload)

/-- NEGOTIATE_ALGORITHMS (R446). -/
def execNegotiateAlgorithms (tr : Transport) (payload : List Byte) (s : State) : Res := .next (s.spdmAlgorithms tr payload)

/-- GET_DIGESTS (R446, R450). -/
def execGetDigests (tr : Transport) (s : State) : Res := .next (s.spdmDigests tr)

/-- GET_CERTIFICATE (R446, R450). -/
def execGetCertificate (tr : Transport) (slot : BitVec 4) (offset length : BitVec 16) (s : State) : Res :=
  .next (s.spdmCertificate tr slot.toNat offset.toNat length.toNat)

/-- CHALLENGE (R446, R450). -/
def execChallenge (tr : Transport) (slot : BitVec 4) (summary : BitVec 8) (nonce : BitVec 256) (s : State) : Res :=
  .next (s.spdmChallenge tr slot.toNat summary.toNat nonce)

/-- GET_MEASUREMENTS (R446, R450). -/
def execGetMeasurements (tr : Transport) (signed : Bool) (index : BitVec 8) (slot : BitVec 4) (nonce : BitVec 256)
    (s : State) : Res := .next (s.spdmMeasurements tr signed index.toNat slot.toNat nonce)

/-- SPDM_UNSUPPORTED (R446). -/
def execSpdmUnsupported (tr : Transport) (code : BitVec 8) (s : State) : Res := .next (s.spdmOther tr code.toNat)

/-- DYNAMIC_ADDRESS_ASSIGNMENT: ENTDAA gives the I3C target an address, and so does a SETDASA to the static address that its straps
select, 0x30 + I3C_SA, while it has none. (log 52: DEDUCED) -/
def execDynamicAddressAssignment (a : BitVec 7) (how : I3cAssign) (s : State) : Res :=
  let meant : Bool := match how with
    | .entdaa => true
    | .setdasa addr => decide (addr.toNat = 0x30 + s.straps.i3cSa.toNat) && s.st.i3c.isNone
  .next (if s.sidebandUp && meant then { s with st := { s.st with i3c := some a } } else s)

/-! ### Rows: the test port -/

/-- UNLOCK_NONCE (R449). -/
def execUnlockNonce (s : State) : Res := tapRow s State.shiftNonce

/-- UNLOCK (R449). -/
def execUnlock (token : List Byte) (s : State) : Res := tapRow s fun s => s.unlockPort token

/-- EXTEST (R448). -/
def execExtest (s : State) : Res := tapRow s fun s => s.tapStop .extest

/-- CLAMP (R448). -/
def execClamp (s : State) : Res := tapRow s fun s => s.tapStop .clamp

/-- HIGHZ (R448). -/
def execHighz (s : State) : Res := tapRow s fun s => s.tapStop .highz

/-- BYPASS: one bit, zero when it is first selected (R448). -/
def execBypass (tdi : Bool) (s : State) : Res :=
  tapRow s fun s =>
    let out := decide (s.st.tap = .bypass) && s.st.bypassBit
    { s with st := { s.st with tap := .bypass, bypassBit := tdi } }.emit (.tap [out])

/-- IDCODE (R448). (log 50: DESIGN CHOICE) -/
def execIdcode (s : State) : Res :=
  tapRow s fun s => (s.setTap .idcode).emit (.tap (State.bitList 32 Config.idcode.toNat))

/-- SAMPLE/PRELOAD: what the balls show is not the block's to say (R448). -/
def execSamplePreload (preload : List Bool) (s : State) : Res :=
  tapRow s fun s =>
    let (v, s) := (s.setTap .samplePreload).takeFree preload.length
    { s with st := { s.st with boundary := preload } }.emit (.tap (State.bitList preload.length v.toNat))

/-- TAP_RESET (R448, R495). -/
def execTapReset (_trst : Bool) (s : State) : Res := tapRow s State.tapReset

end Sys2Proof.Machine
end

