-- ==== Sys2Proof/Machine/Dispatch.lean ====
section
/-! DEFINITION. The meaning of every command: one arm for each constructor of `Instr`. -/

namespace Sys2Proof.Machine

/-- The effect of a command on everything but the queue of waiting commands. -/
def exec (i : Instr) (s : State) : Host.Outcome State Fault Refusal :=
  match i with
  -- Yilac arithmetic (R99)
  | .add t rd ra rb => Sys2Proof.Machine.execAdd t rd ra rb s
  | .sub t rd ra rb => Sys2Proof.Machine.execSub t rd ra rb s
  | .andR t rd ra rb => Sys2Proof.Machine.execAndR t rd ra rb s
  | .orR t rd ra rb => Sys2Proof.Machine.execOrR t rd ra rb s
  | .xorR t rd ra rb => Sys2Proof.Machine.execXorR t rd ra rb s
  | .sll t rd ra rb => Sys2Proof.Machine.execSll t rd ra rb s
  | .srl t rd ra rb => Sys2Proof.Machine.execSrl t rd ra rb s
  | .sra t rd ra rb => Sys2Proof.Machine.execSra t rd ra rb s
  | .slt t rd ra rb => Sys2Proof.Machine.execSlt t rd ra rb s
  | .sltu t rd ra rb => Sys2Proof.Machine.execSltu t rd ra rb s
  | .min t rd ra rb => Sys2Proof.Machine.execMin t rd ra rb s
  | .max t rd ra rb => Sys2Proof.Machine.execMax t rd ra rb s
  | .minu t rd ra rb => Sys2Proof.Machine.execMinu t rd ra rb s
  | .maxu t rd ra rb => Sys2Proof.Machine.execMaxu t rd ra rb s
  | .mul t rd ra rb => Sys2Proof.Machine.execMul t rd ra rb s
  | .mulh t rd ra rb => Sys2Proof.Machine.execMulh t rd ra rb s
  | .mulhu t rd ra rb => Sys2Proof.Machine.execMulhu t rd ra rb s
  | .clz t rd ra => Sys2Proof.Machine.execClz t rd ra s
  | .popc t rd ra => Sys2Proof.Machine.execPopc t rd ra s
  | .addi t rd ra imm => Sys2Proof.Machine.execAddi t rd ra imm s
  | .andi t rd ra imm => Sys2Proof.Machine.execAndi t rd ra imm s
  | .ori t rd ra imm => Sys2Proof.Machine.execOri t rd ra imm s
  | .xori t rd ra imm => Sys2Proof.Machine.execXori t rd ra imm s
  | .slti t rd ra imm => Sys2Proof.Machine.execSlti t rd ra imm s
  | .sltiu t rd ra imm => Sys2Proof.Machine.execSltiu t rd ra imm s
  | .slli t rd ra sh => Sys2Proof.Machine.execSlli t rd ra sh s
  | .srli t rd ra sh => Sys2Proof.Machine.execSrli t rd ra sh s
  | .srai t rd ra sh => Sys2Proof.Machine.execSrai t rd ra sh s
  | .lui t rd imm => Sys2Proof.Machine.execLui t rd imm s
  -- Yilac loads and stores (R96, R97)
  | .ldw t rd ra imm bad => Sys2Proof.Machine.execLdw t rd ra imm bad s
  | .ldh t rd ra imm bad => Sys2Proof.Machine.execLdh t rd ra imm bad s
  | .ldhu t rd ra imm bad => Sys2Proof.Machine.execLdhu t rd ra imm bad s
  | .ldb t rd ra imm bad => Sys2Proof.Machine.execLdb t rd ra imm bad s
  | .ldbu t rd ra imm bad => Sys2Proof.Machine.execLdbu t rd ra imm bad s
  | .stw t rb ra off => Sys2Proof.Machine.execStw t rb ra off s
  | .sth t rb ra off bad => Sys2Proof.Machine.execSth t rb ra off bad s
  | .stb t rb ra off bad => Sys2Proof.Machine.execStb t rb ra off bad s
  -- Yilac control flow (R100, R103)
  | .beq t ra rb off => Sys2Proof.Machine.execBeq t ra rb off s
  | .bne t ra rb off => Sys2Proof.Machine.execBne t ra rb off s
  | .blt t ra rb off => Sys2Proof.Machine.execBlt t ra rb off s
  | .bge t ra rb off => Sys2Proof.Machine.execBge t ra rb off s
  | .bltu t ra rb off => Sys2Proof.Machine.execBltu t ra rb off s
  | .bgeu t ra rb off => Sys2Proof.Machine.execBgeu t ra rb off s
  | .j t off => Sys2Proof.Machine.execJ t off s
  | .jal t off => Sys2Proof.Machine.execJal t off s
  | .jalr t rd ra => Sys2Proof.Machine.execJalr t rd ra s
  | .loop t k m cnt body => Sys2Proof.Machine.execLoop t k m cnt body s
  -- Yilac tile state, engine issue and system (R101, R109, R127)
  | .mfts t rd num => Sys2Proof.Machine.execMfts t rd num s
  | .mtts t ra num => Sys2Proof.Machine.execMtts t ra num s
  | .enq t q ra tag bad => Sys2Proof.Machine.execEnq t q ra tag bad s
  | .enqStallEnd t => Sys2Proof.Machine.execEnqStallEnd t s
  | .waitq t mask => Sys2Proof.Machine.execWaitq t mask s
  | .waitqSatisfied t => Sys2Proof.Machine.execWaitqSatisfied t s
  | .commit t => Sys2Proof.Machine.execCommit t s
  | .halt t => Sys2Proof.Machine.execHalt t s
  | .faultI t imm => Sys2Proof.Machine.execFaultI t imm s
  | .trace t imm => Sys2Proof.Machine.execTrace t imm s
  | .illegalInstr t bad => Sys2Proof.Machine.execIllegalInstr t bad s
  -- Engine queues (R113, R114)
  | .entryStart t q => Sys2Proof.Machine.execEntryStart t q s
  | .entryComplete t q => Sys2Proof.Machine.execEntryComplete t q s
  | .pillarStreamRead t env => Sys2Proof.Machine.execPillarStreamRead t env s
  | .streamMm t env => Sys2Proof.Machine.execStreamMm t env s
  | .blockMm t env => Sys2Proof.Machine.execBlockMm t env s
  | .ew t env => Sys2Proof.Machine.execEw t env s
  | .scan t env => Sys2Proof.Machine.execScan t env s
  | .reduce t env => Sys2Proof.Machine.execReduce t env s
  | .convert t env => Sys2Proof.Machine.execConvert t env s
  | .attn t env => Sys2Proof.Machine.execAttn t env s
  | .smMerge t env => Sys2Proof.Machine.execSmMerge t env s
  | .smFinal t env => Sys2Proof.Machine.execSmFinal t env s
  | .copy t env => Sys2Proof.Machine.execCopy t env s
  | .permute t env => Sys2Proof.Machine.execPermute t env s
  | .gather t env => Sys2Proof.Machine.execGather t env s
  | .scatter t env => Sys2Proof.Machine.execScatter t env s
  -- Sync queue (R276)
  | .arrive t => Sys2Proof.Machine.execArrive t s
  | .waitTally t => Sys2Proof.Machine.execWaitTally t s
  | .flagAdd t => Sys2Proof.Machine.execFlagAdd t s
  | .flagWait t => Sys2Proof.Machine.execFlagWait t s
  | .syncTimeout t => Sys2Proof.Machine.execSyncTimeout t s
  -- Commit gate and staging (R39, R252 to R255)
  | .gateRelease t => Sys2Proof.Machine.execGateRelease t s
  | .gateAbort t => Sys2Proof.Machine.execGateAbort t s
  | .remoteWriteStage t src => Sys2Proof.Machine.execRemoteWriteStage t src s
  | .stageRoomFree t => Sys2Proof.Machine.execStageRoomFree t s
  | .stageFull t src => Sys2Proof.Machine.execStageFull t src s
  | .stageCommit t src env => Sys2Proof.Machine.execStageCommit t src env s
  | .stageAbort t src => Sys2Proof.Machine.execStageAbort t src s
  | .stageAck t src => Sys2Proof.Machine.execStageAck t src s
  -- Dispatch (R137 to R175)
  | .doorbellWrite h q v => Sys2Proof.Machine.execDoorbellWrite h q v s
  | .cqHeadWrite h q v => Sys2Proof.Machine.execCqHeadWrite h q v s
  | .queueEnable h q v => Sys2Proof.Machine.execQueueEnable h q v s
  | .queueDisable h q v => Sys2Proof.Machine.execQueueDisable h q v s
  | .queueReset h q v => Sys2Proof.Machine.execQueueReset h q v s
  | .sheafTake q env => Sys2Proof.Machine.execSheafTake q env s
  | .sheafComplete g env => Sys2Proof.Machine.execSheafComplete g env s
  | .gangReset h v => Sys2Proof.Machine.execGangReset h v s
  | .flogEnable h v => Sys2Proof.Machine.execFlogEnable h v s
  | .traceRecord => Sys2Proof.Machine.execTraceRecord s
  | .traceEnable h v => Sys2Proof.Machine.execTraceEnable h v s
  | .traceRestart h v => Sys2Proof.Machine.execTraceRestart h v s
  | .tileReset h t v => Sys2Proof.Machine.execTileReset h t v s
  -- Paddock modes, pillars, refresh and gleaner (R68 to R89)
  | .modeSelect h p v => Sys2Proof.Machine.execModeSelect h p v s
  | .modeSwitchDone p => Sys2Proof.Machine.execModeSwitchDone p s
  | .slotAdmit t => Sys2Proof.Machine.execSlotAdmit t s
  | .pillarAccessDone t env => Sys2Proof.Machine.execPillarAccessDone t env s
  | .refreshDue t b => Sys2Proof.Machine.execRefreshDue t b s
  | .forcedRefresh t b => Sys2Proof.Machine.execForcedRefresh t b s
  | .gleanVisit t env => Sys2Proof.Machine.execGleanVisit t env s
  | .gleanEscalate t => Sys2Proof.Machine.execGleanEscalate t s
  | .beatCounterWrap t => Sys2Proof.Machine.execBeatCounterWrap t s
  | .cycleCounterWrap t => Sys2Proof.Machine.execCycleCounterWrap t s
  | .tempSample r => Sys2Proof.Machine.execTempSample r s
  -- CXL.mem and host ports (R372 to R385)
  | .memRd h tag a => Sys2Proof.Machine.execMemRd h tag a s
  | .memRdData h tag a => Sys2Proof.Machine.execMemRdData h tag a s
  | .memSpecRd h tag a => Sys2Proof.Machine.execMemSpecRd h tag a s
  | .memInv h tag a => Sys2Proof.Machine.execMemInv h tag a s
  | .memInvNt h tag a => Sys2Proof.Machine.execMemInvNt h tag a s
  | .memClnEvct h tag a => Sys2Proof.Machine.execMemClnEvct h tag a s
  | .memWr h tag a data poison bad => Sys2Proof.Machine.execMemWr h tag a data poison bad s
  | .memWrPtl h tag a data be poison bad => Sys2Proof.Machine.execMemWrPtl h tag a data be poison bad s
  | .cxlProto h tag opcode => Sys2Proof.Machine.execCxlProto h tag opcode s
  | .hostMemResponse h => Sys2Proof.Machine.execHostMemResponse h s
  | .hostRequestAge c lane idx => Sys2Proof.Machine.execHostRequestAge c lane idx s
  | .hdmCommit h d r => Sys2Proof.Machine.execHdmCommit h d r s
  | .hostLinkUp h rate width flit256 => Sys2Proof.Machine.execHostLinkUp h rate width flit256 s
  | .hostPortReset h why => Sys2Proof.Machine.execHostPortReset h why s
  | .flr h => Sys2Proof.Machine.execFlr h s
  | .msixUnmask h n v => Sys2Proof.Machine.execMsixUnmask h n v s
  -- Mailbox commands (R389)
  | .getEventRecords h log => Sys2Proof.Machine.execGetEventRecords h log s
  | .clearEventRecords h log all handles => Sys2Proof.Machine.execClearEventRecords h log all handles s
  | .getEventInterruptPolicy h => Sys2Proof.Machine.execGetEventInterruptPolicy h s
  | .setEventInterruptPolicy h policy => Sys2Proof.Machine.execSetEventInterruptPolicy h policy s
  | .getSupportedLogs h => Sys2Proof.Machine.execGetSupportedLogs h s
  | .getLog h uuid offset length => Sys2Proof.Machine.execGetLog h uuid offset length s
  | .identifyMemoryDevice h => Sys2Proof.Machine.execIdentifyMemoryDevice h s
  | .getPartitionInfo h => Sys2Proof.Machine.execGetPartitionInfo h s
  | .getHealthInfo h => Sys2Proof.Machine.execGetHealthInfo h s
  | .getAlertConfiguration h => Sys2Proof.Machine.execGetAlertConfiguration h s
  | .setAlertConfiguration h cfg => Sys2Proof.Machine.execSetAlertConfiguration h cfg s
  | .injectPoison h dpa env => Sys2Proof.Machine.execInjectPoison h dpa env s
  | .clearPoison h dpa data => Sys2Proof.Machine.execClearPoison h dpa data s
  | .mailboxUnsupported h opcode => Sys2Proof.Machine.execMailboxUnsupported h opcode s
  -- DOE, CDAT and SPDM (R391, R392, R446)
  | .doeDiscovery h index => Sys2Proof.Machine.execDoeDiscovery h index s
  | .tableAccess h entry => Sys2Proof.Machine.execTableAccess h entry s
  | .getVersion tr => Sys2Proof.Machine.execGetVersion tr s
  | .getCapabilities tr payload => Sys2Proof.Machine.execGetCapabilities tr payload s
  | .negotiateAlgorithms tr payload => Sys2Proof.Machine.execNegotiateAlgorithms tr payload s
  | .getDigests tr => Sys2Proof.Machine.execGetDigests tr s
  | .getCertificate tr slot offset length => Sys2Proof.Machine.execGetCertificate tr slot offset length s
  | .challenge tr slot summary nonce => Sys2Proof.Machine.execChallenge tr slot summary nonce s
  | .getMeasurements tr signed index slot nonce => Sys2Proof.Machine.execGetMeasurements tr signed index slot nonce s
  | .spdmUnsupported tr code => Sys2Proof.Machine.execSpdmUnsupported tr code s
  -- Tallies and flags (R268 to R291)
  | .tallyBind h p n v => Sys2Proof.Machine.execTallyBind h p n v s
  | .tallyUnbind h p n v => Sys2Proof.Machine.execTallyUnbind h p n v s
  | .crewTallyBind h n v => Sys2Proof.Machine.execCrewTallyBind h n v s
  | .tallyArrival p id => Sys2Proof.Machine.execTallyArrival p id s
  | .tallyRelease p id => Sys2Proof.Machine.execTallyRelease p id s
  | .tallyWithdrawal p id => Sys2Proof.Machine.execTallyWithdrawal p id s
  | .flagUpdate f => Sys2Proof.Machine.execFlagUpdate f s
  | .flagWrite h f v => Sys2Proof.Machine.execFlagWrite h f v s
  | .flagOwnerWrite h f v => Sys2Proof.Machine.execFlagOwnerWrite h f v s
  -- Tithe, granary, fences and sweeps (R396 to R433)
  | .titheGrant t => Sys2Proof.Machine.execTitheGrant t s
  | .holdSend t => Sys2Proof.Machine.execHoldSend t s
  | .titheRunStart t run => Sys2Proof.Machine.execTitheRunStart t run s
  | .titheRunEnd t run sig env => Sys2Proof.Machine.execTitheRunEnd t run sig env s
  | .refereeGrant t => Sys2Proof.Machine.execRefereeGrant t s
  | .stepReplay t repeatSig env => Sys2Proof.Machine.execStepReplay t repeatSig env s
  | .titheStall t => Sys2Proof.Machine.execTitheStall t s
  | .granarySnapshotRequest h v => Sys2Proof.Machine.execGranarySnapshotRequest h v s
  | .restore h v env => Sys2Proof.Machine.execRestore h v env s
  | .cperEnable h v => Sys2Proof.Machine.execCperEnable h v s
  | .fenceRequest h v => Sys2Proof.Machine.execFenceRequest h v s
  | .fenceRemap env => Sys2Proof.Machine.execFenceRemap env s
  | .sweepStart why now => Sys2Proof.Machine.execSweepStart why now s
  | .sweepRequest h v => Sys2Proof.Machine.execSweepRequest h v s
  | .sweepDone marginal => Sys2Proof.Machine.execSweepDone marginal s
  -- Barn controllers (R302 to R321)
  | .barnRequestAccept c env => Sys2Proof.Machine.execBarnRequestAccept c env s
  | .barnReadDone c b env => Sys2Proof.Machine.execBarnReadDone c b env s
  | .barnMergeReadDone c idx env => Sys2Proof.Machine.execBarnMergeReadDone c idx env s
  | .barnWriteDrain c env => Sys2Proof.Machine.execBarnWriteDrain c env s
  | .barnRefreshDue c b => Sys2Proof.Machine.execBarnRefreshDue c b s
  | .barnForcedRefresh c b => Sys2Proof.Machine.execBarnForcedRefresh c b s
  | .selfRefreshEntry c => Sys2Proof.Machine.execSelfRefreshEntry c s
  | .selfRefreshExit c => Sys2Proof.Machine.execSelfRefreshExit c s
  | .barnScrub c env => Sys2Proof.Machine.execBarnScrub c env s
  | .corrWindowEnd c => Sys2Proof.Machine.execCorrWindowEnd c s
  | .bankhashWrite h c idx v => Sys2Proof.Machine.execBankhashWrite h c idx v s
  -- Live changes, clocks and resets (R453 to R459, R476)
  | .paddockRecal => Sys2Proof.Machine.execPaddockRecal s
  | .tileSwap env => Sys2Proof.Machine.execTileSwap env s
  | .barnRetrain c ok1 ok2 => Sys2Proof.Machine.execBarnRetrain c ok1 ok2 s
  | .ridgeRetrain p ok => Sys2Proof.Machine.execRidgeRetrain p ok s
  | .manifestStage env same => Sys2Proof.Machine.execManifestStage env same s
  | .vfSet => Sys2Proof.Machine.execVfSet s
  | .upkeepInvalidOp h v => Sys2Proof.Machine.execUpkeepInvalidOp h v s
  | .upkeepBusy h v => Sys2Proof.Machine.execUpkeepBusy h v s
  | .upkeepDone => Sys2Proof.Machine.execUpkeepDone s
  | .upkeepQuiesceTimeout => Sys2Proof.Machine.execUpkeepQuiesceTimeout s
  | .vrSettleTimeout p => Sys2Proof.Machine.execVrSettleTimeout p s
  | .vrSettled p => Sys2Proof.Machine.execVrSettled p s
  | .pllUnlock k => Sys2Proof.Machine.execPllUnlock k s
  | .pllRelock k => Sys2Proof.Machine.execPllRelock k s
  | .pllRelockTimeout k => Sys2Proof.Machine.execPllRelockTimeout k s
  | .warmReset h v => Sys2Proof.Machine.execWarmReset h v s
  | .paddockReset h v => Sys2Proof.Machine.execPaddockReset h v s
  | .resetBusy h v => Sys2Proof.Machine.execResetBusy h v s
  -- Power, reset pins and boot stages (R442 to R444, R487 to R495)
  | .pwrOkRise straps => Sys2Proof.Machine.execPwrOkRise straps s
  | .pwrOkFall => Sys2Proof.Machine.execPwrOkFall s
  | .perst0Assert => Sys2Proof.Machine.execPerst0Assert s
  | .perst0Deassert straps => Sys2Proof.Machine.execPerst0Deassert straps s
  | .bootFuseSense fuses => Sys2Proof.Machine.execBootFuseSense fuses s
  | .bootLinkStart => Sys2Proof.Machine.execBootLinkStart s
  | .bootSlotHeaders flash => Sys2Proof.Machine.execBootSlotHeaders flash s
  | .bootManifestRead => Sys2Proof.Machine.execBootManifestRead s
  | .bootManifestVerify => Sys2Proof.Machine.execBootManifestVerify s
  | .bootApply => Sys2Proof.Machine.execBootApply s
  | .manifestWaitTimeout => Sys2Proof.Machine.execManifestWaitTimeout s
  | .bootBarnTrain failed => Sys2Proof.Machine.execBootBarnTrain failed s
  | .bootBarnActive => Sys2Proof.Machine.execBootBarnActive s
  | .bootPillarCal => Sys2Proof.Machine.execBootPillarCal s
  | .bootFieldReady => Sys2Proof.Machine.execBootFieldReady s
  | .furrowWalkStart => Sys2Proof.Machine.execFurrowWalkStart s
  | .walkTimeout => Sys2Proof.Machine.execWalkTimeout s
  -- TAP (R448, R449)
  | .unlockNonce => Sys2Proof.Machine.execUnlockNonce s
  | .unlock token => Sys2Proof.Machine.execUnlock token s
  | .extest => Sys2Proof.Machine.execExtest s
  | .clamp => Sys2Proof.Machine.execClamp s
  | .highz => Sys2Proof.Machine.execHighz s
  | .bypass tdi => Sys2Proof.Machine.execBypass tdi s
  | .idcode => Sys2Proof.Machine.execIdcode s
  | .samplePreload preload => Sys2Proof.Machine.execSamplePreload preload s
  | .tapReset trst => Sys2Proof.Machine.execTapReset trst s
  -- Ridge links (R325 to R337)
  | .ridgeLinkUp p => Sys2Proof.Machine.execRidgeLinkUp p s
  | .dataFlitReceive p flit fecOk => Sys2Proof.Machine.execDataFlitReceive p flit fecOk s
  | .nakReceive p ackseq => Sys2Proof.Machine.execNakReceive p ackseq s
  | .ackReceive p ackseq => Sys2Proof.Machine.execAckReceive p ackseq s
  | .creditReturn p vc cells => Sys2Proof.Machine.execCreditReturn p vc cells s
  | .idleFlitTimer p => Sys2Proof.Machine.execIdleFlitTimer p s
  | .ackTimer p => Sys2Proof.Machine.execAckTimer p s
  | .nakRepeat p => Sys2Proof.Machine.execNakRepeat p s
  | .linkDown p => Sys2Proof.Machine.execLinkDown p s
  | .rxseqTimeout p => Sys2Proof.Machine.execRxseqTimeout p s
  -- Ridge packets (R338 to R365)
  | .rwr p vc => Sys2Proof.Machine.execRwr p vc s
  | .rrd p vc => Sys2Proof.Machine.execRrd p vc s
  | .rrsp p vc => Sys2Proof.Machine.execRrsp p vc s
  | .wack p vc => Sys2Proof.Machine.execWack p vc s
  | .ridgeCommit p vc => Sys2Proof.Machine.execRidgeCommit p vc s
  | .ridgeAbort p vc => Sys2Proof.Machine.execRidgeAbort p vc s
  | .cack p vc => Sys2Proof.Machine.execCack p vc s
  | .tarrive p vc => Sys2Proof.Machine.execTarrive p vc s
  | .trelease p vc => Sys2Proof.Machine.execTrelease p vc s
  | .twithdraw p vc => Sys2Proof.Machine.execTwithdraw p vc s
  | .tlost p vc => Sys2Proof.Machine.execTlost p vc s
  | .flagadd p vc => Sys2Proof.Machine.execFlagadd p vc s
  | .lhello p vc => Sys2Proof.Machine.execLhello p vc s
  | .furrow p vc => Sys2Proof.Machine.execFurrow p vc s
  | .furrowend p vc => Sys2Proof.Machine.execFurrowend p vc s
  | .ringinfo p vc => Sys2Proof.Machine.execRinginfo p vc s
  | .linkdownPkt p vc => Sys2Proof.Machine.execLinkdownPkt p vc s
  | .sealPkt p vc => Sys2Proof.Machine.execSealPkt p vc s
  | .packetBad p vc => Sys2Proof.Machine.execPacketBad p vc s
  | .ridgeTimeout t q => Sys2Proof.Machine.execRidgeTimeout t q s
  | .ridgeOverride h v => Sys2Proof.Machine.execRidgeOverride h v s
  | .stagePurge h v => Sys2Proof.Machine.execStagePurge h v s
  | .ridgePortDisable h p v => Sys2Proof.Machine.execRidgePortDisable h p v s
  -- Register pages (R461 to R469)
  | .quiesceRequest h a v => Sys2Proof.Machine.execQuiesceRequest h a v s
  | .errClear h a v => Sys2Proof.Machine.execErrClear h a v s
  | .errInject h a v => Sys2Proof.Machine.execErrInject h a v s
  | .counterClear h a w v => Sys2Proof.Machine.execCounterClear h a w v s
  | .unmapped h a write => Sys2Proof.Machine.execUnmapped h a write s
  | .accessWidth h a w write => Sys2Proof.Machine.execAccessWidth h a w write s
  | .registerWrite h a w v => Sys2Proof.Machine.execRegisterWrite h a w v s
  | .ridgePortEnable h p v => Sys2Proof.Machine.execRidgePortEnable h p v s
  | .perst1Deassert => Sys2Proof.Machine.execPerst1Deassert s
  | .sweepQuiesceTimeout => Sys2Proof.Machine.execSweepQuiesceTimeout s
  | .dynamicAddressAssignment a setdasa => Sys2Proof.Machine.execDynamicAddressAssignment a setdasa s

end Sys2Proof.Machine
end

