-- ==== Sys2Proof/Safety.lean ====
section
/-! DEFINITION. The words of the claims: when a command completes, the canonical form of the memories, what one retired
instruction leaves unchanged, and the tables of the Yilac rows, written from R96 to R100. -/

namespace Sys2Proof

open Machine

/-- A command completes in a state: it answers a next state, neither a fault nor a refusal. -/
def Completes (i : Instr) (s : State) : Prop := ∃ s', exec i s = .next s'

/-- The four memories are in canonical form (R57, R296): keys rise and no entry is the byte zero. -/
def MemoriesCanonical (s : State) : Prop :=
  Memory.wf s.fieldData = true ∧ Memory.wf s.fieldCheck = true ∧ Memory.wf s.barnData = true ∧
    Memory.wf s.barnCheck = true

/-! ### Yilac -/

/-- Tile `t` acts for itself, in a clock domain that runs: it makes no run in check mode of another's step, or of a step of its own
that is over, and this is no view of such a run (R405, R476). -/
structure Plain (s : State) (t : Nat) : Prop where
  tile : t < 4352
  own : s.runAt t = none
  noView : s.inRun t = false
  clock : s.pllLost (paddockOf t) = false

/-- The core of tile `t` is running and the word at its PC is that of `i` (R95, R99). -/
def Ready (s : State) (t : Nat) (i : Instr) : Prop :=
  Plain s t ∧ (s.tile t).core = .running ∧ encodeYilac i = some (s.fetched t)

/-- Where execution goes on when the instruction at PC retires: back to a body's first instruction, or the next one
(R100, R105, R107). -/
def nextPc (x : Tile) : Nat := (loopAct x.pc x.loops).1.getD (x.pc + 4)

/-- The counter of retired instructions of a tile (R130). -/
def retiredReg (t : Nat) : Nat := (Page.tile t).base + 0x48

/-- From `s` to `s'`, tile `t` retires one instruction that has made its tile `x`: PC and the loop units go on, the
retired counter counts, and nothing else of the block changes. -/
structure Retires (s s' : State) (t : Nat) (x : Tile) : Prop where
  tile : s'.tile t = { x with pc := nextPc (s.tile t), loops := (loopAct (s.tile t).pc (s.tile t).loops).2 }
  otherTiles : ∀ u, u ≠ t → s'.tile u = s.tile u
  counted : s'.reg (retiredReg t) = min (2 ^ 64 - 1) (s.reg (retiredReg t) + 1)
  otherRegs : ∀ a, a ≠ retiredReg t → s'.reg a = s.reg a
  rest : { s' with tiles := s.tiles, regs := s.regs } = s

/-- The register-register rows of R99, each with its result. -/
def regRows : List ((Nat → BitVec 5 → BitVec 5 → BitVec 5 → Instr) × (Word → Word → Word)) :=
  [ (.add, fun a b => BitVec.ofNat 32 (a.toNat + b.toNat)),
    (.sub, fun a b => BitVec.ofInt 32 ((a.toNat : Int) - b.toNat)),
    (.andR, fun a b => a &&& b),
    (.orR, fun a b => a ||| b),
    (.xorR, fun a b => a ^^^ b),
    (.sll, fun a b => BitVec.ofNat 32 (a.toNat * 2 ^ (b.toNat % 32))),
    (.srl, fun a b => BitVec.ofNat 32 (a.toNat / 2 ^ (b.toNat % 32))),
    (.sra, fun a b => BitVec.ofInt 32 (a.toInt / 2 ^ (b.toNat % 32))),
    (.slt, fun a b => if a.toInt < b.toInt then 1 else 0),
    (.sltu, fun a b => if a.toNat < b.toNat then 1 else 0),
    (.min, fun a b => if a.toInt ≤ b.toInt then a else b),
    (.max, fun a b => if a.toInt ≤ b.toInt then b else a),
    (.minu, fun a b => if a.toNat ≤ b.toNat then a else b),
    (.maxu, fun a b => if a.toNat ≤ b.toNat then b else a),
    (.mul, fun a b => BitVec.ofNat 32 (a.toNat * b.toNat)),
    (.mulh, fun a b => BitVec.ofInt 32 (a.toInt * b.toInt / 2 ^ 32)),
    (.mulhu, fun a b => BitVec.ofNat 32 (a.toNat * b.toNat / 2 ^ 32)),
    (fun t rd ra _ => .clz t rd ra,
      fun a _ => BitVec.ofNat 32 ((List.range 32).reverse.takeWhile fun i => !a.getLsbD i).length),
    (fun t rd ra _ => .popc t rd ra, fun a _ => BitVec.ofNat 32 ((List.range 32).filter fun i => a.getLsbD i).length) ]

/-- The rows of R99 with a 16-bit immediate, sign-extended where R99 marks it s and zero-extended where it marks it z. -/
def immRows : List ((Nat → BitVec 5 → BitVec 5 → BitVec 16 → Instr) × (Word → BitVec 16 → Word)) :=
  [ (.addi, fun a i => BitVec.ofInt 32 (a.toNat + i.toInt)),
    (.andi, fun a i => a &&& BitVec.ofNat 32 i.toNat),
    (.ori, fun a i => a ||| BitVec.ofNat 32 i.toNat),
    (.xori, fun a i => a ^^^ BitVec.ofNat 32 i.toNat),
    (.slti, fun a i => if a.toInt < i.toInt then 1 else 0),
    (.sltiu, fun a i => if a.toNat < i.toNat then 1 else 0),
    (fun t rd _ i => .lui t rd i, fun _ i => BitVec.ofNat 32 (i.toNat * 2 ^ 16)) ]

/-- The shifts by an immediate (R99). -/
def shiftRows : List ((Nat → BitVec 5 → BitVec 5 → BitVec 5 → Instr) × (Word → Nat → Word)) :=
  [ (.slli, fun a n => BitVec.ofNat 32 (a.toNat * 2 ^ n)),
    (.srli, fun a n => BitVec.ofNat 32 (a.toNat / 2 ^ n)),
    (.srai, fun a n => BitVec.ofInt 32 (a.toInt / 2 ^ n)) ]

/-- The loads of R96 and R99: bytes read and the word made of their little-endian value. -/
def loadRows : List ((Nat → BitVec 5 → BitVec 5 → BitVec 16 → Bool → Instr) × Nat × (Nat → Word)) :=
  [ (.ldw, 4, fun v => BitVec.ofNat 32 v),
    (.ldh, 2, fun v => (BitVec.ofNat 16 v).signExtend 32),
    (.ldhu, 2, fun v => BitVec.ofNat 32 v),
    (.ldb, 1, fun v => (BitVec.ofNat 8 v).signExtend 32),
    (.ldbu, 1, fun v => BitVec.ofNat 32 v) ]

/-- The stores and how many bytes each writes; only those of fewer than four bytes read first, and may find a parity
error (R124, R125). -/
def storeRows : List ((Nat → BitVec 5 → BitVec 5 → BitVec 16 → Bool → Instr) × Nat) :=
  [ (fun t rb ra off _ => .stw t rb ra off, 4), (.sth, 2), (.stb, 1) ]

/-- The address of a load or store: base plus sign-extended offset, modulo 2^32 (R97, R98). -/
def dataAddr (x : Tile) (ra : BitVec 5) (off : BitVec 16) : Nat :=
  (BitVec.ofInt 32 ((x.rd ra).toNat + off.toInt)).toNat

/-- The conditional branches of R99, each with its condition. -/
def branchRows : List ((Nat → BitVec 5 → BitVec 5 → BitVec 16 → Instr) × (Word → Word → Bool)) :=
  [ (.beq, fun a b => decide (a = b)), (.bne, fun a b => decide (a ≠ b)), (.blt, fun a b => decide (a.toInt < b.toInt)),
    (.bge, fun a b => decide (b.toInt ≤ a.toInt)), (.bltu, fun a b => decide (a.toNat < b.toNat)),
    (.bgeu, fun a b => decide (b.toNat ≤ a.toNat)) ]

/-- A branch or jump target inside instruction memory (R100). -/
def inImem (tgt : Int) : Prop := 0 ≤ tgt ∧ tgt ≤ 0x7FFC ∧ tgt % 4 = 0

/-- From `s` to `s'`, tile `t` retires a taken branch or jump that leaves its tile `x`, and nothing else changes. -/
structure Jumps (s s' : State) (t : Nat) (x : Tile) : Prop where
  tile : s'.tile t = x
  otherTiles : ∀ u, u ≠ t → s'.tile u = s.tile u
  counted : s'.reg (retiredReg t) = min (2 ^ 64 - 1) (s.reg (retiredReg t) + 1)
  otherRegs : ∀ a, a ≠ retiredReg t → s'.reg a = s.reg a
  rest : { s' with tiles := s.tiles, regs := s.regs } = s

/-- Tile state registers that MFTS reads and whose value the machine's state gives by itself, with that value (R127). -/
def stateRows : List (Nat × (State → Nat → Nat)) :=
  [ (0x001, fun s t => (s.tile t).cycleHi.toNat),
    (0x003, fun s t => (s.tile t).beatHi.toNat % 2 ^ 16 + 2 ^ 16 * s.getF ((Page.tile t).base + 0xA4) 0 0),
    (0x005, fun _ t => t),
    (0x006, fun s t => (s.tile t).gangId), (0x007, fun s t => (s.tile t).rank), (0x008, fun s t => (s.tile t).gsize),
    (0x009, fun s t => (s.tile t).epoch.toNat),
    (0x00A, fun s t =>
      let n := fun q => ((s.tile t).entriesOf q).length
      n 0 + 2 ^ 5 * n 1 + 2 ^ 10 * n 2 + 2 ^ 15 * n 3 + 2 ^ 19 * n 4 + 2 ^ 25 * n 5),
    (0x00B, fun s t => s.modeOf t), (0x00C, fun s t => s.tmodeOf t),
    (0x010, fun s t => (SMap.look 0 (s.tile t).lc 0).toNat), (0x011, fun s t => (SMap.look 0 (s.tile t).lc 1).toNat),
    (0x012, fun s t => (SMap.look 0 (s.tile t).lc 2).toNat), (0x013, fun s t => (SMap.look 0 (s.tile t).lc 3).toNat),
    (0x014, fun s t => (s.tile t).lrem 0), (0x015, fun s t => (s.tile t).lrem 1), (0x016, fun s t => (s.tile t).lrem 2),
    (0x017, fun s t => (s.tile t).lrem 3) ]

/-- Every number that MFTS may name (R127). -/
def stateNumbers : List Nat :=
  [0, 1, 2, 3, 4, 5, 6, 7, 8, 9, 10, 11, 12, 0x10, 0x11, 0x12, 0x13, 0x14, 0x15, 0x16, 0x17]

/-- Tile `t` has faulted with `code`: its core stands FAULTED with PC at the faulting instruction, its queues are empty,
its loop units disarmed, and its registers are as they were (R132). -/
structure FaultedWith (s s' : State) (t code : Nat) : Prop where
  core : (s'.tile t).core = .faulted
  code : (s'.tile t).fcode = code
  queue : (s'.tile t).queue = []
  loops : (s'.tile t).loops = []
  pc : (s'.tile t).pc = (s.tile t).pc
  regs : (s'.tile t).g = (s.tile t).g

/-- Tile `t` has gone on past the end of instruction memory: the instruction there keeps its effect, the registers `g` among it, and
the core faults PC_RANGE with PC 0x8000 (R100, R132). -/
structure FellThrough (s' : State) (t : Nat) (g : SMap Word) : Prop where
  core : (s'.tile t).core = .faulted
  code : (s'.tile t).fcode = 0x02
  pc : (s'.tile t).pc = 0x8000
  regs : (s'.tile t).g = g

/-- A run in check mode of tile `t`'s step is under way in tile `u` (R405). -/
def RunsOn (s : State) (t u : Nat) : Prop :=
  ∃ c, (s.tithe.steps.find? fun p => p.1 = t) = some (t, c) ∧ ∃ r ∈ c.runs, runTile c r = some u

/-! ### Engine queues -/

/-- The fault of a core whose wait includes a stream that never moves: STREAM_STARVED or STREAM_LEFTOVER (R121, R206,
R236). -/
def stuck (x : Tile) : Option Nat :=
  match x.core with
  | .waitq m =>
    if (m.testBit 0 && State.starved x 0) || (m.testBit 1 && State.starved x 1) then some 0x10
    else if m.testBit 4 && State.leftOver x then some 0x11 else none
  | .draining =>
    if State.starved x 0 || State.starved x 1 then some 0x10 else if State.leftOver x then some 0x11 else none
  | _ => none

/-- The illegal fields of an entry's descriptor, by its queue (R112). -/
def illegalFields (e : Entry) : List Nat :=
  match e.q with
  | 0 => teIllegal e.desc
  | 1 => vectorIllegal e.desc
  | 2 => cpIllegal e.desc
  | 3 => ctIllegal e.desc
  | 4 => psIllegal e.desc
  | _ => syIllegal e.desc

/-- An entry that ENQ can have placed: a queue that exists, 64 bytes, no illegal field (R109, R112). -/
def Enqueued (e : Entry) : Prop := e.q < 6 ∧ e.desc.length = 64 ∧ illegalFields e = []

/-- The entries of a tile have passed the checks of ENQ, in its queues and where a stalled ENQ holds one, and each has a number of its
own, older than the next to be given. -/
structure TileChecked (x : Tile) : Prop where
  queued : ∀ e ∈ x.queue, Enqueued e ∧ e.id < x.nextId
  stalled : ∀ e, x.stalledEntry = some e → Enqueued e ∧ e.id ≤ x.nextId ∧ ∀ o ∈ x.queue, o.id ≠ e.id
  numbered : (x.queue.map (·.id)).Nodup

/-- The entries of every tile are so, and those of a repeat that a struck primary makes in its own tile (R112, R114, R414). -/
def QueuesChecked (s : State) : Prop :=
  (∀ t, TileChecked (s.tile t)) ∧ ∀ p ∈ s.tithe.steps, ∀ x, p.2.scratch = some x → TileChecked x

/-- The sheaf of the gang of tile `t` allows no further step (R158). -/
def stepsUsedUp (s : State) (t : Nat) : Bool :=
  ((s.tile t).gang.bind fun g => (s.gang g).sheaf).any fun h => decide (h.steps ≤ (s.tile t).stepsDone)

/-- May entry `e` of the tile start (R113, R195, R251): no earlier entry of its queue is left, none earlier of a queue
that its DEPS name, and the lattice is free for it and wanted by no earlier entry. -/
def Startable (x : Tile) (e : Entry) : Prop :=
  (∀ o ∈ x.queue, o.q = e.q → e.id ≤ o.id) ∧
    (∀ b, b < 6 → (field e.desc 2 1).testBit b = true → ∀ o ∈ x.queue, o.q = b → e.id ≤ o.id) ∧
    (State.needsLattice e = true →
      x.lattice = none ∧ ∀ o ∈ x.queue, State.needsLattice o = true → e.id ≤ o.id)

/-- Address `a` lies in none of these rows: base, count, stride, width. -/
def outsideRows (a : Nat) (ws : List (Nat × Nat × Nat × Nat)) : Prop :=
  ∀ w ∈ ws, ∀ i, i < w.2.1 → a < w.1 + i * w.2.2.1 ∨ w.1 + i * w.2.2.1 + w.2.2.2 ≤ a

/-- The tensor and vector commands that read the bin alone: queue, operation and the bin rows they write (R191, R193,
R214 to R231). -/
def engineRows : List ((Nat → Env → Instr) × Nat × Nat × (List Byte → List (Nat × Nat × Nat × Nat))) :=
  [ (.blockMm, 0, 2, fun d => [((teCmd d).y, (teCmd d).rows, (teCmd d).ys, (teCmd d).n * outBytes (teCmd d).ofmt)]),
    (.ew, 1, 1, fun d => (veCmd d).writes.map (·.2)), (.scan, 1, 2, fun d => (veCmd d).writes.map (·.2)),
    (.reduce, 1, 3, fun d => (veCmd d).writes.map (·.2)), (.convert, 1, 5, fun d => (veCmd d).writes.map (·.2)),
    (.smMerge, 1, 7, fun d => [((smCmd d).st, 1, 0, (smCmd d).nq * stateBytes (smCmd d).dim)]),
    (.smFinal, 1, 8, fun d => [((smCmd d).d, (smCmd d).nq, (smCmd d).ds, (smCmd d).dim * outSize (smCmd d).ofmt)]) ]

/-- From `s` to `s'`, the head entry `e` of queue `q` of tile `t` has run: it is performed, the bin is as before outside
`out`, and nothing of the block changes but that bin, the lattice's last fill, the tile's statistics, logged parity errors,
the record of a sampled step, strikes of a sweep, and what the upsets of `env` had changed in the memories. -/
structure EngineRan (s s' : State) (t q : Nat) (e : Entry) (env : Env) (out : List (Nat × Nat × Nat × Nat)) : Prop where
  performed : s'.headEntry t q = some { e with performed := true }
  binOutside : ∀ a, outsideRows a out → SMap.look 0 (s'.tile t).bin a = SMap.look 0 (s.tile t).bin a
  tile : { s'.tile t with
    bin := (s.tile t).bin, binBlight := (s.tile t).binBlight, latticeData := (s.tile t).latticeData,
    queue := (s.tile t).queue } = s.tile t
  otherTiles : ∀ u, u ≠ t → s'.tile u = s.tile u
  rest : { s' with tiles := s.tiles, regs := s.regs, tithe := s.tithe, fresh := s.fresh, h0 := s.h0, h1 := s.h1,
                   out := s.out, st := { s'.st with sweepWork := s.st.sweepWork } } = s.upset env

/-- The INT32 results of EW on 32-bit patterns: FN, and the result from A and B as signed numbers or as words (R214,
R216). -/
def ewIntRows : List (Nat × (Word → Word → Word)) :=
  [ (0x00, fun a _ => a), (0x01, fun a b => a + b), (0x02, fun a b => a - b), (0x03, fun a b => a * b),
    (0x05, fun a b => if b.toInt < a.toInt then b else a), (0x06, fun a b => if a.toInt < b.toInt then b else a),
    (0x10, fun a b => a &&& b), (0x11, fun a b => a ||| b), (0x12, fun a b => a ^^^ b),
    (0x13, fun a b => a <<< (b.toNat % 32)), (0x14, fun a b => a >>> (b.toNat % 32)),
    (0x15, fun a b => a.sshiftRight (b.toNat % 32)) ]

/-- A 32-bit word of the bin. -/
def binWord (x : Tile) (a : Nat) : Word := BitVec.ofNat 32 (leNat (readBytes x.bin a 4))

/-- A codeword of the own pillar that is stored without an error, and is delivered as it is stored (R64). -/
def CleanAt (s : State) (t off : Nat) : Prop :=
  s.pillarDead t = false ∧
    (classify (s.storedCw false (t * 2 ^ 19 + off / 64)).1 (s.storedCw false (t * 2 ^ 19 + off / 64)).2).cls = .clean

/-- The 64 bytes of field memory at pillar offset `off` of physical tile `t`. -/
def pillarBytes (s : State) (t off : Nat) : List Byte := readBytes s.fieldData (64 * (t * 2 ^ 19 + off / 64)) 64

/-- The tile ends as `x`, or, when the core waits on a stream that never moves, faulted (R121, R206, R236). -/
def Settles (s s' : State) (t : Nat) (x : Tile) : Prop :=
  match stuck x with
  | none => s'.tile t = x
  | some c => FaultedWith s s' t c

/-- The words of sink `k`. -/
def sinkOf (x : Tile) (k : Nat) : List SinkWord := if k = 0 then x.sink0 else x.sink1

/-- The codewords as the decode stage sees them, their marks aside. -/
def wordsOf (ws : List SinkWord) : List (Nat × List Byte) := ws.map fun w => (w.off, w.line.data)

/-- A memory request is on its way: on the mesh, in a pillar queue or in a lane of a barn channel (R69, R302). -/
def OnItsWay (s : State) (r : MemReq) : Prop :=
  r ∈ s.mesh ∨ (∃ t, r ∈ (s.pillar t).queue) ∨
    ∃ c, r ∈ (s.channel c).lane0 ∨ r ∈ (s.channel c).lane1 ∨ r ∈ (s.channel c).lane2

/-- Everything that a copy or cart entry reads over the mesh for these moves has come (R242, R256, R261). -/
def SourcesHere (s : State) (t : Nat) (e : Entry) (gs : List (List ByteMove)) : Prop :=
  s.fetchPlaces t e (sourceLines gs) = none

/-- From `s` to `s'` the head entry `e` of queue `q` of tile `t` has gone on to `e'`, and the tile's core goes on as it was. -/
structure EntryGoesOn (s s' : State) (t q : Nat) (e e' : Entry) : Prop where
  head : s'.headEntry t q = some e'
  same : e'.id = e.id ∧ e'.desc = e.desc
  pc : (s'.tile t).pc = (s.tile t).pc
  regs : (s'.tile t).g = (s.tile t).g
  core : (s'.tile t).core = (s.tile t).core
  gang : (s'.tile t).gang = (s.tile t).gang

/-- A copy or cart entry has done what it can do now: it is performed, or has 512 of its requests in flight (R256, R261). -/
def RanOrFull (e' : Entry) : Prop := e'.performed = true ∨ 512 ≤ e'.inFlight

/-- A copy or cart entry has moved nothing yet. -/
def NotBegun (e : Entry) : Prop := e.own = none ∧ e.moved = false ∧ e.outs = []

/-- The writes that an entry has still to make are all of units of this module. -/
def UnitsLeft (e : Entry) : Prop := ∀ o ∈ e.outs, ∃ p m l, o = .unit p m l

/-- At the port of tile `t` only source `k` of own-pillar accesses, 0 the stream, 1 the copy engine, 2 the cart, may have one to make,
and the clock of the pillars runs (R120, R476). -/
def PortFree (s : State) (t k : Nat) : Prop :=
  (∀ j, j < 3 → j ≠ k → (s.tile t).portReady j = false) ∧ s.pllLost (16 + paddockOf t) = false

/-! ### Sync entries -/

/-- The rows of sync entries that wait, with their operations (R279). -/
def syncRows : List ((Nat → Instr) × Nat) := [(.arrive, 1), (.waitTally, 2), (.flagWait, 4)]

/-- A sync entry of tile `t` ends with a result other than OK: the status word that it names takes the result, or the tile faults
(R277). -/
def EndsLost (s s' : State) (t : Nat) (e : Entry) (r : SyncResult) : Prop :=
  if (syCmd e.desc).status = 0 then FaultedWith s s' t r.code
  else s'.headEntry t 5 = some { e with performed := true } ∧ (s'.tile t).gate = (s.tile t).gate ∧
    (0x40000 ≤ (syCmd e.desc).status → leNat (readBytes (s'.tile t).crib ((syCmd e.desc).status - 0x40000) 4) = r.byte)

/-- From `s` to `s'` the bin of tile `t` takes these staged lines: a single one of a whole line leaves its masked bytes and
changes no other byte; none leaves the bin as it was (R33, R253). -/
def BinTakes (s s' : State) (t : Nat) (ls : List StageLine) : Prop :=
  (ls = [] → (s'.tile t).bin = (s.tile t).bin) ∧
  ∀ (l : StageLine) (a : Nat), ls = [l] → l.dest = .bin a → l.line.data.length = 64 → l.mask < 2 ^ 64 →
    (∀ i, i < 64 → SMap.look 0 (s'.tile t).bin (a + i) =
      if l.mask.testBit i then l.line.data.getD i 0 else SMap.look 0 (s.tile t).bin (a + i)) ∧
    ∀ b, (b < a ∨ a + 64 ≤ b) → SMap.look 0 (s'.tile t).bin b = SMap.look 0 (s.tile t).bin b

/-- The pillar of tile `t` is refreshed and gleaned: the module has booted to stage 10 and has not been stopped by heat, and ACLK of
the paddock runs (R442, R452, R476). -/
structure PillarKept (s : State) (t : Nat) : Prop where
  stage : 10 ≤ s.getF 0x1040 3 0
  cool : s.st.thermtrip = false
  clock : s.pllLost (16 + paddockOf t) = false

/-! ### The commit gate, staging and register writes -/

/-- The tally messages that a released step's held arrivals become at tile `t` (R271). -/
def heldArrivals (t : Nat) (held : List HeldItem) : List TallyMsg :=
  held.filterMap fun i => match i with
    | .arrival id e => some (.arrival (.node (paddockOf t)) id t e)
    | .flagAdd _ _ _ => none

/-- The flag updates of this module that a released step's held items become (R283). -/
def heldFlags (s : State) (t : Nat) (held : List HeldItem) : List FlagMsg :=
  held.filterMap fun i => match i with
    | .flagAdd f v none => some ⟨.tile t, f, v, (s.tile t).gang, (((s.tile t).gang.map fun g => (s.gang g).crew).getD 0)⟩
    | _ => none

/-- Nothing held goes to another module. -/
def heldHere (held : List HeldItem) : Prop := ∀ i ∈ held, ∀ f v n, i ≠ .flagAdd f v (some n)

/-- A register of page `p` can be written through head `h`: the head's link is up and its function in D0, no half access is
pending there, the clock of the heads runs, and the module has booted far enough for the page (R17, R368, R462, R476). -/
structure BarReady (s : State) (h : Nat) (p : Page) : Prop where
  head : h < 2
  up : s.headUp h = true
  d0 : s.inD0 h = true
  noHalf : (s.host h).pendingLow = none
  noLatch : (s.host h).readLatch = none
  clock : s.pllLost 36 = false
  booted : p = .global ∨ 6 ≤ s.getF 0x1040 3 0

/-- Cause `c` has been logged in page `p`: if its cause is not masked and ERR_FIRST was free, ERR_FIRST shows it (R465,
R466). -/
def Logged (s s' : State) (p : Page) (c : Cause) : Prop :=
  s.getF (p.base + 0x14) 31 31 = 0 → (s.reg (p.base + 0x1C)).testBit c.row.2.1 = false →
    s'.getF (p.base + 0x14) 31 31 = 1 ∧ s'.getF (p.base + 0x14) 7 0 = c.row.1

/-- From `s` to `s'` page `p` logs cause `c`, and nothing changes but its error registers and what its vector sends. -/
structure Logs (s s' : State) (p : Page) (c : Cause) : Prop where
  first : Logged s s' p c
  rest : { s' with regs := s.regs, h0 := s.h0, h1 := s.h1, out := s.out } = s
  otherPages : ∀ a, (a < p.base + 0x14 ∨ p.base + 0x28 ≤ a) → s'.reg a = s.reg a

/-! ### Dispatch -/

/-- `n` bytes at DPA `b` lie in barn memory and are aligned to their size (R138, R171, R432, R475). -/
def InBarn (b n : Nat) : Prop := 0x2000000000 ≤ b ∧ b + n ≤ 0x6000000000 ∧ b % n = 0

/-- The barn codeword at DPA `dpa` is stored without an error, its channel is not DEAD and no write to it waits, so that
it reads as the bytes stored. -/
def CleanBarn (s : State) (dpa : Nat) : Prop :=
  0x2000000000 ≤ dpa ∧ dpa + 64 ≤ 0x6000000000 ∧ dpa % 64 = 0 ∧
    (s.channel (State.channelOf (dpa - 0x2000000000))).dead = false ∧
    (∀ w ∈ (s.channel (State.channelOf (dpa - 0x2000000000))).writes, w.dpa ≠ dpa) ∧
    (classify (s.storedCw true ((dpa - 0x2000000000) / 64)).1 (s.storedCw true ((dpa - 0x2000000000) / 64)).2).cls = .clean

/-- The 64 bytes stored at DPA `dpa` of barn memory. -/
def barnBytes (s : State) (dpa : Nat) : List Byte := readBytes s.barnData (dpa - 0x2000000000) 64

/-- The dispatcher takes sheaves: the module has booted to stage 10 and has not been stopped by heat, and its clock runs (R442, R452,
R476). -/
structure DispatcherOpen (s : State) : Prop where
  stage : s.getF 0x1040 3 0 = 10 ∨ s.getF 0x1040 3 0 = 11
  cool : s.st.thermtrip = false
  clock : s.pllLost 36 = false

/-- The dispatcher takes sheaves, no gang reset waits for it, and it has none in hand. -/
structure DispatcherFree (s : State) : Prop where
  open_ : DispatcherOpen s
  free : s.disp.taking = none
  noReset : s.disp.resets = []

/-- The dispatcher has taken the head sheaf of queue `q`, and has not checked it yet. -/
def headTaken (s : State) (q : Nat) : State :=
  { (s.setHead q .reset).setF (State.dbReg q 0x64) 31 0 (s.reg (State.dbReg q 0x64) + 1) with lastQueue := q }

/-- A completion of queue `q` of which `p` holds is due: its record or its status line is still to be accepted (R29). -/
def Due (s : State) (q : Nat) (p : Completion → Prop) : Prop := ∃ r b, (q, r, b) ∈ s.disp.completions ∧ p r

/-- The completion ring of queue `q` lies in barn memory (R138). -/
def QueueInBarn (s : State) (q : Nat) : Prop := InBarn (s.getF (State.dbReg q 0x50) 38 0) (32 * s.cqSize q)

/-- From `s` to `s'` the dispatcher goes on with the sheaf `k`: it asks for the lines that the checks need, rejects it with
the code of the check that failed, waits for the trace ring, or forms its gang and starts its tiles (R149 to R152, R157,
R165, R174). -/
def GoesOn (s s' : State) (k : Taking) : Prop :=
  let c := sheafCmd k.bytes
  match s.checkSheaf c k.fetch.got with
  | .need dpas => s'.gangs = s.gangs ∧ s'.tiles = s.tiles ∧
    ∃ k', s'.disp.taking = some k' ∧ k'.q = k.q ∧ k'.index = k.index ∧ k'.bytes = k.bytes ∧ k'.fetch.got = k.fetch.got ∧
      (∀ d ∈ dpas, (∃ id, (id, d) ∈ k'.fetch.asked) ∨ ∃ l, (d, l) ∈ k.fetch.got) ∧
      ∀ p ∈ k'.fetch.asked, p ∈ k.fetch.asked ∨ OnItsWay s' (State.meshReq (.disp p.1) .read p.2)
  | .reject code _ => s'.disp.taking = none ∧ s'.gangs = s.gangs ∧ s'.tiles = s.tiles ∧
    s'.getF 0x5054 31 0 = (s.getF 0x5054 31 0 + 1) % 2 ^ 32 ∧
    (QueueInBarn s k.q → Due s' k.q fun r =>
      r.status = 2 ∧ r.code = code ∧ r.cookie = c.cookie ∧ r.gang = c.gang ∧ r.index = k.index)
  | .ok r =>
    if s.startBlocked c = true then s' = { s with disp := { s.disp with taking := some k } }
    else s'.disp.taking = none ∧
      (c.form = true → r.tiles ≠ [] → c.steps ≠ 0 →
        (s'.gang c.gang).live = true ∧ (s'.gang c.gang).tiles = r.tiles ∧
        ((s'.gang c.gang).sheaf.map fun f => (f.q, f.cookie, f.steps)) = some (k.q, c.cookie, c.steps) ∧
        ∀ l ∈ r.tiles, (s'.tile (s'.ptileOf l)).gang = some c.gang ∧ (s'.tile (s'.ptileOf l)).pc = 0 ∧
          (s'.tile (s'.ptileOf l)).rd 1 = c.arg ∧ (s'.tile (s'.ptileOf l)).rd 2 = 0 ∧
          (c.usesImage = true → ∀ w, w < r.image.length / 4 →
            SMap.look 0 (s'.tile (s'.ptileOf l)).imem w = BitVec.ofNat 32 (field r.image (4 * w) 4)))

/-- The ring registers: command, control and base register, bytes of a record, page and cause (R171, R432, R475). -/
def ringRows : List ((Nat → BitVec 32 → Instr) × Nat × Nat × Nat × Page × Cause) :=
  [ (.flogEnable, 0x5050, 0x5048, 64, .dispatch, .flogConfig), (.traceEnable, 0x6048, 0x6040, 32, .trace, .traceConfig),
    (.cperEnable, 0x3068, 0x3060, 256, .tithe, .cperConfig) ]

/-- Tile `t` is reset: its core idle at PC 0, registers, crib and bin zero, no entry queued; its instruction memory, place
in a gang and staging area stay (R134, R255). -/
structure TileReset (s s' : State) (t : Nat) : Prop where
  core : (s'.tile t).core = .idle
  pc : (s'.tile t).pc = 0
  regs : ∀ r, (s'.tile t).rd r = 0
  queue : (s'.tile t).queue = []
  bin : ∀ a, SMap.look 0 (s'.tile t).bin a = 0
  crib : ∀ a, SMap.look 0 (s'.tile t).crib a = 0
  imem : (s'.tile t).imem = (s.tile t).imem

/-- Channel `c` is in write drain, its queues being as they are: it enters at WQ_HI or with no read ready, and leaves at
WQ_LO with one ready (R308). -/
def InDrain (s : State) (c : Nat) : Prop :=
  if (s.channel c).draining = true then
    ¬((s.channel c).writes.length ≤ s.drainLo c ∧ ∃ r ∈ (s.channel c).reads, s.readReady c r = true)
  else s.drainHi c ≤ (s.channel c).writes.length ∨ ∀ r ∈ (s.channel c).reads, s.readReady c r = false

/-- The controller of channel `c` serves: the module has booted to stage 7 and has not been stopped by heat, and BCLK of its stack
runs (R442, R452, R476). -/
structure BarnServes (s : State) (c : Nat) : Prop where
  stage : 7 ≤ s.getF 0x1040 3 0
  cool : s.st.thermtrip = false
  clock : s.pllLost (32 + c / 16) = false

/-- Controller `c` has room for the request at the head of lane `i`: a read in its bank's queue, a write in the write queue or in the
entry of its codeword (R304, R305). -/
def HeadFits (s : State) (c i : Nat) : Prop :=
  ∃ r rest, s.lane c i = r :: rest ∧
    let room := (s.channel c).writes.length < 32 ∨ ∃ w ∈ (s.channel c).writes, w.dpa = r.dpa / 64 * 64
    match r.op with
    | .read => (s.bankReads c (s.bankOf (State.reqOff r))).length < 8
    | .partialWrite _ be _ _ => be = 0 ∨ room
    | _ => room

/-- Lane `i` of channel `c` holds a panic request (R309, R310). -/
def LanePanics (s : State) (c i : Nat) : Prop := ∃ r ∈ s.lane c i, s.isPanic r = true

/-- It is the turn of lane `i` of channel `c`: in rotation from the lane served last it is the first whose head fits, of those that
hold a panic request if one of these fits (R303, R309, R310). -/
structure LaneTurn (s : State) (c i : Nat) : Prop where
  fits : HeadFits s c i
  panicsFirst : ∀ d, d < 3 → LanePanics s c d → HeadFits s c d → LanePanics s c i
  rotation : ∃ n, n < 3 ∧ i = ((s.channel c).lastLane + 1 + n) % 3 ∧
    ∀ j, j < n → HeadFits s c (((s.channel c).lastLane + 1 + j) % 3) →
      LanePanics s c i ∧ ¬LanePanics s c (((s.channel c).lastLane + 1 + j) % 3)

/-- Bank `b` of channel `c` has work that may be issued; it has a panic read (R309, R311). -/
def BankReady (s : State) (c b : Nat) : Prop := ∃ w, s.bankNext c b = some w ∧ s.workReady c w = true
def BankPanics (s : State) (c b : Nat) : Prop := ∃ x ∈ s.bankWork c b, x.panic s = true

/-- The rows of the controller of channel `c`, which it takes only while it serves. -/
def barnRows (c b i : Nat) : List Instr :=
  [.barnRequestAccept c Env.none, .barnReadDone c b Env.none, .barnMergeReadDone c i Env.none, .barnWriteDrain c Env.none,
    .barnRefreshDue c b, .barnForcedRefresh c b, .selfRefreshEntry c, .selfRefreshExit c, .barnScrub c Env.none,
    .corrWindowEnd c, .hostRequestAge c 0 i, .hostRequestAge c 1 i]

/-! ### Sampled steps and sweeps -/

/-- No run of check `c` is made in tile `u`. -/
def NotRunIn (c : TitheStep) (u : Nat) : Prop := ∀ r ∈ c.runs, runTile c r ≠ some u

/-- What a run reports when it ends: what failed hardware reports, or, of a run in the place `p` that has come to its COMMIT, the
signature of what it has written (R404, R405). -/
def Reports (s : State) (c : TitheStep) (run : RunKind) (report sig : RunSignature) : Prop :=
  (report ≠ .own ∧ sig = report) ∨
    (report = .own ∧ ∃ p, runTile c run = some p ∧ (s.tile p).core = .atGate ∧
      sig = .sig (stepSig ((c.recs.lookup run).getD .reset).writes (s.tile p)))

/-- The place `p` makes run `run` of the step of tile `t`, whose check is `c`, and no other run in sight (R398, R405). -/
structure RunsFor (s : State) (p t : Nat) (run : RunKind) (c : TitheStep) : Prop where
  tiles : p < 4352 ∧ t < 4352 ∧ p ≠ t
  clocks : s.pllLost (paddockOf p) = false ∧ s.pllLost (paddockOf t) = false
  runs : s.runAt p = some (t, run)
  step : s.check t = some c
  alone : (s.enterView p t run c).runAt t = none

/-- Rows of a core and of its engines, by their tile (R95, R99, R109, R123, R405). -/
def placeRows (rd ra rb : BitVec 5) (imm : BitVec 16) (q : Nat) : List (Nat → Instr) :=
  [ (.add · rd ra rb), (.addi · rd ra imm), (.ldw · rd ra imm false), (.stw · rb ra imm), (.beq · ra rb imm),
    (.entryStart · q), (.entryComplete · q), (.ew · Env.none), (.blockMm · Env.none), (.arrive ·), (.waitTally ·), (.flagAdd ·) ]

/-- The gang tiles of paddock `p`, in the order in which a sweep saves their bins and cribs (R420). -/
def sweptTiles (s : State) (p : Nat) : List Nat :=
  ((s.liveGangs fun t => paddockOf t = p).flatMap s.gangTiles).filter fun t => paddockOf t = p

/-- A sweep of paddock `p` is in progress, at this step of R420; no paddock reset waits for it. -/
def Sweeps (s : State) (p : Nat) (step : SweepStep) : Prop :=
  p < 16 ∧ s.st.sweep = some p ∧ s.st.sweepWork.step = step ∧ s.st.resetWaiting = []

/-! ### Host ports -/

/-- The CXL.mem requests that access memory: the command, and what it asks of a codeword (R379, R385). -/
inductive MemCommand (h tag a : Nat) : Instr → MemOp → Prop where
  | memRd (v : BitVec 64) : v.toNat = a → MemCommand h tag a (.memRd h tag v) .read
  | memRdData (v : BitVec 64) : v.toNat = a → MemCommand h tag a (.memRdData h tag v) .read
  | memWr (v : BitVec 64) (data : BitVec 512) (poison bad : Bool) : v.toNat = a →
    MemCommand h tag a (.memWr h tag v data poison bad) (.write (leBytes 64 data.toNat) poison bad)
  | memWrPtl (v : BitVec 64) (data : BitVec 512) (be : BitVec 64) (poison bad : Bool) : v.toNat = a →
    MemCommand h tag a (.memWrPtl h tag v data be poison bad)
      (.partialWrite (leBytes 64 data.toNat) be.toNat poison bad)

/-- The answer of a request that reaches no active memory: all ones with poison, or the completion of a write (R374,
R381). -/
def refusedAnswer : MemOp → MemAnswer
  | .read => .memData ⟨List.replicate 64 0xFF, true⟩
  | _ => .cmp

/-- The counter of CXL.mem requests of head `h` (R395). -/
def requestsReg (h : Nat) : Nat := (Page.host h).base + 0x68

/-- One more has been counted in the 64-bit counter at `a`. -/
def CountedAt (s s' : State) (a : Nat) : Prop := s'.reg a = min (2 ^ 64 - 1) (s.reg a + 1)

/-- May decoder `d` of a port take the configuration `r` (R383)? -/
def HdmAllowed (p : HostPort) (d : Nat) (r : HdmRequest) : Prop :=
  r.base % 2 ^ 28 = 0 ∧ r.size % 2 ^ 28 = 0 ∧ r.skip % 2 ^ 28 = 0 ∧ r.size ≠ 0 ∧ r.iw ≤ 1 ∧ r.ig ≤ 6 ∧
    (d = 1 → p.hdm0.committed = true) ∧
    (if d = 0 then r.skip else p.hdm0.cfg.skip + p.hdm0.cfg.size + r.skip) + r.size ≤ 0x6000000000

/-- Decoder `d` of a port. -/
def decoderOf (p : HostPort) (d : Nat) : HdmDecoder := if d = 0 then p.hdm0 else p.hdm1

/-- A command of the mailbox of head `h` is taken: its doorbell can be written, and no command is in progress (R389). -/
def MailReady (s : State) (h : Nat) : Prop := BarReady s h (.host h) ∧ (s.host h).mailBusy = false

/-- The alert settings: bit of byte 0 that says they are given and of byte 1 that enables them, and where their threshold lies
(R389). -/
def alertRows : List (Nat × Nat × Nat) := [(0, 2, 1), (1, 4, 2), (2, 6, 2), (3, 8, 2), (4, 10, 2)]

/-- A word of the head that a function level reset leaves: those of BAR0, Mem_Enable and the bases of the two ranges (R368). -/
def flrKeeps (a : Nat) : Prop := a < 0x4000000 ∨ a = 0x400015C ∨ (0x4000170 ≤ a ∧ a < 0x4000188)

/-- A mailbox command of head `h` completes with `code` and `payload`; the doorbell's message may follow (R389, R472). -/
def Mailed (s s' : State) (h code : Nat) (payload : List Byte) : Prop :=
  s.out ++ [.mailbox h code payload] <+: s'.out

/-- The memory and codeword of a DPA, through the fence map (R35, R59, R298). -/
def codewordAt (s : State) (dpa : Nat) : Bool × Nat :=
  if dpa < 0x2000000000 then (false, s.ptileOf (dpa / 2 ^ 25) * 2 ^ 19 + dpa % 2 ^ 25 / 64)
  else (true, (dpa - 0x2000000000) / 64)

/-- The codeword of a DPA can be read and written, is stored without an error, and no write to it waits. -/
def CleanDpa (s : State) (dpa : Nat) : Prop :=
  dpa % 64 = 0 ∧ if dpa < 0x2000000000 then CleanAt s (s.ptileOf (dpa / 2 ^ 25)) (dpa % 2 ^ 25) else CleanBarn s dpa

/-- The data and check bytes stored at a DPA. -/
def storedAt (s : State) (dpa : Nat) : List Byte × List Byte := s.storedCw (codewordAt s dpa).1 (codewordAt s dpa).2

/-! ### SPDM -/

/-- Transport `tr` answers with `resp`, by which `part` of its transcript ends from then on (R446, R447). -/
def SpdmAnswers (s s' : State) (tr : Transport) (part : Spdm → List Byte) (resp : List Byte) : Prop :=
  s'.out = s.out ++ [.spdm tr resp] ∧ resp <:+ part (s'.spdm tr)

/-- The per-message secret of the signature by the identity key that follows the free value `n` (R446). -/
def spdmSecret (n : Nat) : Nat := (Config.free 521 n).toNat % (p521N - 1) + 1

/-- What the identity key signs in a context of SPDM 1.3 over a transcript (R446). -/
def spdmSigned (context : String) (transcript : List Byte) : List Byte :=
  (List.replicate 4 (textBytes "dmtf-spdm-v1.3.*")).flatten ++ zeros (36 - (textBytes context).length) ++ textBytes context ++
    sha512 transcript

/-- Transport `tr` answers with an ERROR of a code and data, and nothing else changes (R446). -/
def SpdmErrors (s s' : State) (tr : Transport) (code data : Nat) : Prop :=
  s' = s.emit (.spdm tr [0x13, 0x7F, BitVec.ofNat 8 code, BitVec.ofNat 8 data])

/-- The requests that need the identity (R446, R450). -/
def identityRequests (tr : Transport) : List Instr :=
  [.getDigests tr, .getCertificate tr 0 0 16, .challenge tr 0 0 0, .getMeasurements tr true 0xFF 0 0]

/-! ### The ridge -/

/-- The oldest packet of VC `vc` received at port `p` is `k`, well formed and of OP `op`, at a port that carries its class
for a module whose address is valid (R326, R340, R341, R358). -/
structure PacketWaits (s : State) (p vc op : Nat) (k : Packet) : Prop where
  port : p < 6
  channel : vc < 8
  oldest : s.headRx p vc = some k
  kind : k.op = op
  good : k.bad = false
  addressed : s.nodeValid = true
  cabled : (s.rport p).miscabled = false
  open_ : (s.rport p).mgmtOnly = false
  clock : s.pllLost 37 = false

/-- Packet `k` has left the packets received at port `p`, those of an earlier session of the link among them (R334,
R360). -/
def TakenOff (s s' : State) (p : Nat) (k : Packet) : Prop :=
  (s'.rport p).emptied ++ (s'.rport p).rx = ((s.rport p).emptied ++ (s.rport p).rx).erase k

/-- The flit last sent leaves by port `p`, and its header and link-control record are these (R329, R332). -/
def SendsFlit (s s' : State) (p hdr lcr : Nat) : Prop :=
  ∃ f, s'.out = s.out ++ [.flit p f] ∧ field f 0 1 = hdr ∧ field f 1 2 = lcr

/-- ACKSEQ of port `q` (R332). -/
def ackseqOf (q : RidgePort) : Nat := (q.rxSeq - 1).toNat

/-- The fields of a packet fit their places in the header (R338). -/
structure PacketFits (k : Packet) : Prop where
  op : 0 < k.op ∧ k.op < 256
  route : k.cls < 4 ∧ k.vcd < 2 ∧ k.zdir < 2 ∧ k.zset < 2
  ends : k.dst < 2 ^ 15 ∧ k.src < 2 ^ 15
  sizes : k.len < 512 ∧ k.blight < 16 ∧ k.args.length = 8 ∧ k.data.length = k.follows

/-- A row of the link or of the packets of ridge port `p`, all of LCLK (R49). -/
def RidgeRow (p vc : Nat) (a : BitVec 12) (f : List Byte) (i : Instr) : Prop :=
  i ∈ [ .ridgeLinkUp p, .dataFlitReceive p f true, .nakReceive p a, .ackReceive p a, .creditReturn p vc 1, .idleFlitTimer p,
    .ackTimer p, .nakRepeat p, .linkDown p, .rxseqTimeout p, .rwr p vc, .rrd p ⟨vc, Env.none⟩, .rrsp p vc, .wack p vc,
    .ridgeCommit p ⟨vc, Env.none⟩, .ridgeAbort p vc, .cack p vc, .tarrive p vc, .trelease p vc, .twithdraw p vc, .tlost p vc,
    .flagadd p vc, .lhello p vc, .furrow p vc, .furrowend p vc, .ringinfo p vc, .linkdownPkt p vc, .sealPkt p vc,
    .packetBad p vc ]

/-- The base of the RIDGE page of a port. -/
def ridgeBase (p : Nat) : Nat := (Page.ridge p).base

/-- The tile and tag that an RRSP or WACK answers (R339). -/
def replyTile (k : Packet) : Nat := k.arg 13 2 % 2 ^ 13

/-- A crew packet names a bound crew tally of this module (R290, R339). -/
def KnownCrew (s : State) (k : Packet) : Prop :=
  (s.crew (k.arg 12 1 % 64)).bound = true ∧ (s.crew (k.arg 12 1 % 64)).crew = k.arg 14 2

/-! ### Boot, live changes and the test port -/

/-- The live change in progress. -/
def Doing (s : State) (op arg : Nat) (ph : JobPhase) : Prop := s.st.upkeep = some ⟨op, arg, ph⟩

/-- The write entries of the running stage are done (R444). -/
def EntriesDone (s : State) : Prop := s.stageEntries.drop s.st.applied = []

/-- Tiles, pillars, gangs and tallies are as a reset leaves them: of a tile only instruction memory may hold anything
(R134, R458). -/
def UnitsReset (s : State) : Prop :=
  (∀ t, { s.tile t with imem := [] } = Tile.reset) ∧ s.pillars = [] ∧ s.gangs = [] ∧ s.tally = TallyNet.reset

/-- From `s` to `s'` every tile keeps its instruction memory (R134). -/
def ImemKept (s s' : State) : Prop := ∀ t, (s'.tile t).imem = (s.tile t).imem

/-- A page that exists. -/
def IsPage (p : Page) : Prop := pageAt (p.base + 0x0C) = some p

/-- The Yilac instruction as its word spells it: a parity error found in memory is no part of the word. -/
def Instr.withoutParity : Instr → Instr
  | .ldw t rd ra imm _ => .ldw t rd ra imm false
  | .ldh t rd ra imm _ => .ldh t rd ra imm false
  | .ldhu t rd ra imm _ => .ldhu t rd ra imm false
  | .ldb t rd ra imm _ => .ldb t rd ra imm false
  | .ldbu t rd ra imm _ => .ldbu t rd ra imm false
  | .sth t rb ra off _ => .sth t rb ra off false
  | .stb t rb ra off _ => .stb t rb ra off false
  | .enq t q ra tag _ => .enq t q ra tag false
  | i => i

/-- A LOOP whose word is well formed: a count only with m = 1 (R103). -/
def loopWellFormed : Instr → Prop
  | .loop _ _ m cnt _ => m = 0 → cnt = 0
  | _ => True

end Sys2Proof
end

