-- ==== Sys2Proof/Certificates/Slice0/Obligations.lean ====
section
/-! DEFINITION. The statements for the provers, from the numbered rules of spec/. An obligation that covers several
families is the conjunction of claims, each stated just before it. -/

open Sys2Proof Sys2Proof.Machine

/-! ### Yilac -/

/-- R95: g0 reads as zero and discards writes; a write to another register changes that one and nothing else of the
tile. -/
def Claims.ZeroRegisterDiscardsWrites : Prop :=
  ∀ (x : Tile) (r q : BitVec 5) (v : Word),
    x.rd 0 = 0 ∧ (x.wr r v).rd q = (if q = r ∧ r ≠ 0 then v else x.rd q) ∧ { x.wr r v with g := x.g } = x

/-- R99, R97: every register-register row writes the table's result to rd, retires, and changes nothing else. It meets
the model's own choices of log entry 1. -/
def Claims.RegisterRowsWriteTheirResult : Prop :=
  ∀ row ∈ regRows, ∀ (s : State) (t : Nat) (rd ra rb : BitVec 5),
    Ready s t (row.1 t rd ra rb) → nextPc (s.tile t) ≠ 0x8000 →
      ∃ s', exec (row.1 t rd ra rb) s = .next s' ∧
        Retires s s' t ((s.tile t).wr rd (row.2 ((s.tile t).rd ra) ((s.tile t).rd rb)))

/-- R99, R98: every row with an immediate writes the table's result to rd, retires, and changes nothing else. It meets
the model's own choices of log entry 1. -/
def Claims.ImmediateRowsWriteTheirResult : Prop :=
  (∀ row ∈ immRows, ∀ (s : State) (t : Nat) (rd ra : BitVec 5) (imm : BitVec 16),
    Ready s t (row.1 t rd ra imm) → nextPc (s.tile t) ≠ 0x8000 →
      ∃ s', exec (row.1 t rd ra imm) s = .next s' ∧
        Retires s s' t ((s.tile t).wr rd (row.2 ((s.tile t).rd ra) imm))) ∧
  ∀ row ∈ shiftRows, ∀ (s : State) (t : Nat) (rd ra sh : BitVec 5),
    Ready s t (row.1 t rd ra sh) → nextPc (s.tile t) ≠ 0x8000 →
      ∃ s', exec (row.1 t rd ra sh) s = .next s' ∧
        Retires s s' t ((s.tile t).wr rd (row.2 ((s.tile t).rd ra) sh.toNat))

/-- R95, R99, R97, R98: Register and immediate rows write the result of the table to rd and change nothing else; g0
stays zero. -/
def Obligations.YilacAluRowsWriteTheirResult : Prop :=
  Claims.ZeroRegisterDiscardsWrites ∧ Claims.RegisterRowsWriteTheirResult ∧ Claims.ImmediateRowsWriteTheirResult

/-- R96, R97, R126, R498: a load of an aligned address of the bin or the crib, whose line is not marked blighted and
whose read finds no parity error, writes the extended little-endian value to rd and retires; it faults ADDR outside
both, ALIGN when misaligned, BLIGHTED on a marked line and CRIB_PARITY on a crib parity error. The record that the hold keeps of a
sampled step may change too (R400). -/
def Claims.LoadsReadOrFault : Prop :=
  ∀ row ∈ loadRows, ∀ (s : State) (t : Nat) (rd ra : BitVec 5) (imm : BitVec 16) (bad : Bool),
    Ready s t (row.1 t rd ra imm bad) →
      ∃ s', exec (row.1 t rd ra imm bad) s = .next s' ∧
        if 0x44000 ≤ dataAddr (s.tile t) ra imm then FaultedWith s s' t 0x04
        else if dataAddr (s.tile t) ra imm % row.2.1 ≠ 0 then FaultedWith s s' t 0x03
        else if dataAddr (s.tile t) ra imm < 0x40000 then
          if SMap.look false (s.tile t).binBlight (dataAddr (s.tile t) ra imm / 64) = true ∨ bad = true then
            FaultedWith s s' t 0x0F ∧ SMap.look false (s'.tile t).binBlight (dataAddr (s.tile t) ra imm / 64) = true
          else nextPc (s.tile t) ≠ 0x8000 → Retires { s with tithe := s'.tithe } s' t
            ((s.tile t).wr rd (row.2.2 (leNat (readBytes (s.tile t).bin (dataAddr (s.tile t) ra imm) row.2.1))))
        else if bad = true then FaultedWith s s' t 0x06
        else if SMap.look false (s.tile t).cribBlight ((dataAddr (s.tile t) ra imm - 0x40000) / 64) = true then
          FaultedWith s s' t 0x0F
        else nextPc (s.tile t) ≠ 0x8000 → Retires { s with tithe := s'.tithe } s' t
          ((s.tile t).wr rd (row.2.2 (leNat (readBytes (s.tile t).crib (dataAddr (s.tile t) ra imm - 0x40000) row.2.1))))

/-- R96, R97, R13: a store of an aligned address of the bin or the crib writes the low bytes of rb there, little-endian,
and every other byte of both, every register and every other tile stay; a bin store counts for HALT (R101). -/
def Claims.StoresWriteTheirBytesOnly : Prop :=
  ∀ row ∈ storeRows, ∀ (s : State) (t : Nat) (rb ra : BitVec 5) (off : BitVec 16) (bad : Bool),
    Ready s t (row.1 t rb ra off bad) → nextPc (s.tile t) ≠ 0x8000 → dataAddr (s.tile t) ra off < 0x44000 →
    dataAddr (s.tile t) ra off % row.2 = 0 →
      ∃ s', exec (row.1 t rb ra off bad) s = .next s' ∧
        (s'.tile t).g = (s.tile t).g ∧ (s'.tile t).pc = nextPc (s.tile t) ∧ (s'.tile t).core = .running ∧
        (∀ u, u ≠ t → s'.tile u = s.tile u) ∧
        { s' with tiles := s.tiles, regs := s.regs, tithe := s.tithe, h0 := s.h0, h1 := s.h1, out := s.out,
                  st := { s'.st with sweepWork := s.st.sweepWork } } = s ∧
        (∀ i, i < row.2 →
          (if dataAddr (s.tile t) ra off < 0x40000 then
            SMap.look 0 (s'.tile t).bin (dataAddr (s.tile t) ra off + i)
          else SMap.look 0 (s'.tile t).crib (dataAddr (s.tile t) ra off - 0x40000 + i)) =
            BitVec.ofNat 8 (((s.tile t).rd rb).toNat / 256 ^ i)) ∧
        (∀ b, b < dataAddr (s.tile t) ra off ∨ dataAddr (s.tile t) ra off + row.2 ≤ b →
          SMap.look 0 (s'.tile t).bin b = SMap.look 0 (s.tile t).bin b) ∧
        (∀ b, 0x40000 + b < dataAddr (s.tile t) ra off ∨ dataAddr (s.tile t) ra off + row.2 ≤ 0x40000 + b →
          SMap.look 0 (s'.tile t).crib b = SMap.look 0 (s.tile t).crib b) ∧
        (dataAddr (s.tile t) ra off < 0x40000 → (s'.tile t).dirty = true)

/-- R96, R97: a store faults ADDR outside the bin and the crib, and ALIGN where its address is not a multiple of its size; bin and
crib then keep every byte. -/
def Claims.StoresFault : Prop :=
  ∀ row ∈ storeRows, ∀ (s : State) (t : Nat) (rb ra : BitVec 5) (off : BitVec 16) (bad : Bool),
    Ready s t (row.1 t rb ra off bad) →
    (0x44000 ≤ dataAddr (s.tile t) ra off ∨ dataAddr (s.tile t) ra off % row.2 ≠ 0) →
      ∃ s', exec (row.1 t rb ra off bad) s = .next s' ∧
        FaultedWith s s' t (if 0x44000 ≤ dataAddr (s.tile t) ra off then 0x04 else 0x03) ∧
        (s'.tile t).bin = (s.tile t).bin ∧ (s'.tile t).crib = (s.tile t).crib

/-- R96, R97, R126, R498, R13: Loads read and stores write the bytes at their address of the bin or crib, and nothing
else, or fault. -/
def Obligations.LoadsAndStoresReachBinAndCrib : Prop :=
  Claims.LoadsReadOrFault ∧ Claims.StoresWriteTheirBytesOnly ∧ Claims.StoresFault

/-- R100, R108: a taken branch, J, JAL or JALR to a target inside instruction memory goes there; the branch and J disarm
the loop units whose body they leave, J also those whose body ends at it, JAL and JALR disarm none and link PC + 4;
outside it faults PC_RANGE. A branch not taken goes on to the next instruction. It meets the model's own choices of log
entry 35. -/
def Claims.BranchesAndJumpsGoToTheirTarget : Prop :=
  (∀ row ∈ branchRows, ∀ (s : State) (t : Nat) (ra rb : BitVec 5) (off : BitVec 16), Ready s t (row.1 t ra rb off) →
    ∃ s', exec (row.1 t ra rb off) s = .next s' ∧
      if row.2 ((s.tile t).rd ra) ((s.tile t).rd rb) then
        (inImem ((s.tile t).pc + 4 * off.toInt) → Jumps s s' t
          { s.tile t with
            pc := ((s.tile t).pc + 4 * off.toInt).toNat
            loops := (s.tile t).loops.filter fun l =>
              l.first ≤ (s.tile t).pc + 4 * off.toInt && (s.tile t).pc + 4 * off.toInt ≤ l.last }) ∧
        (¬ inImem ((s.tile t).pc + 4 * off.toInt) → FaultedWith s s' t 0x02)
      else nextPc (s.tile t) ≠ 0x8000 → Retires s s' t (s.tile t)) ∧
  (∀ (s : State) (t : Nat) (off : BitVec 26), Ready s t (.j t off) → ∃ s', exec (.j t off) s = .next s' ∧
    (inImem ((s.tile t).pc + 4 * off.toInt) → Jumps s s' t
      { s.tile t with
        pc := ((s.tile t).pc + 4 * off.toInt).toNat
        loops := (s.tile t).loops.filter fun l =>
          l.first ≤ (s.tile t).pc + 4 * off.toInt && (s.tile t).pc + 4 * off.toInt ≤ l.last &&
            l.last ≠ (s.tile t).pc }) ∧
    (¬ inImem ((s.tile t).pc + 4 * off.toInt) → FaultedWith s s' t 0x02)) ∧
  (∀ (s : State) (t : Nat) (off : BitVec 26), Ready s t (.jal t off) → ∃ s', exec (.jal t off) s = .next s' ∧
    (inImem ((s.tile t).pc + 4 * off.toInt) → Jumps s s' t
      { (s.tile t).wr 31 (BitVec.ofNat 32 ((s.tile t).pc + 4)) with
        pc := ((s.tile t).pc + 4 * off.toInt).toNat }) ∧
    (¬ inImem ((s.tile t).pc + 4 * off.toInt) → FaultedWith s s' t 0x02)) ∧
  ∀ (s : State) (t : Nat) (rd ra : BitVec 5), Ready s t (.jalr t rd ra) → ∃ s', exec (.jalr t rd ra) s = .next s' ∧
    (inImem ((s.tile t).rd ra).toNat → Jumps s s' t
      { (s.tile t).wr rd (BitVec.ofNat 32 ((s.tile t).pc + 4)) with pc := ((s.tile t).rd ra).toNat }) ∧
    (¬ inImem ((s.tile t).rd ra).toNat → FaultedWith s s' t 0x02)

/-- R103, R104, R105, R107: LOOP arms unit k over the body + 1 instructions that follow, or skips them on a zero count; where it
is itself the last instruction of the body of outer units they act, and one with iterations left takes execution back instead;
a skip past the end of instruction memory faults PC_RANGE with PC 0x8000 (R100). LOOP faults ILLEGAL_INSTR on
a malformed word, PC_RANGE on a body that ends beyond 0x7FFC and LOOP_NEST on a unit that is armed. It meets the
model's own choices of log entry 35. -/
def Claims.LoopArmsItsUnit : Prop :=
  ∀ (s : State) (t : Nat) (k : BitVec 2) (m : BitVec 1) (cnt : BitVec 11) (body : BitVec 12),
    Ready s t (.loop t k m cnt body) →
      ∃ s', exec (.loop t k m cnt body) s = .next s' ∧
        if m = 0 ∧ cnt ≠ 0 then FaultedWith s s' t 0x01
        else if 0x7FFC < (s.tile t).pc + 4 + 4 * body.toNat then FaultedWith s s' t 0x02
        else if (s.tile t).loops.any (fun l => l.k = k.toNat) then FaultedWith s s' t 0x0A
        else
          ∀ n, n = (if m = 1 then cnt.toNat else (SMap.look 0 (s.tile t).lc k.toNat).toNat) →
            (n ≠ 0 → nextPc (s.tile t) ≠ 0x8000 → Jumps s s' t
              { s.tile t with
                pc := nextPc (s.tile t)
                loops := ⟨k.toNat, (s.tile t).pc + 4, (s.tile t).pc + 4 + 4 * body.toNat, n⟩ ::
                  (loopAct (s.tile t).pc (s.tile t).loops).2 }) ∧
            (n = 0 → ∀ go, go = (loopAct (s.tile t).pc (s.tile t).loops).1.getD ((s.tile t).pc + 8 + 4 * body.toNat) →
              if go = 0x8000 then FellThrough s' t (s.tile t).g
              else Jumps s s' t { s.tile t with pc := go, loops := (loopAct (s.tile t).pc (s.tile t).loops).2 })

/-- R105, R107: at the last instruction of a body the most recently armed unit that ends there acts: with iterations
left it takes execution back and counts one down; a spent one disarms and the next acts; units that end elsewhere stay.
It meets the model's own choices of log entry 35. -/
def Claims.LoopUnitsActAtBodyEnd : Prop :=
  ∀ (pc : Nat) (l : ArmedLoop) (ls : List ArmedLoop),
    (l.last = pc → 1 < l.live → loopAct pc (l :: ls) = (some l.first, { l with live := l.live - 1 } :: ls)) ∧
    (l.last = pc → l.live ≤ 1 → loopAct pc (l :: ls) = loopAct pc ls) ∧
    (l.last ≠ pc → loopAct pc (l :: ls) = ((loopAct pc ls).1, l :: (loopAct pc ls).2)) ∧
    ((∀ o ∈ ls, o.last ≠ pc) → loopAct pc ls = (none, ls))

/-- R100, R132: an instruction that retires at the end of instruction memory, where no loop unit takes execution back, keeps its
result, and the core faults PC_RANGE with PC 0x8000 before anything executes there: register, immediate, load and store rows,
branches not taken, MFTS and MTTS, TRACE, WAITQ over empty queues and an ENQ that has room. -/
def Claims.ExecutionPastTheEndFaults : Prop :=
  (∀ row ∈ regRows, ∀ (s : State) (t : Nat) (rd ra rb : BitVec 5), Ready s t (row.1 t rd ra rb) → nextPc (s.tile t) = 0x8000 →
    ∃ s', exec (row.1 t rd ra rb) s = .next s' ∧
      FellThrough s' t ((s.tile t).wr rd (row.2 ((s.tile t).rd ra) ((s.tile t).rd rb))).g) ∧
  (∀ row ∈ immRows, ∀ (s : State) (t : Nat) (rd ra : BitVec 5) (imm : BitVec 16), Ready s t (row.1 t rd ra imm) →
    nextPc (s.tile t) = 0x8000 → ∃ s', exec (row.1 t rd ra imm) s = .next s' ∧
      FellThrough s' t ((s.tile t).wr rd (row.2 ((s.tile t).rd ra) imm)).g) ∧
  (∀ row ∈ shiftRows, ∀ (s : State) (t : Nat) (rd ra sh : BitVec 5), Ready s t (row.1 t rd ra sh) →
    nextPc (s.tile t) = 0x8000 → ∃ s', exec (row.1 t rd ra sh) s = .next s' ∧
      FellThrough s' t ((s.tile t).wr rd (row.2 ((s.tile t).rd ra) sh.toNat)).g) ∧
  (∀ row ∈ loadRows, ∀ (s : State) (t : Nat) (rd ra : BitVec 5) (imm : BitVec 16), Ready s t (row.1 t rd ra imm false) →
    nextPc (s.tile t) = 0x8000 → dataAddr (s.tile t) ra imm < 0x40000 → dataAddr (s.tile t) ra imm % row.2.1 = 0 →
    SMap.look false (s.tile t).binBlight (dataAddr (s.tile t) ra imm / 64) = false →
      ∃ s', exec (row.1 t rd ra imm false) s = .next s' ∧ FellThrough s' t
        ((s.tile t).wr rd (row.2.2 (leNat (readBytes (s.tile t).bin (dataAddr (s.tile t) ra imm) row.2.1)))).g) ∧
  (∀ row ∈ storeRows, ∀ (s : State) (t : Nat) (rb ra : BitVec 5) (off : BitVec 16), Ready s t (row.1 t rb ra off false) →
    nextPc (s.tile t) = 0x8000 → dataAddr (s.tile t) ra off < 0x44000 → dataAddr (s.tile t) ra off % row.2 = 0 →
      ∃ s', exec (row.1 t rb ra off false) s = .next s' ∧ FellThrough s' t (s.tile t).g) ∧
  (∀ row ∈ branchRows, ∀ (s : State) (t : Nat) (ra rb : BitVec 5) (off : BitVec 16), Ready s t (row.1 t ra rb off) →
    nextPc (s.tile t) = 0x8000 → row.2 ((s.tile t).rd ra) ((s.tile t).rd rb) = false →
      ∃ s', exec (row.1 t ra rb off) s = .next s' ∧ FellThrough s' t (s.tile t).g) ∧
  (∀ row ∈ stateRows, ∀ (s : State) (t : Nat) (rd : BitVec 5), Ready s t (.mfts t rd (BitVec.ofNat 16 row.1)) →
    nextPc (s.tile t) = 0x8000 → ∃ s', exec (.mfts t rd (BitVec.ofNat 16 row.1)) s = .next s' ∧
      FellThrough s' t ((s.tile t).wr rd (BitVec.ofNat 32 (row.2 s t))).g) ∧
  (∀ (s : State) (t : Nat) (ra : BitVec 5) (k : Nat), k < 4 → Ready s t (.mtts t ra (BitVec.ofNat 16 (0x10 + k))) →
    nextPc (s.tile t) = 0x8000 → ∃ s', exec (.mtts t ra (BitVec.ofNat 16 (0x10 + k))) s = .next s' ∧
      FellThrough s' t (s.tile t).g) ∧
  (∀ (s : State) (t : Nat) (imm : BitVec 16), Ready s t (.trace t imm) → s.tileBlocked t 3 = false →
    nextPc (s.tile t) = 0x8000 → ∃ s', exec (.trace t imm) s = .next s' ∧ FellThrough s' t (s.tile t).g) ∧
  (∀ (s : State) (t : Nat) (mask : BitVec 6), Ready s t (.waitq t mask) →
    (∀ e ∈ (s.tile t).queue, mask.toNat.testBit e.q = false) → nextPc (s.tile t) = 0x8000 →
      ∃ s', exec (.waitq t mask) s = .next s' ∧ FellThrough s' t (s.tile t).g) ∧
  ∀ (s : State) (t : Nat) (q : BitVec 3) (ra : BitVec 5) (tag : BitVec 16) (bad : Bool), Ready s t (.enq t q ra tag bad) →
    s.enqCheck t q.toNat ((s.tile t).rd ra).toNat bad = none → s.tileBlocked t 1 = false →
    ((s.tile t).entriesOf q.toNat).length < queueDepth q.toNat → nextPc (s.tile t) = 0x8000 →
      ∃ s', exec (.enq t q ra tag bad) s = .next s' ∧ FellThrough s' t (s.tile t).g

/-- R100, R108, R103, R104, R107, R105, R132: Branches and jumps go to their target, LOOP arms its unit, loop units act at
the end of their body, and execution past the end of instruction memory faults. -/
def Obligations.BranchesJumpsAndLoops : Prop :=
  Claims.BranchesAndJumpsGoToTheirTarget ∧ Claims.LoopArmsItsUnit ∧ Claims.LoopUnitsActAtBodyEnd ∧
    Claims.ExecutionPastTheEndFaults

/-- R106: MTTS of LC0 to LC3 changes that count alone, so that the armed units go on as they were; LOOP with m = 0 takes
the count as it stands; LREM0 to LREM3 read the iterations remaining of an armed unit, zero of a disarmed one, and
cannot be written. -/
def Obligations.LoopCountsActOnLaterEntries : Prop :=
  ∀ (s : State) (t k : Nat) (r : BitVec 5), k < 4 →
    (Ready s t (.mtts t r (BitVec.ofNat 16 (0x10 + k))) → nextPc (s.tile t) ≠ 0x8000 →
      ∃ s', exec (.mtts t r (BitVec.ofNat 16 (0x10 + k))) s = .next s' ∧
        Retires s s' t { s.tile t with lc := SMap.put 0 (s.tile t).lc k ((s.tile t).rd r) }) ∧
    (∀ body : BitVec 12, Ready s t (.loop t (BitVec.ofNat 2 k) 0 0 body) →
      (s.tile t).pc + 4 + 4 * body.toNat ≤ 0x7FFC → (∀ l ∈ (s.tile t).loops, l.k ≠ k ∧ l.last ≠ (s.tile t).pc) →
      SMap.look 0 (s.tile t).lc k ≠ 0 →
        ∃ s', exec (.loop t (BitVec.ofNat 2 k) 0 0 body) s = .next s' ∧
          (s'.tile t).loops.head? = some ⟨k, (s.tile t).pc + 4, (s.tile t).pc + 4 + 4 * body.toNat,
            (SMap.look 0 (s.tile t).lc k).toNat⟩) ∧
    (Ready s t (.mfts t r (BitVec.ofNat 16 (0x14 + k))) → nextPc (s.tile t) ≠ 0x8000 →
      ∃ s', exec (.mfts t r (BitVec.ofNat 16 (0x14 + k))) s = .next s' ∧
        Retires s s' t ((s.tile t).wr r
          (BitVec.ofNat 32 (((s.tile t).loops.find? fun l => l.k = k).elim 0 (·.live))))) ∧
    (Ready s t (.mtts t r (BitVec.ofNat 16 (0x14 + k))) →
      ∃ s', exec (.mtts t r (BitVec.ofNat 16 (0x14 + k))) s = .next s' ∧ FaultedWith s s' t 0x01)

/-- R127, R128, R106: MFTS of a listed number reads the register into rd and retires; the reads of the cycle and beat
counters hold the upper half for CYCLE_HI and BEAT_HI; MTTS writes LC0 to LC3; any other number faults ILLEGAL_INSTR. It
meets the model's own choices of log entry 6. -/
def Claims.TileStateRegistersReadAndWrite : Prop :=
  (∀ row ∈ stateRows, ∀ (s : State) (t : Nat) (rd : BitVec 5), Ready s t (.mfts t rd (BitVec.ofNat 16 row.1)) →
    nextPc (s.tile t) ≠ 0x8000 → ∃ s', exec (.mfts t rd (BitVec.ofNat 16 row.1)) s = .next s' ∧
      Retires s s' t ((s.tile t).wr rd (BitVec.ofNat 32 (row.2 s t)))) ∧
  (∀ (s : State) (t : Nat) (rd : BitVec 5), Ready s t (.mfts t rd 0) → nextPc (s.tile t) ≠ 0x8000 → rd ≠ 0 →
    ∃ s', exec (.mfts t rd 0) s = .next s' ∧ (s'.tile t).rd rd = (s'.tile t).cycle.truncate 32 ∧
      (s'.tile t).cycleHi = (s'.tile t).cycle.extractLsb' 32 32) ∧
  (∀ (s : State) (t : Nat) (rd : BitVec 5), Ready s t (.mfts t rd 2) → nextPc (s.tile t) ≠ 0x8000 → rd ≠ 0 →
    ∃ s', exec (.mfts t rd 2) s = .next s' ∧ (s'.tile t).rd rd = (s'.pillar t).beat.truncate 32 ∧
      (s'.tile t).beatHi.toNat % 2 ^ 16 = (s'.pillar t).beat.toNat / 2 ^ 32) ∧
  (∀ (s : State) (t : Nat) (rd : BitVec 5), Ready s t (.mfts t rd 4) → nextPc (s.tile t) ≠ 0x8000 →
    ∀ l, s.ltileOf t = some l → ∃ s', exec (.mfts t rd 4) s = .next s' ∧
      Retires s s' t ((s.tile t).wr rd (BitVec.ofNat 32 l))) ∧
  (∀ (s : State) (t : Nat) (ra : BitVec 5) (k : Nat), k < 4 → Ready s t (.mtts t ra (BitVec.ofNat 16 (0x10 + k))) →
    nextPc (s.tile t) ≠ 0x8000 → ∃ s', exec (.mtts t ra (BitVec.ofNat 16 (0x10 + k))) s = .next s' ∧
      Retires s s' t { s.tile t with lc := SMap.put 0 (s.tile t).lc k ((s.tile t).rd ra) }) ∧
  (∀ (s : State) (t : Nat) (rd : BitVec 5) (n : BitVec 16), Ready s t (.mfts t rd n) → n.toNat ∉ stateNumbers →
    ∃ s', exec (.mfts t rd n) s = .next s' ∧ FaultedWith s s' t 0x01) ∧
  ∀ (s : State) (t : Nat) (ra : BitVec 5) (n : BitVec 16), Ready s t (.mtts t ra n) →
    (n.toNat < 0x10 ∨ 0x13 < n.toNat) → ∃ s', exec (.mtts t ra n) s = .next s' ∧ FaultedWith s s' t 0x01

/-- R99, R131, R100, R174: FAULT raises USER; a word that spells no instruction, executed, faults ILLEGAL_INSTR, and one
whose fetch finds a parity error IMEM_PARITY; TRACE retires, and with no gang tracing it does nothing else; where its
record must wait for room in the trace ring, it waits. It meets the
model's own choices of log entry 34. -/
def Claims.FaultTraceAndIllegalWords : Prop :=
  (∀ (s : State) (t : Nat) (imm : BitVec 16), Ready s t (.faultI t imm) →
    ∃ s', exec (.faultI t imm) s = .next s' ∧ FaultedWith s s' t 0x0C) ∧
  (∀ (s : State) (t : Nat) (bad : Bool), Plain s t → (s.tile t).core = .running →
    (bad = true ∨ decodeYilac t (s.fetched t) = none) →
    ∃ s', exec (.illegalInstr t bad) s = .next s' ∧ FaultedWith s s' t (if bad then 0x05 else 0x01)) ∧
  (∀ (s : State) (t : Nat) (imm : BitVec 16), Ready s t (.trace t imm) → s.tileBlocked t 3 = true →
    exec (.trace t imm) s = .next s) ∧
  (∀ (s : State) (t : Nat) (imm : BitVec 16), Ready s t (.trace t imm) → s.tileBlocked t 3 = false →
    nextPc (s.tile t) ≠ 0x8000 →
    ∃ s', exec (.trace t imm) s = .next s' ∧ (s'.tile t).g = (s.tile t).g ∧ (s'.tile t).pc = nextPc (s.tile t) ∧
      (s.tmodeOf t = 0 → Retires s s' t (s.tile t)) ∧
      (∀ g, (s.tile t).gang = some g → (s.gang g).tmode = 3 → ∃ e, s'.traceQ = s.traceQ ++ [e] ∧
        e.mode = 3 ∧ e.bytes.take 3 = [3, 0xFF, BitVec.ofNat 8 g]))

/-- R127, R128, R106, R99, R131, R100, R174: MFTS and MTTS reach the tile state registers; FAULT, TRACE and illegal
words act as listed. -/
def Obligations.StateRegistersFaultTraceAndIllegalWords : Prop :=
  Claims.TileStateRegistersReadAndWrite ∧ Claims.FaultTraceAndIllegalWords

/-- R112: ENQ checks in order: a queue number above 5, a descriptor address outside the crib or not aligned, a crib
parity error, a marked line; each faults with its code. -/
def Claims.EnqChecksItsDescriptorAddress : Prop :=
  ∀ (s : State) (t : Nat) (q : BitVec 3) (ra : BitVec 5) (tag : BitVec 16) (bad : Bool) (a : Nat),
    Ready s t (.enq t q ra tag bad) → a = ((s.tile t).rd ra).toNat →
      ∃ s', exec (.enq t q ra tag bad) s = .next s' ∧
        (5 < q.toNat → FaultedWith s s' t 0x01) ∧
        (q.toNat ≤ 5 → (a < 0x40000 ∨ 0x44000 ≤ a ∨ a % 64 ≠ 0) → FaultedWith s s' t 0x0D) ∧
        (q.toNat ≤ 5 → 0x40000 ≤ a → a < 0x44000 → a % 64 = 0 →
          (bad = true → FaultedWith s s' t 0x06) ∧
          (bad = false → SMap.look false (s.tile t).cribBlight ((a - 0x40000) / 64) = true → FaultedWith s s' t 0x0F))

/-- R112, R113, R114, R174: an ENQ whose checks all pass places an entry with the 64 bytes at ra, its TAG and its place
among the entries issued to the queue this step, and retires; on a full queue the core stalls holding the entry, and ENQ
completes once one of the queue's entries has gone. A traced ENQ waits while its record must wait for room. -/
def Claims.EnqPlacesAnEntryOrStalls : Prop :=
  (∀ (s : State) (t : Nat) (q : BitVec 3) (ra : BitVec 5) (tag : BitVec 16) (bad : Bool) (a : Nat) (e : Entry),
    Ready s t (.enq t q ra tag bad) → a = ((s.tile t).rd ra).toNat → s.enqCheck t q.toNat a bad = none →
    nextPc (s.tile t) ≠ 0x8000 →
    e = { id := (s.tile t).nextId, q := q.toNat, desc := readBytes (s.tile t).crib (a - 0x40000) 64, tag,
          pc := (s.tile t).pc, qindex := SMap.look 0 (s.tile t).issued q.toNat, started := false, performed := false,
          progress := 0, taken := [], index := [], asked := [], unplaced := 0, unanswered := [], got := [], own := none,
          moved := false, outs := [], acts := [], inits := none } →
      ∃ s', exec (.enq t q ra tag bad) s = .next s' ∧
        if s.tileBlocked t 1 = true then s' = s
        else if ((s.tile t).entriesOf q.toNat).length < queueDepth q.toNat then
          (s'.tile t).queue = (s.tile t).queue ++ [e] ∧ (s'.tile t).pc = nextPc (s.tile t) ∧
            (s'.tile t).core = .running ∧ (s'.tile t).dirty = true ∧ (s'.tile t).g = (s.tile t).g ∧
            (s'.tile t).nextId = (s.tile t).nextId + 1 ∧
            SMap.look 0 (s'.tile t).issued q.toNat = SMap.look 0 (s.tile t).issued q.toNat + 1 ∧
            (s'.tile t).bin = (s.tile t).bin ∧ (s'.tile t).crib = (s.tile t).crib ∧
            (∀ u, u ≠ t → s'.tile u = s.tile u)
        else { s' with tithe := s.tithe } = s.onTile t fun x => { x with core := .stalled, stalledEntry := some e }) ∧
  ∀ (s : State) (t : Nat) (e : Entry), Plain s t → (s.tile t).core = .stalled → (s.tile t).stalledEntry = some e →
    s.tileBlocked t 1 = false → ((s.tile t).entriesOf e.q).length < queueDepth e.q → nextPc (s.tile t) ≠ 0x8000 →
      ∃ s', exec (.enqStallEnd t) s = .next s' ∧ (s'.tile t).queue = (s.tile t).queue ++ [e] ∧
        (s'.tile t).core = .running ∧ (s'.tile t).stalledEntry = none ∧ (s'.tile t).pc = nextPc (s.tile t)

/-- The operands of an entry that R112's step 7 and its queue's own checks fault, with the code each gives. -/
def Claims.extentCheck (s : State) (t q : Nat) (d : List Byte) : Check :=
  match q with
  | 0 => teExtent d
  | 1 => vectorExtent d
  | 2 => s.cpExtent t d
  | 3 => ctExtent d
  | 4 => psExtent d
  | _ => s.syExtent t d

/-- R112, R72, R5, R7: with its descriptor read, ENQ tests in this order, each with its own code: FUSED for queues 0 and 1 and for
streams that feed them on a CM384-G; ILLEGAL_DESC for a field that is not allowed; MODE for a pillar stream, a stream-mode tensor
entry or an attention entry on a stream in a MEMORY-mode paddock, and for what the copy engine may not do there; then the extents,
BOUNDS first, and the checks of the queue's chapter. -/
def Claims.EnqChecksItsEntry : Prop :=
  ∀ (s : State) (t : Nat) (q : BitVec 3) (ra : BitVec 5) (tag : BitVec 16) (a : Nat) (d : List Byte),
    Ready s t (.enq t q ra tag false) → a = ((s.tile t).rd ra).toNat → q.toNat ≤ 5 → 0x40000 ≤ a → a < 0x44000 → a % 64 = 0 →
    SMap.look false (s.tile t).cribBlight ((a - 0x40000) / 64) = false → d = readBytes (s.tile t).crib (a - 0x40000) 64 →
      ∃ s', exec (.enq t q ra tag false) s = .next s' ∧
        if s.fuses.grade = 3 ∧ (q.toNat < 2 ∨ (q.toNat = 4 ∧ (psCmd d).sink < 2)) then FaultedWith s s' t 0x09
        else if illegalFields (s.newEntry t q.toNat a tag) ≠ [] then FaultedWith s s' t 0x0E
        else if s.modeOf t = 0 ∧ ((q.toNat = 0 ∧ field d 0 1 = 1) ∨ (q.toNat = 1 ∧ field d 0 1 = 6 ∧ (attnCmd d).src = 0) ∨
            q.toNat = 4) then FaultedWith s s' t 0x08
        else if q.toNat = 2 ∧ (s.cpMode t d).isSome = true then FaultedWith s s' t 0x08
        else match Claims.extentCheck s t q.toNat d with
          | some (code, _, _) => FaultedWith s s' t code
          | none => True

/-- R112: the extent checks of the tensor and vector queues, of the cart and of pillar streams find BOUNDS or what their chapters add:
the code of a bin operand that reaches past 0x3FFFF is BOUNDS. -/
def Claims.OperandsPastTheBinAreBounds : Prop :=
  ∀ (op base count stride width : Nat), count ≠ 0 → width ≠ 0 →
    (2 ^ 18 < base + (count - 1) * stride + width → ∃ a, binBounds op base count stride width = some (0x07, op, a)) ∧
    (base + (count - 1) * stride + width ≤ 2 ^ 18 → binBounds op base count stride width = none)

/-- R112, R113, R114, R174, R72, R5, R7: ENQ checks its descriptor address and then its entry, each check with its code in the order
of R112, and places its entry or stalls on a full queue. -/
def Obligations.EnqChecksPlacesAndStalls : Prop :=
  Claims.EnqChecksItsDescriptorAddress ∧ Claims.EnqChecksItsEntry ∧ Claims.OperandsPastTheBinAreBounds ∧
    Claims.EnqPlacesAnEntryOrStalls

/-- R99, R101: WAITQ over empty queues retires and otherwise waits; it goes on once every queue it names is empty. A
wait that includes a stream that never moves faults (R121, R206, R236); which streams those are is the model's reading of log entry
33. -/
def Claims.WaitqWaitsForItsQueues : Prop :=
  (∀ (s : State) (t : Nat) (mask : BitVec 6), Ready s t (.waitq t mask) →
    ∃ s', exec (.waitq t mask) s = .next s' ∧
      if ∃ e ∈ (s.tile t).queue, mask.toNat.testBit e.q = true then
        match stuck { s.tile t with core := .waitq mask.toNat } with
        | none => s' = s.onTile t fun x => { x with core := .waitq mask.toNat }
        | some c => FaultedWith s s' t c
      else nextPc (s.tile t) ≠ 0x8000 → Retires s s' t (s.tile t)) ∧
  ∀ (s : State) (t m : Nat), Plain s t → (s.tile t).core = .waitq m → nextPc (s.tile t) ≠ 0x8000 →
    (∀ e ∈ (s.tile t).queue, m.testBit e.q = false) →
      ∃ s', exec (.waitqSatisfied t) s = .next s' ∧ Retires s s' t { s.tile t with core := .running }

/-- R101, R158: COMMIT waits for the queues and then presents the step at the gate, codewords left in a sink fault
STREAM_LEFTOVER, and past STEPS it faults STEP_LIMIT; HALT after a COMMIT stops the core, and faults UNCOMMITTED when an
ENQ or bin store has executed since. It meets the model's own choices of log entry 33. -/
def Claims.CommitAndHalt : Prop :=
  (∀ (s : State) (t : Nat), Ready s t (.commit t) →
    ∃ s', exec (.commit t) s = .next s' ∧
      if stepsUsedUp s t then
        FaultedWith s s' t 0x4A
      else if (s.tile t).queue = [] then
        if (s.tile t).sink0 = [] ∧ (s.tile t).sink1 = [] then
          s'.tile t = { s.tile t with core := .atGate } ∧ (∀ u, u ≠ t → s'.tile u = s.tile u) ∧
            { s' with tiles := s.tiles } = s
        else FaultedWith s s' t 0x11
      else match stuck { s.tile t with core := .draining } with
        | none => s' = s.onTile t fun x => { x with core := .draining }
        | some c => FaultedWith s s' t c) ∧
  ∀ (s : State) (t : Nat), Ready s t (.halt t) →
    ∃ s', exec (.halt t) s = .next s' ∧
      if (s.tile t).dirty = true then FaultedWith s s' t 0x0B
      else s'.tile t = { s.tile t with core := .halted } ∧ (∀ u, u ≠ t → ¬ RunsOn s t u → s'.tile u = s.tile u) ∧
        s'.reg (retiredReg t) = min (2 ^ 64 - 1) (s.reg (retiredReg t) + 1) ∧
        { s' with tiles := s.tiles, regs := s.regs, tithe := s.tithe } = s

/-- R99, R101, R158: WAITQ waits for its queues, COMMIT presents the step, HALT ends the program. -/
def Obligations.WaitqCommitAndHalt : Prop :=
  Claims.WaitqWaitsForItsQueues ∧ Claims.CommitAndHalt

/-- R98, R99, R103: the word of a Yilac instruction reads back as that instruction, every field at every value, but a
LOOP with a count where m is 0, which is no instruction. -/
def Claims.YilacWordsReadBack : Prop :=
  ∀ (i : Instr) (w : Word), encodeYilac i = some w →
    (loopWellFormed i → ∃ t, decodeYilac t w = some i.withoutParity) ∧ (¬ loopWellFormed i → ∀ t, decodeYilac t w = none)

/-- R99: a word that spells an instruction is the word of that instruction: no field of it is ignored. -/
def Claims.YilacWordsSpellOneInstruction : Prop :=
  ∀ (t : Nat) (w : Word) (i : Instr), decodeYilac t w = some i → encodeYilac i = some w

/-- R98, R99, R103: Every Yilac word reads back as its instruction, and a word that spells an instruction is its word.
-/
def Obligations.YilacWordsReadBack : Prop :=
  Claims.YilacWordsReadBack ∧ Claims.YilacWordsSpellOneInstruction

/-- R98, R99: words written out from the formats and opcodes spell their instructions, one of each format, and reserved
opcodes, function codes and non-zero reserved fields spell none. -/
def Obligations.WrittenOutWordsDecode : Prop :=
  (∀ t, decodeYilac t 0x04430000 = some (.add t 2 3 0)) ∧ (∀ t, decodeYilac t 0x08A7FFFF = some (.addi t 5 7 0xFFFF)) ∧
    (∀ t, decodeYilac t 0x48E40010 = some (.sth t 7 4 0x10 false)) ∧
    (∀ t, decodeYilac t 0x50220003 = some (.beq t 1 2 3)) ∧ (∀ t, decodeYilac t 0x6C000004 = some (.jal t 4)) ∧
    (∀ t, decodeYilac t 0x76864003 = some (.loop t 2 1 100 3)) ∧ (∀ t, decodeYilac t 0x8285ABCD = some (.enq t 5 5 0xABCD false)) ∧
    (∀ t, decodeYilac t 0x8400003F = some (.waitq t 0x3F)) ∧ (∀ t, decodeYilac t 0x88000000 = some (.commit t)) ∧
    ∀ t, decodeYilac t 0 = none ∧ decodeYilac t 0x04000013 = none ∧ decodeYilac t 0x88000001 = none ∧
      decodeYilac t 0xFFFFFFFF = none

/-! ### Engine queues -/

/-- R113, R195, R251: the oldest entry of a queue starts when no earlier entry of its queue is left, its DEPS are met
and the lattice it needs is free; otherwise nothing changes. A core whose wait now includes a stream that never moves
faults (R121, R206, R236); which streams those are is the model's reading of log entry 33. -/
def Claims.EntriesStartInOrderWhenDepsAreMet : Prop :=
  ∀ (s : State) (t q : Nat) (e : Entry) (x' : Tile), Plain s t → q < 6 → s.headEntry t q = some e → e.started = false →
    x' = { s.tile t with
      queue := (s.tile t).queue.map fun o => if o.id = e.id then { e with started := true } else o
      lattice := if State.needsLattice e = true then some q else (s.tile t).lattice } →
      (Startable (s.tile t) e → stuck x' = none →
        ∃ s', exec (.entryStart t q) s = .next s' ∧ s'.tile t = x' ∧ (∀ u, u ≠ t → s'.tile u = s.tile u) ∧
          { s' with tiles := s.tiles, pillars := s.pillars } = s) ∧
      (∀ c, Startable (s.tile t) e → stuck x' = some c →
        ∃ s', exec (.entryStart t q) s = .next s' ∧ FaultedWith s s' t c) ∧
      (¬ Startable (s.tile t) e → exec (.entryStart t q) s = .next s)

/-- R114, R174: an entry completes once it is performed, its remote writes are placed, its barn writes accepted and its
remote reads answered, and its trace record, if any, need not wait: its place is freed, the lattice it owned is released,
the other entries stay, and a step that was draining and has no entry left is presented at the gate, codewords left in a
sink being a fault (R121). Which streams of a wait never move is the model's reading of log entry 33. Nothing is said of the bin where a sync entry of a replay completes (R403). -/
def Claims.EntriesCompleteAndFreeTheirPlace : Prop :=
  ∀ (s : State) (t q : Nat) (e : Entry) (x' : Tile), Plain s t → q < 6 → s.headEntry t q = some e →
    x' = { s.tile t with
      queue := (s.tile t).queue.filter fun o => o.id ≠ e.id
      lattice := if State.needsLattice e = true then none else (s.tile t).lattice } →
      (e.performed = true → e.unplaced = 0 → e.unanswered = [] → s.tileBlocked t 2 = false →
        (stuck x' = none → (x'.core = .draining → x'.queue = [] → x'.sink0 = [] ∧ x'.sink1 = []) →
          ∃ s', exec (.entryComplete t q) s = .next s' ∧
            s'.tile t = { x' with
              cycle := (s'.tile t).cycle
              bin := (s'.tile t).bin
              binBlight := (s'.tile t).binBlight
              core := if x'.core = .draining ∧ x'.queue = [] then .atGate else x'.core } ∧
            ((q = 5 → s.replayOf t = none) →
              (s'.tile t).bin = (s.tile t).bin ∧ (s'.tile t).binBlight = (s.tile t).binBlight) ∧
            (s.tmodeOf t = 0 → (s'.tile t).cycle = (s.tile t).cycle) ∧ ∀ u, u ≠ t → s'.tile u = s.tile u) ∧
        (∀ c, stuck x' = some c → ∃ s', exec (.entryComplete t q) s = .next s' ∧ FaultedWith s s' t c) ∧
        (stuck x' = none → x'.core = .draining → x'.queue = [] → (x'.sink0 ≠ [] ∨ x'.sink1 ≠ []) →
          ∃ s', exec (.entryComplete t q) s = .next s' ∧ FaultedWith s s' t 0x11)) ∧
      (e.performed = false ∨ e.unplaced ≠ 0 ∨ e.unanswered ≠ [] ∨ s.tileBlocked t 2 = true →
        exec (.entryComplete t q) s = .next s)

/-- R113, R195, R251, R114, R174: Queue entries start in order once their dependencies are met, complete and free their
place; waits on streams that never move fault (log entry 33). -/
def Obligations.EntriesStartAndComplete : Prop :=
  Claims.EntriesStartInOrderWhenDepsAreMet ∧ Claims.EntriesCompleteAndFreeTheirPlace

/-- R112, R114: only entries that have passed the checks of ENQ ever stand in a queue, each with a number of its own: every command
keeps it so. -/
def Obligations.QueuesHoldCheckedEntriesOnly : Prop :=
  ∀ s s' : State, QueuesChecked s → step s = .next s' → QueuesChecked s'

/-- R191, R193, R202, R214 to R224, R230, R231: a started entry of BLOCK_MM, EW, SCAN, REDUCE, CONVERT, SM_MERGE or
SM_FINAL runs to its end: it is performed, and it writes the bin only in its output rows. -/
def Claims.BinEngineEntriesRunInTheirRows : Prop :=
  ∀ row ∈ engineRows, ∀ (s : State) (t : Nat) (env : Env) (e : Entry), Plain s t →
    s.headEntry t row.2.1 = some e → e.started = true → e.performed = false → field e.desc 0 1 = row.2.2.1 →
    Enqueued e →
      ∃ s', exec (row.1 t env) s = .next s' ∧ EngineRan s s' t row.2.1 e env (row.2.2.2 e.desc)

/-- R214, R216: EW on INT32 tiles computes each output word from the words of A and B at its row and column, when the
output shares no byte with an input and its rows do not overlap. -/
def Claims.ElementwiseIntegerResults : Prop :=
  ∀ fn ∈ ewIntRows, ∀ (s : State) (t : Nat) (env : Env) (e : Entry) (c : VeCmd), Plain s t →
    s.headEntry t 1 = some e → e.started = true → e.performed = false → field e.desc 0 1 = 1 → c = veCmd e.desc →
    c.itype = 2 → c.fn = fn.1 → c.ofmt = 0x11 → c.bmode = 0 → (c.rows ≤ 1 ∨ c.cols * 4 ≤ c.ds) →
    overlap (byteRange c.d c.rows c.ds (c.cols * 4)) (byteRange c.a c.rows c.as_ (c.cols * 4)) = false →
    overlap (byteRange c.d c.rows c.ds (c.cols * 4)) (byteRange c.b c.rows c.bs (c.cols * 4)) = false →
      ∃ s', exec (.ew t env) s = .next s' ∧ ∀ r k, r < c.rows → k < c.cols →
        binWord (s'.tile t) (c.d + r * c.ds + 4 * k) =
          fn.2 (binWord (s.tile t) (c.a + r * c.as_ + 4 * k)) (binWord (s.tile t) (c.b + r * c.bs + 4 * k))

/-- R191, R193, R202, R214, R215, R216, R217, R218, R219, R220, R221, R222, R223, R224, R230, R231: Tensor and vector
entries over the bin run, write their own rows only, and give the integer results of the table. -/
def Obligations.BinEnginesWriteTheirRows : Prop :=
  Claims.BinEngineEntriesRunInTheirRows ∧ Claims.ElementwiseIntegerResults

/-- R117, R118, R120: a pillar stream entry whose codewords are clean reads them in run order from its progress on, while neither the
copy engine nor the cart has an own-pillar access to make: for sink 2 all that are left go to the bin, for sink 0 or 1 what fills the
sink's buffer of 32; it is performed with the last. Or the tile faults STREAM_STARVED or STREAM_LEFTOVER (R121, R206, R236), where its
core's wait includes a stream that never moves; which streams those are is the model's reading of log entry 33. -/
def Obligations.PillarStreamReadsInRunOrder : Prop :=
  ∀ (s : State) (t : Nat) (env : Env) (e : Entry) (c : PsCmd), Plain s t → QueuesChecked s → PortFree s t 0 → env.ups = [] →
    s.headEntry t 4 = some e → e.started = true → e.performed = false → field e.desc 0 1 = 1 → c = psCmd e.desc →
    (∀ k, k < c.total → CleanAt s t (c.place k).1) →
      (c.sink = 2 → e.progress = 0 →
        (∀ j k, j < k → k < c.total →
          (c.place j).2 + 64 ≤ (c.place k).2 ∨ (c.place k).2 + 64 ≤ (c.place j).2) →
        ∃ s' x', exec (.pillarStreamRead t env) s = .next s' ∧ Settles s s' t x' ∧
          x'.queue = ((s.tile t).queue.map fun o =>
            if o.id = e.id then { e with progress := c.total, performed := true } else o) ∧
          (∀ k, k < c.total → readBytes x'.bin (c.place k).2 64 = pillarBytes s t (c.place k).1) ∧
          ∀ a, (∀ k, k < c.total → a < (c.place k).2 ∨ (c.place k).2 + 64 ≤ a) →
            SMap.look 0 x'.bin a = SMap.look 0 (s.tile t).bin a) ∧
      (c.sink < 2 → ∃ s' n, exec (.pillarStreamRead t env) s = .next s' ∧
        n = min (c.total - e.progress) (32 - (sinkOf (s.tile t) c.sink).length) ∧
        ∀ x', x' = { s.tile t with
            queue := (s.tile t).queue.map fun o =>
              if o.id = e.id then { e with progress := e.progress + n, performed := decide (c.total ≤ e.progress + n) } else o
            port := if n = 0 then (s.tile t).port else 0
            sink0 := (s.tile t).sink0 ++ (if c.sink = 0 then (List.range n).map fun i =>
              ⟨(c.place (e.progress + i)).1, ⟨pillarBytes s t (c.place (e.progress + i)).1, false⟩⟩ else [])
            sink1 := (s.tile t).sink1 ++ (if c.sink = 1 then (List.range n).map fun i =>
              ⟨(c.place (e.progress + i)).1, ⟨pillarBytes s t (c.place (e.progress + i)).1, false⟩⟩ else []) } →
          Settles s s' t x')

/-- R185, R188, R189, R203, R178: a STREAM_MM entry takes codewords from sink 0 in order; while some are wanting it takes all
that are there, and what its stores take of the activations and initial values stays with it; with the last it is performed and
writes the bin only in the rows of Y; a codebook command whose first codeword heads no row faults TE_ROWHEAD, and so does one whose
codewords hold less weight data than it needs. Or the tile faults STREAM_STARVED or STREAM_LEFTOVER (R121, R206), by the model's
reading of log entry 33. -/
def Claims.StreamMmTakesItsWeights : Prop :=
  ∀ (s : State) (t : Nat) (env : Env) (e : Entry) (c : TeCmd) (words : List SinkWord), Plain s t →
    s.headEntry t 0 = some e → e.started = true → e.performed = false → field e.desc 0 1 = 1 → Enqueued e →
    c = teCmd e.desc → c.empty = false →
    words = e.taken ++ (s.tile t).sink0.take (c.codewords - e.taken.length) →
    e.taken.length ≤ c.codewords →
      ∃ s', exec (.streamMm t env) s = .next s' ∧
        if isCq c.w = true ∧ ∃ f, words.head? = some f ∧ f.off / 64 % 16 ≠ 0 then FaultedWith s s' t 0x21
        else if words.length < c.codewords then
          ∃ x' ws, Settles s s' t x' ∧ wordsOf ws = wordsOf words ∧ x'.sink0 = [] ∧ x'.bin = (s.tile t).bin ∧
            ∃ acts inits, x'.queue = (s.tile t).queue.map fun o =>
              if o.id = e.id then { e with taken := ws, acts := e.acts ++ acts, inits := inits } else o
        else if (weightBytes (isCq c.w) [] false words).length < c.totalBytes then FaultedWith s s' t 0x21
        else ∃ x' e', Settles s s' t x' ∧ x'.sink0 = (s.tile t).sink0.drop (c.codewords - e.taken.length) ∧
          x'.queue = ((s.tile t).queue.map fun o => if o.id = e.id then e' else o) ∧ e'.performed = true ∧
          e'.desc = e.desc ∧
          ∀ a, outsideRows a [(c.y, c.rows, c.ys, c.n * outBytes c.ofmt)] →
            SMap.look 0 x'.bin a = SMap.look 0 (s.tile t).bin a

/-- R227, R228, R226: an ATTN entry takes its codewords from sink 1, all that are there while some are wanting; with the
last, or at once where the records are in the bin, it is performed and writes the bin only in its states. Or the tile faults
STREAM_STARVED or STREAM_LEFTOVER (R121, R236), by the model's reading of log entry 33. -/
def Claims.AttnTakesItsRecords : Prop :=
  ∀ (s : State) (t : Nat) (env : Env) (e : Entry) (c : AttnCmd), Plain s t → s.headEntry t 1 = some e →
    e.started = true → e.performed = false → field e.desc 0 1 = 6 → Enqueued e → c = attnCmd e.desc →
    e.taken.length ≤ c.codewords →
      ∃ s' x', exec (.attn t env) s = .next s' ∧ Settles s s' t x' ∧
        if c.nq ≠ 0 ∧ c.dim ≠ 0 ∧ e.taken.length + (s.tile t).sink1.length < c.codewords then
          x'.sink1 = [] ∧ x'.bin = (s.tile t).bin ∧
            x'.queue = (s.tile t).queue.map fun o =>
              if o.id = e.id then { e with taken := e.taken ++ (s.tile t).sink1 } else o
        else ∃ e', e'.performed = true ∧ e'.desc = e.desc ∧
          x'.queue = ((s.tile t).queue.map fun o => if o.id = e.id then e' else o) ∧
          ∀ a, outsideRows a [(c.st, 1, 0, c.nq * stateBytes c.dim)] →
            SMap.look 0 x'.bin a = SMap.look 0 (s.tile t).bin a

/-- R185, R188, R189, R203, R178, R227, R228, R226: STREAM_MM takes its weights and ATTN its records from the sink, or the tile faults
on a stream that never moves, by the reading of log entry 33. -/
def Obligations.StreamedOperandsAreTaken : Prop :=
  Claims.StreamMmTakesItsWeights ∧ Claims.AttnTakesItsRecords

/-- R242, R248, R256, R351, R120: a copy entry between the bin and the bin or own pillar runs to its end at once, while no other source
has an own-pillar access to make; any other goes on, once everything that it reads has come, until it is performed or has 512 requests
in flight; a write to another module may be refused, and faults RIDGE_UNREACH. Until then it asks for lines over the mesh, and is not
performed. -/
def Claims.CopyEntriesRun : Prop :=
  ∀ row ∈ [(Instr.copy, 1), (Instr.permute, 2)], ∀ (s : State) (t : Nat) (env : Env) (e : Entry) (c : CpCmd) (f : FarEnd),
    Plain s t → QueuesChecked s → s.headEntry t 2 = some e → e.started = true → e.performed = false →
    field e.desc 0 1 = row.2 → c = cpCmd e.desc → f = s.farEnd t c → PortFree s t 1 →
      (f.node = none → f.far ≤ 1 → NotBegun e →
        ∃ s' e', exec (row.1 t env) s = .next s' ∧ EntryGoesOn s s' t 2 e e' ∧ e'.performed = true) ∧
      (SourcesHere (s.upset env) t e (c.moves f) → e.moved = false → e.outs = [] →
        (∀ l, e.own = some l → l.length ≤ (sourceLines (c.moves f)).length) → (c.dir = 0 → f.node ≠ none → e.unanswered = [] ∧ (c.requests f).length ≤ e.progress) →
          ∃ s', exec (row.1 t env) s = .next s' ∧
            ((∃ e', EntryGoesOn s s' t 2 e e' ∧ RanOrFull e') ∨ (c.dir = 1 ∧ f.node ≠ none ∧ FaultedWith s s' t 0x50))) ∧
      (f.node = none → c.empty = false → e.moved = false → ¬ SourcesHere (s.upset env) t e (c.moves f) →
        ∃ s' e', exec (row.1 t env) s = .next s' ∧ EntryGoesOn s s' t 2 e e' ∧ e'.performed = false ∧
          (∀ l ∈ e'.got, l ∈ e.got ∨ l.1 = meshNode + 2) ∧
          ∀ d ∈ e'.asked, d ∈ e.asked ∨ OnItsWay s' (State.meshReq (.entry t e.id) .read d)) ∧
      (f.node = none → e.moved = true → UnitsLeft e →
        ∃ s' e', exec (row.1 t env) s = .next s' ∧ EntryGoesOn s s' t 2 e e' ∧ RanOrFull e')

/-- R258, R259, R260, R261: a cart entry copies and checks its whole index tensor when it starts: it faults with the code of the
first bad element; once every far element it reads has come, at once where it reads none over the mesh, it goes on until it is
performed or has 512 requests in flight. -/
def Claims.CartEntriesRun : Prop :=
  ∀ row ∈ [(Instr.gather, 1), (Instr.scatter, 2)], ∀ (s : State) (t : Nat) (env : Env) (e : Entry) (c : CtCmd),
    Plain s t → QueuesChecked s → s.headEntry t 3 = some e → e.started = true → e.performed = false →
    field e.desc 0 1 = row.2 → c = ctCmd e.desc →
      (c.empty = true → ∃ s', exec (row.1 t env) s = .next s' ∧ s'.headEntry t 3 = some { e with performed := true }) ∧
      (c.empty = false → e.progress = 0 → NotBegun e → env.binPar = [] →
        ∃ s', exec (row.1 t env) s = .next s' ∧
          match (s.upset env).indexCheck t c 0 c.count with
          | .ok ps => ∃ e', EntryGoesOn s s' t 3 e e' ∧
            e'.index = ((List.range c.count).map fun k => s.binNat t (c.idx + 4 * k) 4) ∧
            (PortFree s t 2 → (row.2 = 2 ∨ ∀ a, IndexAt.at_ a ∈ ps → a.meshDpa = none) → RanOrFull e')
          | .error f => FaultedWith s s' t f.1) ∧
      (∀ gs, gs = ((e.index.map (s.indexEntry t c)).zipIdx.map fun p => c.move p.2 p.1) → c.empty = false → e.progress ≠ 0 →
        PortFree s t 2 → UnitsLeft e → (∀ l, e.own = some l → l.length ≤ (sourceLines gs).length) →
        SourcesHere (s.upset env) t e gs →
          ∃ s' e', exec (row.1 t env) s = .next s' ∧ EntryGoesOn s s' t 3 e e' ∧ RanOrFull e')

/-- R242, R244, R247: a COPY of one row from one place of the bin to another that shares no byte with it leaves at the
destination the bytes of the source, and every other byte of the bin as it was. It meets the model's own choices of log
entry 30. -/
def Claims.CopyMovesARowOfTheBin : Prop :=
  ∀ (s : State) (t : Nat) (env : Env) (e : Entry) (c : CpCmd), Plain s t → QueuesChecked s → s.headEntry t 2 = some e →
    e.started = true → e.performed = false → NotBegun e → field e.desc 0 1 = 1 → c = cpCmd e.desc → c.far = 0 → c.offmod = false →
    c.dir = 0 → c.perm = 0 → c.padw = false → c.n1 = 1 → c.n2 = 1 →
    (c.bin + c.n0 * c.sz ≤ c.fa ∨ c.fa + c.n0 * c.sz ≤ c.bin) →
      ∃ s', exec (.copy t env) s = .next s' ∧
        (∀ i, i < c.n0 * c.sz → SMap.look 0 (s'.tile t).bin (c.bin + i) = SMap.look 0 (s.tile t).bin (c.fa + i)) ∧
        ∀ a, (a < c.bin ∨ c.bin + c.n0 * c.sz ≤ a) → SMap.look 0 (s'.tile t).bin a = SMap.look 0 (s.tile t).bin a

/-- R242, R248, R256, R351, R120, R258, R259, R260, R261, R244, R247: Copy and cart entries run; a copy moves its row of elements and
changes no other byte. -/
def Obligations.CopiesAndCartsRun : Prop :=
  Claims.CopyEntriesRun ∧ Claims.CartEntriesRun ∧ Claims.CopyMovesARowOfTheBin

/-- R271, R273, R277: a running ARRIVE whose tally is not lost and whose previous release has come advances the leaf's
arrival epoch, holds the arrival in the commit gate and is performed; until then it waits. A WAIT_TALLY is performed
once the leaf's released epoch reaches its target. -/
def Claims.ArriveAndWaitTally : Prop :=
  (∀ (s : State) (t : Nat) (e : Entry) (c : SyCmd), Plain s t → s.headEntry t 5 = some e → e.started = true →
    e.performed = false → field e.desc 0 1 = 1 → c = syCmd e.desc → s.heldWait t e = none →
    (s.padNode (paddockOf t) c.tally).lost = false →
      ∃ s', exec (.arrive t) s = .next s' ∧
        if (s.leaf t c.tally).released = (s.leaf t c.tally).arrival then
          s'.headEntry t 5 = some { e with performed := true } ∧
            (s'.leaf t c.tally).arrival = (s.leaf t c.tally).arrival + 1 ∧
            (s'.leaf t c.tally).released = (s.leaf t c.tally).released ∧
            (s'.tile t).gate.held =
              (s.tile t).gate.held ++ [.arrival c.tally ((s.leaf t c.tally).arrival + 1)] ∧
            (∀ u, u ≠ t → s'.tile u = s.tile u)
        else s'.headEntry t 5 = some { e with progress := 1 } ∧ (s'.tile t).gate = (s.tile t).gate) ∧
  ∀ (s : State) (t : Nat) (e : Entry) (c : SyCmd), Plain s t → s.headEntry t 5 = some e → e.started = true →
    e.performed = false → field e.desc 0 1 = 2 → c = syCmd e.desc → s.heldWait t e = none →
    (s.padNode (paddockOf t) c.tally).lost = false →
      ∃ s', exec (.waitTally t) s = .next s' ∧
        if serialGE 32 (s.leaf t c.tally).released.toNat
            (if c.explicit then c.epoch else (s.leaf t c.tally).arrival).toNat then
          s'.headEntry t 5 = some { e with performed := true } ∧ (s'.tile t).gate = (s.tile t).gate
        else s'.headEntry t 5 = some { e with progress := 1 }

/-- R277, R278: a sync entry whose wait reaches its TIMEOUT limit writes result 3 to its status word, or faults TIMEOUT
when STATUS is zero. -/
def Claims.SyncTimeoutEndsTheWait : Prop :=
  ∀ (s : State) (t : Nat) (e : Entry) (c : SyCmd), Plain s t → s.headEntry t 5 = some e → e.started = true →
    e.performed = false → e.progress = 1 → c = syCmd e.desc → c.timeout ≠ 0 → 0x40000 ≤ c.status ∨ c.status = 0 →
      ∃ s', exec (.syncTimeout t) s = .next s' ∧
        if c.status = 0 then FaultedWith s s' t 0x3C
        else s'.headEntry t 5 = some { e with performed := true } ∧
          leNat (readBytes (s'.tile t).crib (c.status - 0x40000) 4) = 3 ∧
          ∀ a, (a < c.status - 0x40000 ∨ c.status - 0x40000 + 16 ≤ a) →
            SMap.look 0 (s'.tile t).crib a = SMap.look 0 (s.tile t).crib a

/-- R285, R273, R277, R288: an ARRIVE of a lost tally, and a WAIT_TALLY of one whose target has not been reached, end PARTICIPANT_LOST:
the status word takes result 1, or the tile faults. A tally that is lost at its part while a release is on its way to the leaf is not
lost there yet, which is the model's reading of log entry 53. -/
def Claims.LostTalliesEndTheirWaits : Prop :=
  ∀ (s : State) (t : Nat) (e : Entry) (c : SyCmd), Plain s t → s.headEntry t 5 = some e → e.started = true →
    e.performed = false → c = syCmd e.desc → s.heldWait t e = none → (s.padNode (paddockOf t) c.tally).lost = true →
    (∀ ep p, p = TallyPart.leaf t ∨ p = .node (paddockOf t) → TallyMsg.release p c.tally ep ∉ s.tally.msgs) →
      (field e.desc 0 1 = 1 → ∃ s', exec (.arrive t) s = .next s' ∧ EndsLost s s' t e .participantLost) ∧
      (field e.desc 0 1 = 2 →
        serialGE 32 (s.leaf t c.tally).released.toNat
          (if c.explicit then c.epoch else (s.leaf t c.tally).arrival).toNat = false →
        ∃ s', exec (.waitTally t) s = .next s' ∧ EndsLost s s' t e .participantLost)

/-- R400, R425: a sync entry of a replayed step ends as the hold says that it ended before, whatever its tally or flag says now. -/
def Claims.HeldWaitsEndSyncEntries : Prop :=
  ∀ row ∈ syncRows, ∀ (s : State) (t : Nat) (e : Entry) (h : HeldWait), Plain s t → s.headEntry t 5 = some e →
    e.started = true → e.performed = false → field e.desc 0 1 = row.2 → s.heldWait t e = some h →
      ∃ s', exec (row.1 t) s = .next s' ∧
        if (syCmd e.desc).status = 0 ∧ h.result ≠ .ok then FaultedWith s s' t h.result.code
        else s'.headEntry t 5 = some { e with performed := true } ∧
          ((syCmd e.desc).status ≠ 0 →
            readBytes (s'.tile t).crib ((syCmd e.desc).status - 0x40000) h.word.length = h.word)

/-- R271, R273, R277, R278, R285, R288, R400, R425: ARRIVE counts, WAIT waits for the release of its tally, a lost tally or a timeout
ends the wait, a replay ends it as the hold says (log entry 53). -/
def Obligations.ArriveWaitAndTimeout : Prop :=
  Claims.ArriveAndWaitTally ∧ Claims.SyncTimeoutEndsTheWait ∧ Claims.LostTalliesEndTheirWaits ∧ Claims.HeldWaitsEndSyncEntries

/-- R283, R284, R279: FLAG_ADD holds its update in the commit gate and is performed, a VALUE of zero holding nothing;
FLAG_WAIT is performed once its flag has reached VALUE in serial order, and waits while it has not, but on a frozen flag, where it
ends OWNER_LOST (R287). -/
def Claims.FlagAddAndFlagWait : Prop :=
  (∀ (s : State) (t : Nat) (e : Entry) (c : SyCmd), Plain s t → s.headEntry t 5 = some e → e.started = true →
    e.performed = false → field e.desc 0 1 = 3 → c = syCmd e.desc →
      ∃ s', exec (.flagAdd t) s = .next s' ∧ s'.headEntry t 5 = some { e with performed := true } ∧
        (s'.tile t).gate.held = (s.tile t).gate.held ++
          (if c.value = 0 then []
           else [.flagAdd c.flag c.value (if c.offmod = true ∧ c.node ≠ s.node then some c.node else none)]) ∧
        s'.tally = s.tally ∧ (∀ u, u ≠ t → s'.tile u = s.tile u)) ∧
  ∀ (s : State) (t : Nat) (e : Entry) (c : SyCmd), Plain s t → s.headEntry t 5 = some e → e.started = true →
    e.performed = false → field e.desc 0 1 = 4 → c = syCmd e.desc → s.heldWait t e = none →
      ∃ s', exec (.flagWait t) s = .next s' ∧
        if serialGE 64 (s.flag c.flag).value.toNat c.value.toNat = true then
          s'.headEntry t 5 = some { e with performed := true } ∧ s'.tally = s.tally
        else if (s.flag c.flag).frozen = true then EndsLost s s' t e .ownerLost
        else s'.headEntry t 5 = some { e with progress := 1 } ∧ s'.tally = s.tally

/-- R282, R283, R287, R288: a flag takes an update from its owning gang or crew, and a host write while the host owns it, unless it
is frozen; any other is discarded and logged FLAG_STRAY; a write of its owner thaws it. That an update which left its gate before the
flag froze and comes after is discarded too is the model's choice between two clauses of R288, log entry 53. -/
def Claims.FlagsTakeUpdatesFromTheirOwner : Prop :=
  (∀ (s : State) (f : Nat) (m : FlagMsg) (rest : List FlagMsg), f < 128 → s.pllLost 36 = false →
    takeOrdered FlagMsg.src (fun m => decide (m.f = f)) [] s.tally.flagMsgs = some (m, rest) →
      ∃ s', exec (.flagUpdate f) s = .next s' ∧ s'.tally.flagMsgs = rest ∧
        if (s.flag f).frozen = false ∧ (((s.flag f).kind = 1 ∧ m.gang = some (s.flag f).ownerId) ∨
          ((s.flag f).kind = 2 ∧ m.crew = (s.flag f).ownerId)) then
          s'.flag f = { s.flag f with value := (s.flag f).value + m.v }
        else s'.flag f = s.flag f ∧ Logged s s' (.tally 16) .flagStray) ∧
  (∀ (s : State) (h f : Nat) (v : BitVec 64), f < 128 → BarReady s h (.tally 16) →
    ∃ s', exec (.flagWrite h f v) s = .next s' ∧
      if ((s.flag f).kind = 0 ∨ (s.flag f).kind = 3) ∧ (s.flag f).frozen = false then
        s'.flag f = { s.flag f with value := v }
      else Logs s s' (.tally 16) .flagStray) ∧
  ∀ (s : State) (h f : Nat) (v : BitVec 32), f < 128 → BarReady s h (.tally 16) →
    ∃ s', exec (.flagOwnerWrite h f v) s = .next s' ∧
      s'.flag f = ⟨(s.flag f).value, v.toNat % 2 ^ 16, bits v.toNat 17 16, false⟩ ∧
      { s' with tally := s.tally } = s

/-- R283, R284, R279, R282, R287, R288: FLAG_ADD and FLAG_WAIT act on flags, which take updates from their owner alone, and none while
they are frozen (log entry 53). -/
def Obligations.FlagsAreAddedWaitedForAndWritten : Prop :=
  Claims.FlagAddAndFlagWait ∧ Claims.FlagsTakeUpdatesFromTheirOwner

/-! ### The commit gate and staging -/

/-- R39, R42, R253, R271, R283: a step at the gate, sampled by no tithe, is released: with receivers the commit messages
go out and their acknowledgements are awaited; with none, or when the last acknowledgement comes, the held arrivals and
flag updates are sent in order, the step epoch and the step count advance by one, and execution passes the COMMIT. A
traced release waits while its record must wait for room (R174). A release whose tile has been reset before all acknowledgements had
come stands: the last of them sends what it held (R41). -/
def Claims.GateReleasesTheStep : Prop :=
  (∀ (s : State) (t : Nat), t < 4352 → (s.tile t).core = .atGate → (s.tile t).gate.phase = .closed →
    (s.sampled t = true ∨ s.tileBlocked t 4 = true) → exec (.gateRelease t) s = .next s) ∧
  (∀ (s : State) (t : Nat), Plain s t → (s.tile t).core = .atGate → (s.tile t).gate.phase = .closed →
    s.sampled t = false → s.tileBlocked t 4 = false → (s.tile t).gate.receivers ≠ [] → (s.tile t).gate.receivers.Nodup →
      ∃ s', exec (.gateRelease t) s = .next s' ∧
        (s'.tile t).gate = { (s.tile t).gate with phase := .acking, awaiting := (s.tile t).gate.receivers } ∧
        (s'.tile t).core = .atGate ∧ (s'.tile t).epoch = (s.tile t).epoch ∧ (s'.tile t).pc = (s.tile t).pc ∧
        s'.tally = s.tally ∧
        ∀ u, .tile u ∈ (s.tile t).gate.receivers →
          (s'.tile u).commits = (s.tile u).commits ++ [⟨.tile t, (s.tile t).epoch, false⟩]) ∧
  (∀ (s : State) (t : Nat), Plain s t → (s.tile t).core = .atGate → (s.tile t).gate.phase = .closed →
    s.sampled t = false → s.tileBlocked t 4 = false → (s.tile t).gate.receivers = [] → heldHere (s.tile t).gate.held →
    nextPc (s.tile t) ≠ 0x8000 →
      ∃ s', exec (.gateRelease t) s = .next s' ∧ (s'.tile t).epoch = (s.tile t).epoch + 1 ∧
        (s'.tile t).stepsDone = (s.tile t).stepsDone + 1 ∧ (s'.tile t).dirty = false ∧
        (s'.tile t).gate.held = [] ∧ (s'.tile t).pc = nextPc (s.tile t) ∧ (s'.tile t).g = (s.tile t).g ∧
        s'.tally.msgs = s.tally.msgs ++ heldArrivals t (s.tile t).gate.held ∧
        s'.tally.flagMsgs = s.tally.flagMsgs ++ heldFlags s t (s.tile t).gate.held) ∧
  (∀ (s : State) (t src : Nat), Plain s t → (s.tile t).core = .atGate → (s.tile t).gate.phase = .acking →
    (∀ k ∈ (s.tile t).released, State.recvName src ∉ k.awaiting) → State.recvName src ∈ (s.tile t).acks → State.recvName src ∈ (s.tile t).gate.awaiting →
    heldHere (s.tile t).gate.held → nextPc (s.tile t) ≠ 0x8000 →
      ∃ s', exec (.stageAck t src) s = .next s' ∧ (s'.tile t).acks = (s.tile t).acks.erase (State.recvName src) ∧
        if (s.tile t).gate.awaiting.erase (State.recvName src) = [] then
          (s'.tile t).epoch = (s.tile t).epoch + 1 ∧ (s'.tile t).pc = nextPc (s.tile t) ∧
            s'.tally.msgs = s.tally.msgs ++ heldArrivals t (s.tile t).gate.held
        else (s'.tile t).gate =
          { (s.tile t).gate with awaiting := (s.tile t).gate.awaiting.erase (State.recvName src) } ∧
            (s'.tile t).epoch = (s.tile t).epoch) ∧
  ∀ (s : State) (t src : Nat) (k : Release) (rest : List Release), Plain s t → (s.tile t).released = k :: rest →
    State.recvName src ∈ (s.tile t).acks → State.recvName src ∈ k.awaiting → heldHere k.held →
      ∃ s', exec (.stageAck t src) s = .next s' ∧ (s'.tile t).acks = (s.tile t).acks.erase (State.recvName src) ∧
        (s'.tile t).gate = (s.tile t).gate ∧ (s'.tile t).epoch = (s.tile t).epoch ∧
        if k.awaiting.erase (State.recvName src) = [] then
          (s'.tile t).released = rest ∧ s'.tally.msgs = s.tally.msgs ++ heldArrivals t k.held
        else (s'.tile t).released = { k with awaiting := k.awaiting.erase (State.recvName src) } :: rest

/-- R41, R253: an abort that reaches a gate before its release discards what the gate holds; one that comes after the
release has been handled changes nothing. -/
def Claims.GateAbortDiscardsHeldItems : Prop :=
  ∀ (s : State) (t : Nat), t < 4352 →
    ((s.tile t).gate.phase ≠ .closed → exec (.gateAbort t) s = .next s) ∧
    (Plain s t → (s.tile t).gate.phase = .closed → ∃ s', exec (.gateAbort t) s = .next s' ∧
      (s'.tile t).gate = { phase := .closed, held := [], receivers := [], awaiting := [] } ∧
      (s'.tile t).epoch = (s.tile t).epoch ∧ (s'.tile t).pc = (s.tile t).pc ∧ (s'.tile t).g = (s.tile t).g ∧
      s'.tally = s.tally ∧
      ∀ u, u ≠ t → .tile u ∈ (s.tile t).gate.receivers →
        ⟨.tile t, (s.tile t).epoch, true⟩ ∈ (s'.tile u).commits)

/-- R39, R42, R253, R271, R283, R41: The commit gate releases a step with all it holds, or aborts and discards it. -/
def Obligations.GatesReleaseAndAbort : Prop :=
  Claims.GateReleasesTheStep ∧ Claims.GateAbortDiscardsHeldItems

/-- R252, R255, R349: a line of a sender of this module that arrives at a receiver is merged into the staging area while
no line waits and there is room, and else waits behind the others; a waiting line is placed when there is room for it.
It meets the model's own choices of log entry 31. -/
def Claims.RemoteLinesAreStagedInOrder : Prop :=
  (∀ (s : State) (t src : Nat) (l : StageLine) (rest : List StageLine), t ≤ 4352 → s.pllLost (State.recvClock t) = false → src < 8192 →
    takeFirst (fun l => decide (l.src = .tile src)) (s.recv t).inflight = some (l, rest) →
      ∃ s', exec (.remoteWriteStage t src) s = .next s' ∧ (s'.recv t).inflight = rest ∧
        if (s.recv t).stageWait = [] ∧ s.stageFits t l = true then
          (s'.recv t).staging = stageInto l (s.recv t).staging ∧ (s'.recv t).stageWait = []
        else (s'.recv t).staging = (s.recv t).staging ∧ (s'.recv t).stageWait = (s.recv t).stageWait ++ [l]) ∧
  ∀ (s : State) (t src : Nat) (l : StageLine) (rest : List StageLine), t ≤ 4352 → s.pllLost (State.recvClock t) = false → l.src = .tile src →
    (s.recv t).stageWait = l :: rest →
      if s.stageFits t l = true then ∃ s', exec (.stageRoomFree t) s = .next s' ∧
        (s'.recv t).staging = stageInto l (s.recv t).staging ∧ (s'.recv t).stageWait = rest
      else exec (.stageRoomFree t) s = .next s

/-- R255: a remote write that has waited its limit for staging room faults its sender STAGE_FULL. It meets the model's
own choices of log entry 32. -/
def Claims.StageFullFaultsTheSender : Prop :=
  ∀ (s : State) (t u : Nat) (l : StageLine) (e : Entry), t ≤ 4352 → s.pllLost (State.recvClock t) = false → u < 4352 → l ∈ (s.recv t).stageWait →
    (∀ o ∈ (s.recv t).stageWait, o.src = .tile u → o = l) → l.src = .tile u → s.headEntry u l.q = some e →
      ∃ s', exec (.stageFull t u) s = .next s' ∧ FaultedWith s s' u 0x31

/-- R255, R33: later bytes of one step to one line replace earlier ones in the staged line; a line of another step or
another line is left alone. -/
def Claims.StagedLinesMergeByByte : Prop :=
  (∀ (o l : StageLine) (i : Nat), i < o.line.data.length →
    (o.over l).line.data.getD i 0 = if l.mask.testBit i then l.line.data.getD i 0 else o.line.data.getD i 0) ∧
  (∀ (o l : StageLine) (os : List StageLine), o.shares l = false → stageInto l (o :: os) = o :: stageInto l os) ∧
  ∀ (o l : StageLine) (os : List StageLine), o.shares l = true → stageInto l (o :: os) = o.over l :: os

/-- R252, R255, R349, R33: Lines on their way are staged in order and merge by byte; one that waits too long faults its
sender. -/
def Obligations.RemoteLinesAreStaged : Prop :=
  Claims.RemoteLinesAreStagedInOrder ∧ Claims.StageFullFaultsTheSender ∧ Claims.StagedLinesMergeByByte

/-- R253: a receiver that handles the oldest message of a sender applies, if that is a commit, the step's staged lines:
those of its bin at once, those of its pillar through the pillar's queue, and acknowledges when all are written; if it is
an abort, it discards them, and writes nothing; that those which wait for room or are on their way are among them is the model's
reading of log entry 31. The staged lines of other steps stay either way. -/
def Claims.StagedStepsAreAppliedOrDiscarded : Prop :=
  ∀ (s : State) (t src : Nat) (env : Env) (m : CommitMsg) (rest : List CommitMsg) (mine : StageLine → Bool), t < 4352 →
    s.pllLost (paddockOf t) = false → src < 4352 → src ≠ t → takeFirst (fun m => decide (m.src = Sender.tile src)) (s.tile t).commits = some (m, rest) →
    mine = (fun l => l.ofStep m.src m.epoch) →
      (m.abort = true → exec (.stageCommit t src env) s = .next s ∧ ∃ s', exec (.stageAbort t src) s = .next s' ∧
        s'.tile t = { s.tile t with
          commits := rest
          staging := (s.tile t).staging.filter fun l => !mine l
          inflight := (s.tile t).inflight.filter fun l => !mine l
          stageWait := (s.tile t).stageWait.filter fun l => !mine l } ∧
        (∀ u, u ≠ t → s'.tile u = s.tile u) ∧ s'.fieldData = s.fieldData ∧ s'.barnData = s.barnData) ∧
      (m.abort = false → exec (.stageAbort t src) s = .next s ∧ ∃ s', exec (.stageCommit t src env) s = .next s' ∧
        (s'.tile t).commits = rest ∧ (s'.tile t).staging = ((s.tile t).staging.filter fun l => !mine l) ∧
        ((∀ l ∈ (s.tile t).staging, mine l = true → ∃ a, l.dest = .bin a) →
          (s'.tile src).acks = (s.tile src).acks ++ [.tile t]) ∧
        (∀ (l : StageLine) (off k : Nat), l ∈ (s.tile t).staging → mine l = true → l.dest = .pillar off →
          s.ltileOf t = some k →
            OnItsWay s' (State.meshReq (.staged t m) (State.lineWrite l.line.data l.mask l.line.blight) (k * 2 ^ 25 + off)) ∧
              (s'.tile src).acks = (s.tile src).acks) ∧
        BinTakes s s' t ((s.tile t).staging.filter mine))

/-- R350: a COMMIT of another module applies that step's staged lines at the receiver, an ABORT discards them; other
steps' lines stay. A CACK of the step's epoch is an acknowledgement the gate awaits, the last one releasing the step. That lines on
their way are discarded too is the reading of log entry 31; that a CACK for an ABORT which the tile has sent answers that, and one that
comes late is ignored, of log entry 71. -/
def Claims.RemoteStepsCommitOrAbort : Prop :=
  (∀ (s : State) (p vc t : Nat) (env : Env) (k : Packet) (src : Sender) (mine : StageLine → Bool), k.dst = s.node →
    t = s.recvFor (k.arg 12 2) → t < 4352 → src = .remote k.src (k.arg 14 2 % 2 ^ 13) →
    mine = (fun l => l.ofStep src (BitVec.ofNat 32 (k.arg 8 4))) →
      (PacketWaits s p vc 0x11 k → ∃ s', exec (.ridgeAbort p vc) s = .next s' ∧ TakenOff s s' p k ∧
        s'.tile t = { s.tile t with
          staging := (s.tile t).staging.filter fun l => !mine l
          inflight := (s.tile t).inflight.filter fun l => !mine l
          stageWait := (s.tile t).stageWait.filter fun l => !mine l } ∧
        ∀ u, u ≠ t → s'.tile u = s.tile u) ∧
      (PacketWaits s p vc 0x10 k → ∃ s', exec (.ridgeCommit p ⟨vc, env⟩) s = .next s' ∧ TakenOff s s' p k ∧
        (s'.tile t).staging = ((s.tile t).staging.filter fun l => !mine l) ∧
        (∀ u, u ≠ t → s'.tile u = s.tile u) ∧ BinTakes s s' t ((s.tile t).staging.filter mine))) ∧
  ∀ (s : State) (p vc t : Nat) (k : Packet) (r : Receiver) (epoch : BitVec 32), PacketWaits s p vc 0x12 k →
    k.dst = s.node → t = k.arg 14 2 % 2 ^ 13 → t < 4352 → r = .remote k.src (k.arg 12 2 % 2 ^ 13) →
    epoch = BitVec.ofNat 32 (k.arg 8 4) →
      ((r, epoch) ∈ (s.tile t).aborts → ∃ s', exec (.cack p vc) s = .next s' ∧ TakenOff s s' p k ∧
        s'.tile t = { s.tile t with aborts := (s.tile t).aborts.erase (r, epoch) }) ∧
      ((r, epoch) ∉ (s.tile t).aborts → State.keptRelease (s.tile t) r (some epoch) = none → (s.tile t).epoch ≠ epoch → exec (.cack p vc) s = .next (s.popRx p k)) ∧
      ((r, epoch) ∉ (s.tile t).aborts → State.keptRelease (s.tile t) r (some epoch) = none → (s.tile t).epoch = epoch →
        (s.tile t).gate.phase = .acking → r ∈ (s.tile t).gate.awaiting →
        ((s.tile t).gate.awaiting.erase r ≠ [] → ∃ s', exec (.cack p vc) s = .next s' ∧ TakenOff s s' p k ∧
          s'.tile t = { s.tile t with
            gate := { (s.tile t).gate with awaiting := (s.tile t).gate.awaiting.erase r } }) ∧
        ((s.tile t).gate.awaiting = [r] → (s.tile t).gate.held = [] → (s.tile t).core = .atGate →
          nextPc (s.tile t) ≠ 0x8000 →
          ∃ s', exec (.cack p vc) s = .next s' ∧ TakenOff s s' p k ∧ (s'.tile t).epoch = (s.tile t).epoch + 1 ∧
            (s'.tile t).pc = nextPc (s.tile t) ∧ (s'.tile t).g = (s.tile t).g))

/-- R253, R350: Commit messages, of this module and of others, apply a step at its receivers; abort messages discard it
(log entries 31 and 71). -/
def Obligations.StagedStepsAreAppliedOrDiscarded : Prop :=
  Claims.StagedStepsAreAppliedOrDiscarded ∧ Claims.RemoteStepsCommitOrAbort

/-! ### Dispatch -/

/-- R28, R142: a doorbell no more than the ring size ahead of SQ_CONS sets SQ_PROD; that the head sheaf is read anew after it is the
model's reading of log entry 89; a CQ_HEAD not ahead of CQ_INDEX sets CQ_HEAD; any other value is ignored and logged DOORBELL_RANGE. -/
def Claims.DoorbellsSetTheirIndexOrLog : Prop :=
  (∀ (s : State) (h q : Nat) (v : BitVec 32), q < 64 → BarReady s h (.doorbell q) →
    ∃ s', exec (.doorbellWrite h q v) s = .next s' ∧
      if (v.toNat + 2 ^ 32 - s.reg (State.dbReg q 0x64)) % 2 ^ 32 ≤ 2 ^ max 4 (s.getF (State.dbReg q 0x40) 11 8) then
        s' = (s.setReg (State.dbReg q 0x60) v.toNat).setHead q .reset
      else Logs s s' (.doorbell q) .doorbellRange) ∧
  ∀ (s : State) (h q : Nat) (v : BitVec 32), q < 64 → BarReady s h (.doorbell q) →
    ∃ s', exec (.cqHeadWrite h q v) s = .next s' ∧
      if serialGT 32 v.toNat (s.reg (State.dbReg q 0x68)) then Logs s s' (.doorbell q) .doorbellRange
      else s' = s.setReg (State.dbReg q 0x6C) v.toNat

/-- R138, R143, R140: QCTRL.EN is set only over rings and a status line that lie in barn memory and are aligned, and
else logs QUEUE_CONFIG; clearing EN clears it and leaves the indices; RESET zeroes the indices when no sheaf is
incomplete, and else logs QUEUE_BUSY. It meets the model's own choices of log entry 59. -/
def Claims.QueuesAreEnabledDisabledAndReset : Prop :=
  (∀ (s : State) (h q : Nat) (v : BitVec 32), q < 64 → BarReady s h (.doorbell q) → v.getLsbD 0 = true →
    v.getLsbD 1 = false → s.getF (State.dbReg q 0x40) 0 0 = 0 →
    ∃ s', exec (.queueEnable h q v) s = .next s' ∧ s'.getF (State.dbReg q 0x40) 15 8 = bits v.toNat 15 8 ∧
      (InBarn (s.getF (State.dbReg q 0x48) 38 0) (64 * 2 ^ max 4 (bits v.toNat 11 8)) →
        InBarn (s.getF (State.dbReg q 0x50) 38 0) (32 * 2 ^ max 4 (bits v.toNat 15 12)) →
        InBarn (s.getF (State.dbReg q 0x58) 38 0) 64 →
          s'.getF (State.dbReg q 0x40) 0 0 = 1 ∧ ∀ a, a ≠ State.dbReg q 0x40 → s'.reg a = s.reg a) ∧
      (¬ (InBarn (s.getF (State.dbReg q 0x48) 38 0) (64 * 2 ^ max 4 (bits v.toNat 11 8)) ∧
          InBarn (s.getF (State.dbReg q 0x50) 38 0) (32 * 2 ^ max 4 (bits v.toNat 15 12)) ∧
          InBarn (s.getF (State.dbReg q 0x58) 38 0) 64) →
        s'.getF (State.dbReg q 0x40) 0 0 = 0 ∧ Logged s s' (.doorbell q) .queueConfig)) ∧
  (∀ (s : State) (h q : Nat) (v : BitVec 32), q < 64 → BarReady s h (.doorbell q) → v.getLsbD 0 = false →
    v.getLsbD 1 = false →
    ∃ s', exec (.queueDisable h q v) s = .next s' ∧ s'.getF (State.dbReg q 0x40) 0 0 = 0 ∧
      ∀ o ∈ [0x60, 0x64, 0x68, 0x6C], s'.reg (State.dbReg q o) = s.reg (State.dbReg q o)) ∧
  ∀ (s : State) (h q : Nat) (v : BitVec 32), q < 64 → BarReady s h (.doorbell q) → v.getLsbD 1 = true →
    ∃ s', exec (.queueReset h q v) s = .next s' ∧
      if s.reg (State.dbReg q 0x64) = s.reg (State.dbReg q 0x68) then
        ∀ o ∈ [0x60, 0x64, 0x68, 0x6C], s'.reg (State.dbReg q o) = 0
      else Logged s s' (.doorbell q) .queueBusy ∧
        ∀ o ∈ [0x60, 0x64, 0x68, 0x6C], s'.reg (State.dbReg q o) = s.reg (State.dbReg q o)

/-- R28, R142, R138, R143, R140: Doorbells move their indices or are logged; queues are enabled, disabled and reset. When a head sheaf
is read anew is the reading of log entry 89. -/
def Obligations.QueuesAndDoorbells : Prop :=
  Claims.DoorbellsSetTheirIndexOrLog ∧ Claims.QueuesAreEnabledDisabledAndReset

/-- R27, R139, R141: an open dispatcher with no sheaf in hand reads the head sheaf of every queue that could be taken and
has not been read; it takes the one that rotation reaches, once read: SQ_CONS moves on, and its checks begin. That the heads of all
queues are read ahead, and SHEAF_TAKE is given again once they have come, is the model's reading of log entry 89. -/
def Claims.HeadsAreReadAndTakenInTurn : Prop :=
  (∀ (s : State) (q p : Nat) (env : Env), q < 64 → DispatcherFree s → (s.head q).got = [] → p < 64 →
    s.headOpen p = true → s.head p = .reset →
      ∃ s' id, exec (.sheafTake q env) s = .next s' ∧ (s'.head p).asked = [(id, s.headAt p)] ∧
        OnItsWay s' (State.meshReq (.disp id) .read (s.headAt p)) ∧ s'.gangs = s.gangs ∧ s'.tiles = s.tiles) ∧
  ∀ (s : State) (q dpa : Nat) (env : Env) (bytes : List Byte), q < 64 → DispatcherFree s →
    (∀ p, p < 64 → s.headOpen p = true → s.head p ≠ .reset) → s.nextQueue = some q →
    (s.head q).got = [(dpa, ⟨bytes, false⟩)] →
      ∃ s', exec (.sheafTake q env) s = .next s' ∧ s'.lastQueue = q ∧
        s'.getF (State.dbReg q 0x64) 31 0 = (s.reg (State.dbReg q 0x64) + 1) % 2 ^ 32 ∧
        GoesOn (headTaken (s.upset env) q) s' ⟨q, s.reg (State.dbReg q 0x64), bytes, .reset⟩

/-- R149, R151, R152, R157, R170: the sheaf in hand goes on: it reads what a check needs; a check that fails rejects it with
a fault record and a REJECTED completion and forms no gang; one that passes them and forms a gang leaves that gang live on
its tiles, each with PC 0, the image and ARG in g1; its start waits where its trace record must wait for room (R174). It meets the
model's own choices of log entries 54, 58 and 89. -/
def Claims.TheSheafInHandGoesOn : Prop :=
  ∀ (s : State) (q : Nat) (env : Env) (k : Taking), q < 64 → DispatcherOpen s → s.disp.resets = [] →
    s.disp.taking = some k → k.q = q → ∃ s', exec (.sheafTake q env) s = .next s' ∧ GoesOn (s.upset env) s' k

/-- R154, R158, R165, R168, R174, R428: the sheaf of a gang completes when its gang has faulted, its other tiles stopping
first, or when it has no steps or all its tiles have halted and a snapshot that is due has been taken: its completion
comes due, and a sheaf with DISSOLVE that has not faulted frees the gang; until then, and while its trace record must wait
for room, nothing changes. A snapshot that is due begins with the area's header. The completion of a gang that has been reset comes due
once its trace record need not wait. That the other tiles stop with the row that completes the sheaf is the model's reading of log
entry 88, and which records wait is that of log entry 54. -/
def Claims.SheavesComplete : Prop :=
  ∀ (s : State) (g : Nat) (env : Env) (f : Sheaf) (ended : Prop), g < 256 → s.pllLost 36 = false → (s.gang g).sheaf = some f → f.q < 64 →
    (∀ c, (s.gang g).ending = some c →
      if s.traceBlocked (s.gang g).tmode f.trace 7 = true then exec (.sheafComplete g env) s = .next s
      else ∃ s', exec (.sheafComplete g env) s = .next s' ∧ s'.gang g = Gang.reset ∧
        (∀ t ∈ s.gangTiles g, (s'.tile t).gang = none) ∧ (QueueInBarn s f.q → Due s' f.q fun r => r = c)) ∧
    ((s.gang g).ending = none → ended = (f.steps = 0 ∨ ∀ t ∈ s.gangTiles g, (s.tile t).core = .halted) →
    (s.mayFinish g = false ∨ ((s.gang g).faulted = false ∧ ¬ ended) → exec (.sheafComplete g env) s = .next s) ∧
    (s.mayFinish g = true →
      ((s.gang g).faulted = true ∨ (ended ∧ (s.snapDue g = false ∨ (s.gang g).snap = .taken))) →
      ∃ s', exec (.sheafComplete g env) s = .next s' ∧ (s'.gang g).sheaf = none ∧
        (QueueInBarn s f.q → Due s' f.q fun r =>
          r.status = b2n (s.gang g).faulted ∧ r.cookie = f.cookie ∧ r.gang = g ∧ r.index = f.index) ∧
        ((s.gang g).faulted = true → ∀ t ∈ s.gangTiles g,
          (s'.tile t).core = .halted ∨ (s'.tile t).core = .idle ∨ (s'.tile t).core = .faulted) ∧
        ((s.gang g).faulted = false → f.dissolve = true →
          s'.gang g = Gang.reset ∧ ∀ t ∈ s.gangTiles g, (s'.tile t).gang = none)) ∧
    (s.mayFinish g = true → (s.gang g).faulted = false → ended → s.snapDue g = true → (s.gang g).snap = .none →
      ∃ s', exec (.sheafComplete g env) s = .next s' ∧ (s'.gang g).snap = .asked ∧ (s'.gang g).sheaf = some f ∧
        OnItsWay s' (State.meshReq (.snap g) .read (s.gang g).granary)))

/-- R27, R139, R141, R149, R151, R152, R157, R170, R154, R158, R165, R168: Sheaves are read and taken in turn, form
their gang or are rejected, and complete (log entries
54, 88 and 89). -/
def Obligations.SheavesAreTakenAndComplete : Prop :=
  Claims.HeadsAreReadAndTakenInTurn ∧ Claims.TheSheafInHandGoesOn ∧ Claims.SheavesComplete

/-- R172, R173, R174: a GANG_RESET of a live gang ends the gang and resets its tiles, its end alone waiting where the trace record of its
sheaf's completion must wait for room; of a gang that is not live it logs GANG_ABSENT; of the gang that the sheaf in the dispatcher's
hand names it waits; of one whose end waits it changes nothing. -/
def Claims.GangResetFreesItsTiles : Prop :=
  ∀ (s : State) (h : Nat) (v : BitVec 32), BarReady s h .dispatch → v.getLsbD 8 = true →
    ∃ s', exec (.gangReset h v) s = .next s' ∧
      if (s.disp.taking.map fun k => (sheafCmd k.bytes).gang) = some (v.toNat % 256) then
        s' = { s with disp := { s.disp with resets := s.disp.resets ++ [v.toNat % 256] } }
      else if (s.gang (v.toNat % 256)).live = true then
        if (s.gang (v.toNat % 256)).ending.isSome = true then s' = s
        else (∀ t ∈ s.gangTiles (v.toNat % 256), TileReset s s' t) ∧
          ((s'.gang (v.toNat % 256) = Gang.reset ∧ ∀ t ∈ s.gangTiles (v.toNat % 256), (s'.tile t).gang = none) ∨
            ∃ f, (s.gang (v.toNat % 256)).sheaf = some f ∧ (s'.gang (v.toNat % 256)).ending.isSome = true ∧
              s'.traceBlocked (s.gang (v.toNat % 256)).tmode f.trace 7 = true)
      else Logs s s' .dispatch .gangAbsent

/-- R134, R411: TILE.CTRL.RESET resets a tile that belongs to no live gang and serves no check as a place; of any other
it logs TILE_BUSY. -/
def Claims.TileResetNeedsAFreeTile : Prop :=
  ∀ (s : State) (h t : Nat) (v : BitVec 32), t < 4352 → BarReady s h (.tile t) → v.getLsbD 0 = true →
    ∃ s', exec (.tileReset h t v) s = .next s' ∧
      if (s.tile t).gang = none ∧ ∀ p ∈ s.tithe.steps, p.2.shadow ≠ some t ∧ p.2.referee ≠ some t then
        TileReset s s' t
      else Logs s s' (.tile t) .tileBusy

/-- R172, R173, R174, R134, R411: A gang reset frees and resets its tiles; a tile reset needs a tile that is free. -/
def Obligations.GangAndTileResets : Prop :=
  Claims.GangResetFreesItsTiles ∧ Claims.TileResetNeedsAFreeTile

/-- R171, R432, R475: EN of the fault log, the CPER ring and the trace ring is set only over a ring that lies in barn
memory aligned to its size, and else the page's cause is logged; RESTART zeroes the trace indices while EN is clear. -/
def Claims.RingsAreEnabledInBarnMemory : Prop :=
  (∀ row ∈ ringRows, ∀ (s : State) (h : Nat) (v : BitVec 32), BarReady s h row.2.2.2.2.1 → v.getLsbD 0 = true →
    s.getF row.2.1 0 0 = 0 →
      ∃ s', exec (row.1 h v) s = .next s' ∧ s'.getF row.2.1 11 8 = bits v.toNat 11 8 ∧
        (InBarn (s.getF row.2.2.1 38 0) (row.2.2.2.1 * 2 ^ max 4 (bits v.toNat 11 8)) → s'.getF row.2.1 0 0 = 1) ∧
        (¬ InBarn (s.getF row.2.2.1 38 0) (row.2.2.2.1 * 2 ^ max 4 (bits v.toNat 11 8)) →
          s'.getF row.2.1 0 0 = 0 ∧ Logged s s' row.2.2.2.2.1 row.2.2.2.2.2)) ∧
  ∀ (s : State) (h : Nat) (v : BitVec 32), BarReady s h .trace → v.getLsbD 1 = true →
    ∃ s', exec (.traceRestart h v) s = .next s' ∧
      if s.getF 0x6048 0 0 = 0 then s'.reg 0x604C = 0 ∧ s'.reg 0x6050 = 0
      else s'.reg 0x604C = s.reg 0x604C ∧ s'.reg 0x6050 = s.reg 0x6050

/-- R174, R475: the oldest trace record that need not wait leaves: towards the ring, whose write index moves on, while EN
is set and there is room; in trace modes 1 and 2 a record waits while the ring is full; one that is dropped is counted. A
fault that waited with its record is reported then. It meets the model's own choices of log entry 54. -/
def Claims.TraceRecordsGoToTheRing : Prop :=
  ∀ (s : State) (e : TraceEvent) (rest : List TraceEvent), s.traceQ = e :: rest →
    (s.getF 0x6060 0 0 = 0 → s.getF 0x6048 0 0 = 1 → s.ringFull = false → InBarn (s.getF 0x6040 38 0)
      (32 * 2 ^ max 4 (s.getF 0x6048 11 8)) →
      ∃ s', exec .traceRecord s = .next s' ∧ s'.traceQ = rest ∧
        s'.getF 0x604C 31 0 = (s.reg 0x604C + 1) % 2 ^ 32 ∧
        (∃ be data, OnItsWay s' (State.meshReq (.post none) (.partialWrite data be false false)
          (s.getF 0x6040 38 0 + 32 * (s.reg 0x604C % 2 ^ max 4 (s.getF 0x6048 11 8))))) ∧
        (e.fault = none → s'.tiles = s.tiles) ∧
        ∀ t i g, e.fault = some (t, i) → (s.tile t).gang = some g → (s.gang g).live = true → (s'.gang g).faulted = true) ∧
    (s.getF 0x6048 0 0 = 1 → s.ringFull = true → (∀ e ∈ s.traceQ, e.mode = 1 ∨ e.mode = 2) →
      exec .traceRecord s = .next s) ∧
    (s.getF 0x6060 0 0 = 0 → (s.getF 0x6048 0 0 = 0 ∨ (s.ringFull = true ∧ e.mode = 3)) →
      ∃ s', exec .traceRecord s = .next s' ∧ s'.traceQ = rest ∧ s'.barnData = s.barnData ∧
        s'.reg 0x6058 = min (2 ^ 64 - 1) (s.reg 0x6058 + 1))

/-- R171, R432, R475, R174: Record rings are enabled over barn memory; trace records go to their ring in order. -/
def Obligations.RingsAndTraceRecords : Prop :=
  Claims.RingsAreEnabledInBarnMemory ∧ Claims.TraceRecordsGoToTheRing

/-! ### Memory -/

/-- R75: a write of MODE.SEL of a paddock with a tile of a live gang has no effect but the log of MODE_BUSY. -/
def Obligations.ModesOfUsedPaddocksAreKept : Prop :=
  ∀ (s : State) (h p : Nat) (v : BitVec 32), p < 16 → BarReady s h (.paddock p) →
    (∃ g ∈ s.gangs, g.2.live = true ∧ ∃ t ∈ s.gangTiles g.1, paddockOf t = p) →
      ∃ s', exec (.modeSelect h p v) s = .next s' ∧ Logs s s' (.paddock p) .modeBusy

/-- R75, R76: MODE.SEL is written and a change begins when it differs from MODE.CUR, unless a live gang uses the
paddock, which logs MODE_BUSY; a change under way ends, MODE.CUR taking MODE.SEL, once no pillar of the paddock has an
admitted access left, while ACLK of the paddock runs (R476, log entry 83). -/
def Claims.PaddockModesChange : Prop :=
  (∀ (s : State) (h p : Nat) (v : BitVec 32), p < 16 → BarReady s h (.paddock p) →
    ∃ s', exec (.modeSelect h p v) s = .next s' ∧
      ((∃ g ∈ s.gangs, g.2.live = true ∧ ∃ t ∈ s.gangTiles g.1, paddockOf t = p) → Logs s s' (.paddock p) .modeBusy) ∧
      ((∀ g ∈ s.gangs, g.2.live = true → ∀ t ∈ s.gangTiles g.1, paddockOf t ≠ p) →
        s'.getF ((Page.paddock p).base + 0x40) 0 0 = v.toNat % 2 ∧
        s'.getF ((Page.paddock p).base + 0x40) 8 8 = s.getF ((Page.paddock p).base + 0x40) 8 8 ∧
        (s.getF ((Page.paddock p).base + 0x40) 8 8 ≠ v.toNat % 2 →
          s'.getF ((Page.paddock p).base + 0x40) 9 9 = 1) ∧
        ∀ a, a ≠ (Page.paddock p).base + 0x40 → s'.reg a = s.reg a)) ∧
  ∀ (s : State) (p : Nat), p < 16 →
    (s.getF ((Page.paddock p).base + 0x40) 9 9 = 1 → s.pllLost (16 + p) = false → (∀ x ∈ s.pillars, paddockOf x.1 = p → x.2.admitted = []) →
      ∃ s', exec (.modeSwitchDone p) s = .next s' ∧ s'.getF ((Page.paddock p).base + 0x40) 9 9 = 0 ∧
        s'.getF ((Page.paddock p).base + 0x40) 8 8 = s.getF ((Page.paddock p).base + 0x40) 0 0 ∧
        { s' with regs := s.regs } = s) ∧
    ((s.getF ((Page.paddock p).base + 0x40) 9 9 = 0 ∨ (∃ x ∈ s.pillars, paddockOf x.1 = p ∧ x.2.admitted ≠ []) ∨
      s.pllLost (16 + p) = true) →
      exec (.modeSwitchDone p) s = .next s)

/-- R72, R76, R77: at a slot beat the oldest request of the pillar queue is admitted behind those admitted before, in
FIELD mode under host panic the oldest host request ahead of any mesh request; during a mode change none is admitted, and
none while ACLK of the paddock stands still (R476, log entry 83). Said with nothing else waiting to enter the queue. -/
def Claims.SlotsAdmitTheOldestRequest : Prop :=
  ∀ (s : State) (t : Nat), t < 4352 →
    (s.getF (State.modeReg t) 9 9 = 1 ∨ s.pllLost (16 + paddockOf t) = true → exec (.slotAdmit t) s = .next s) ∧
    ∀ (r : MemReq) (rest : List MemReq), s.pllLost (16 + paddockOf t) = false → s.getF (State.modeReg t) 9 9 = 0 → s.h0.ingress = [] → s.h1.ingress = [] →
      s.mesh = [] →
      (if s.getF (State.modeReg t) 8 8 = 1 ∧ s.hostPanic = true ∧ ∃ x ∈ (s.pillar t).queue, x.isHost = true then
        takeFirst MemReq.isHost (s.pillar t).queue = some (r, rest)
       else (s.pillar t).queue = r :: rest) →
      ∃ s', exec (.slotAdmit t) s = .next s' ∧
        { s'.pillar t with owed := (s.pillar t).owed } =
          { s.pillar t with queue := rest, admitted := (s.pillar t).admitted ++ [r] } ∧
        ∀ u, u ≠ t → s'.pillar u = s.pillar u

/-- R75, R76, R72, R77: Paddock modes change once admitted accesses end; slot beats take the oldest request. -/
def Obligations.PillarModesAndSlots : Prop :=
  Claims.PaddockModesChange ∧ Claims.SlotsAdmitTheOldestRequest

/-- R64, R79, R379, R87, R253: the oldest admitted access of a pillar completes, unless the turn is an escalated gleaner
visit's: a host read of a codeword stored without an error answers its 64 bytes unmarked and changes no memory; a host
write stores its data and answers that it has; the last staged line of a commit that tile `u` applies lets the tile
acknowledge. -/
def Obligations.AdmittedAccessesComplete : Prop :=
  ∀ (s : State) (t : Nat) (r : MemReq) (rest : List MemReq), t < 4352 → (s.pillar t).admitted = r :: rest →
    s.pillarDead t = false → s.pllLost (16 + paddockOf t) = false →
    (s.gleanTurn t = true → exec (.pillarAccessDone t Env.none) s = .next s) ∧
    (s.gleanTurn t = false →
      (∀ h tag, h < 2 → r.src = .host h tag →
        (r.op = .read → CleanAt s t (r.dpa % 2 ^ 25) →
          ∃ s', exec (.pillarAccessDone t Env.none) s = .next s' ∧ (s'.pillar t).admitted = rest ∧
            (s'.host h).responses =
              (s.host h).responses ++ [(tag, .memData ⟨pillarBytes s t (r.dpa % 2 ^ 25), false⟩)] ∧
            s'.fieldData = s.fieldData ∧ s'.fieldCheck = s.fieldCheck) ∧
        ∀ data, r.op = .write data false false → data.length = 64 →
          ∃ s', exec (.pillarAccessDone t Env.none) s = .next s' ∧ (s'.pillar t).admitted = rest ∧
            (s'.host h).responses = (s.host h).responses ++ [(tag, .cmp)] ∧
            pillarBytes s' t (r.dpa % 2 ^ 25) = data ∧
            ∀ a, (a / 64 ≠ t * 2 ^ 19 + r.dpa % 2 ^ 25 / 64) → SMap.look 0 s'.fieldData a = SMap.look 0 s.fieldData a) ∧
      ∀ (u src : Nat) (m : CommitMsg) (data : List Byte), u < 4352 → src < 4352 → r.src = .staged u m → m.src = .tile src →
        m.abort = false → r.op = .write data false false → data.length = 64 → (s.tile u).applying = [(m, 1)] →
        ∃ s', exec (.pillarAccessDone t Env.none) s = .next s' ∧ (s'.pillar t).admitted = rest ∧
          pillarBytes s' t (r.dpa % 2 ^ 25) = data ∧ (s'.tile u).applying = [] ∧
          (s'.tile src).acks = (s.tile src).acks ++ [State.recvName u])

/-- R33: a write of all 64 bytes replaces the codeword and leaves it unmarked; a write of fewer bytes of a blighted
codeword merges them and leaves it blighted; no tile faults. -/
def Obligations.WritesReplaceOrKeepBlight : Prop :=
  ∀ (s : State) (loc : Loc) (cw : Bool × Nat) (data : List Byte), data.length = 64 →
    (match loc with
      | .field t off => s.pillarDead t = false ∧ cw = (false, t * 2 ^ 19 + off / 64)
      | .barn o => (s.channel (State.channelOf o)).dead = false ∧ cw = (true, o / 64) ∧
        ∀ w ∈ (s.channel (State.channelOf o)).writes, w.dpa ≠ o / 64 * 64 + 0x2000000000) →
      ((s.mergeLoc Env.none loc data (2 ^ 64 - 1) false).storedCw cw.1 cw.2 = (data, storedCheck data false) ∧
        (s.mergeLoc Env.none loc data (2 ^ 64 - 1) false).tiles = s.tiles) ∧
      ∀ (mask : Nat) (old new : List Byte), 0 < mask → mask < 2 ^ 64 - 1 →
        (classify (s.storedCw cw.1 cw.2).1 (s.storedCw cw.1 cw.2).2).cls = .blighted →
        old = (s.storedCw cw.1 cw.2).1 → new = mergeBytes mask.testBit old data →
          (s.mergeLoc Env.none loc data mask false).storedCw cw.1 cw.2 = (new, storedCheck new true) ∧
          (s.mergeLoc Env.none loc data mask false).tiles = s.tiles

/-- R32: a read that finds a codeword uncorrectable rewrites it with the blight pattern and logs the error; the next
read finds it blighted and does nothing more. -/
def Obligations.UncorrectableCodewordsAreBlightedOnce : Prop :=
  ∀ (s : State) (barn : Bool) (cw : Nat) (data : List Byte), data = (s.storedCw barn cw).1 →
    (classify (s.storedCw barn cw).1 (s.storedCw barn cw).2).cls = .uncorrectable →
      (s.readCw barn cw).1 = ⟨data, true⟩ ∧
      (s.readCw barn cw).2.storedCw barn cw = (data, storedCheck data true) ∧
      (if barn = true then Logged s (s.readCw barn cw).2 (.barn (State.channelOf (64 * cw))) .barnUe
       else Logged s (s.readCw barn cw).2 (.paddock (paddockOf (cw / 2 ^ 19))) .fieldUe) ∧
      (s.readCw barn cw).2.readCw barn cw = (⟨data, true⟩, (s.readCw barn cw).2)

/-- R60 to R64: a codeword as it is stored reads clean, or blighted where it was stored so; with one symbol in error it
is corrected to the bytes stored. -/
def Claims.CodewordsReadAsStored : Prop :=
  ∀ data : List Byte, data.length = 64 →
    classify data (storedCheck data false) = ⟨data, .clean⟩ ∧
    classify data (storedCheck data true) = ⟨data, .blighted⟩ ∧
    (∀ (i : Nat) (x : Byte), i < 64 → x ≠ 0 →
      classify (setAt data i (data.getD i 0 ^^^ x)) (storedCheck data false) = ⟨data, .corrected⟩) ∧
    ∀ (i : Nat) (x : Byte), i < 8 → x ≠ 0 →
      classify data (setAt (storedCheck data false) i ((storedCheck data false).getD i 0 ^^^ x)) = ⟨data, .corrected⟩

/-- R338, R340: the bytes of a packet read back as the packet, with no reserved header bit set, and a run of packets in
a flit's bytes is cut into the packets it was made of. -/
def Claims.PacketBytesRoundTrip : Prop :=
  ∀ k : Packet, PacketFits k → Packet.parse k.bytes = k ∧ headerClean k.bytes = true ∧
    ∀ (rest : List Byte) (n : Nat), State.cutPackets (k.bytes ++ rest) (n + 1) =
      (k :: (State.cutPackets rest n).1, (State.cutPackets rest n).2)

/-- R60, R61, R62, R63, R64, R338, R340: A codeword reads as it was stored, one symbol in error corrected; the bytes of
a packet read back as the packet. -/
def Obligations.CodewordsAndPacketsReadBack : Prop :=
  Claims.CodewordsReadAsStored ∧ Claims.PacketBytesRoundTrip

/-- R80, R81, R82, R83, R85: a refresh that falls due is issued with all that the bank owes when nothing holds the bank,
and is owed when something does, up to eight; a ninth is forced and counted. The interval that the last temperature
reading asks for takes effect, and REFRESH_MAXOWED keeps the most that a bank has owed. A pillar that is not kept takes neither row.
It meets the model's own choices of log entries 41 and 83. -/
def Claims.RefreshesAreIssuedOwedOrForced : Prop :=
  ∀ (s : State) (t b a : Nat), t < 4352 → b < 8 → a = (Page.paddock (paddockOf t)).base →
    (¬PillarKept s t → exec (.refreshDue t b) s = .next s ∧ exec (.forcedRefresh t b) s = .next s) ∧
    (PillarKept s t → ∃ s', exec (.refreshDue t b) s = .next s' ∧
      s'.getF (a + 0x44) 8 8 = b2n (SMap.look false s.st.hotNext (paddockOf t)) ∧
      (s.bankHeld t b = false → s'.owed t b = 0) ∧
      (s.bankHeld t b = true → s.owed t b < 8 → s'.owed t b = s.owed t b + 1 ∧
        s'.getF (a + 0x48) 3 0 = max (s.getF (a + 0x48) 3 0) (s.owed t b + 1)) ∧
      (s.bankHeld t b = true → s.owed t b = 8 → s'.owed t b = 8)) ∧
    (PillarKept s t → ∃ s', exec (.forcedRefresh t b) s = .next s' ∧
      (s.bankHeld t b = true → s.owed t b = 8 →
        s'.owed t b = 8 ∧ s'.reg (a + 0x50) = min (2 ^ 64 - 1) (s.reg (a + 0x50) + 1)) ∧
      (s.bankHeld t b = false ∨ s.owed t b ≠ 8 → s'.regs = s.regs))

/-- R68, R86, R87: with gleaners on and the row's bank needed by no one else, a visit goes through the 16 codewords of the
row and the next row follows, changing no codeword that is stored without an error; with gleaners off, or at a pillar that is not
kept (R442, R452, log entry 83), nothing happens. A
visit that has waited its limit runs behind the accesses admitted by then, and not before. -/
def Claims.GleanerVisitsRowByRow : Prop :=
  (∀ (s : State) (t : Nat), t < 4352 →
    s.getF ((Page.paddock (paddockOf t)).base + 0x58) 0 0 = 0 ∨ ¬PillarKept s t →
    exec (.gleanVisit t Env.none) s = .next s ∧ exec (.gleanEscalate t) s = .next s) ∧
  (∀ (s : State) (t : Nat), t < 4352 → PillarKept s t → s.getF ((Page.paddock (paddockOf t)).base + 0x58) 0 0 = 1 →
    s.getF ((Page.paddock (paddockOf t)).base + 0xC) 1 1 = 0 →
    (∀ n, (s.pillar t).gleanAdmitted = some (n + 1) → exec (.gleanVisit t Env.none) s = .next s) ∧
    ((s.pillar t).gleanAdmitted = some 0 ∨
      ((s.pillar t).gleanAdmitted = none ∧ s.bankAdmitted t ((s.pillar t).gleanRow % 8) = false ∧
        (s.pillar t).gleanRow % 8 ∉ s.banksNeeded t) →
      (∀ k, k < 16 → CleanAt s t (1024 * (s.pillar t).gleanRow + 64 * k)) →
        ∃ s', exec (.gleanVisit t Env.none) s = .next s' ∧
          (s'.pillar t).gleanRow = ((s.pillar t).gleanRow + 1) % 32768 ∧ (s'.pillar t).gleanAdmitted = none ∧
          s'.fieldData = s.fieldData ∧ s'.fieldCheck = s.fieldCheck) ∧
    ∃ s', exec (.gleanEscalate t) s = .next s' ∧
      ((s.pillar t).gleanAdmitted = none →
        s'.pillar t = { s.pillar t with gleanAdmitted := some (s.pillar t).admitted.length }) ∧
      ((s.pillar t).gleanAdmitted ≠ none → s'.pillar t = s.pillar t) ∧
      (∀ u, u ≠ t → s'.pillar u = s.pillar u) ∧ { s' with pillars := s.pillars } = s)

/-- R54, R55: a beat counter that wraps is zero and sets WRAP; a cycle counter that wraps is zero and nothing shows it.
While its clock stands still a counter counts nothing (R476). It meets the model's own choices of log entries 6 and 83. -/
def Claims.CountersWrap : Prop :=
  ∀ (s : State) (t : Nat), t < 4352 →
    (s.pllLost (16 + paddockOf t) = true → exec (.beatCounterWrap t) s = .next s) ∧
    (s.pllLost (paddockOf t) = true → exec (.cycleCounterWrap t) s = .next s) ∧
    (s.pllLost (16 + paddockOf t) = false → ∃ s', exec (.beatCounterWrap t) s = .next s' ∧ s'.pillar t = { s.pillar t with beat := 0 } ∧
      s'.getF ((Page.tile t).base + 0xA4) 0 0 = 1 ∧ (∀ a, a ≠ (Page.tile t).base + 0xA4 → s'.reg a = s.reg a) ∧
      { s' with pillars := s.pillars, regs := s.regs } = s) ∧
    (s.pllLost (paddockOf t) = false → ∃ s', exec (.cycleCounterWrap t) s = .next s' ∧ s'.tile t = { s.tile t with cycle := 0 } ∧
      (∀ u, u ≠ t → s'.tile u = s.tile u) ∧ { s' with tiles := s.tiles } = s)

/-- R80, R81, R82, R83, R85, R68, R86, R87, R54, R55: Pillar refreshes are issued, owed or forced; the gleaner goes row
by row; beat and cycle counters wrap. -/
def Obligations.RefreshGleanAndCounterWrap : Prop :=
  Claims.RefreshesAreIssuedOwedOrForced ∧ Claims.GleanerVisitsRowByRow ∧ Claims.CountersWrap

/-- R303 to R306, R309, R310, R379: a controller that accepts requests takes the one at the head of the lane whose turn it is: a
read joins its bank's queue with the write-queue entry of its codeword as it stands, a whole write of a codeword with no entry joins
the write queue and is answered. Said with nothing else waiting to enter a lane. It meets the model's own choices of log entry 40. -/
def Claims.BarnRequestsAreAccepted : Prop :=
  ∀ (s : State) (c i h tag : Nat) (r : MemReq) (rest : List MemReq), c < 64 → i < 3 → h < 2 → BarnServes s c →
    s.accepts c = true → (s.channel c).dead = false → s.lane c i = r :: rest → LaneTurn s c i →
    r.src = .host h tag → s.h0.ingress = [] → s.h1.ingress = [] → s.mesh = [] →
      (r.op = .read →
        ∃ s', exec (.barnRequestAccept c Env.none) s = .next s' ∧ s'.lane c i = rest ∧
          (∀ d, d < 3 → d ≠ i → s'.lane c d = s.lane c d) ∧ (s'.channel c).lastLane = i ∧
          (s'.channel c).reads = (s.channel c).reads ++
            [{ req := r, fwd := (s.channel c).writes.find? fun w => w.dpa = r.dpa / 64 * 64, kept := none,
               seq := (s.channel c).accepted, passed := 0 }] ∧
          (s'.channel c).writes = (s.channel c).writes) ∧
      ∀ data poison, r.op = .write data poison false → (∀ w ∈ (s.channel c).writes, w.dpa ≠ r.dpa / 64 * 64) →
        ∃ s', exec (.barnRequestAccept c Env.none) s = .next s' ∧ s'.lane c i = rest ∧
          (∀ d, d < 3 → d ≠ i → s'.lane c d = s.lane c d) ∧ (s'.channel c).lastLane = i ∧
          (s'.host h).responses = (s.host h).responses ++ [(tag, .cmp)] ∧
          (s'.channel c).writes = (s.channel c).writes ++
            [{ dpa := r.dpa / 64 * 64, line := ⟨data, poison⟩, mask := 2 ^ 64 - 1, poison, merged := true,
               seq := (s.channel c).accepted, passed := 0 }] ∧
          (s'.channel c).reads = (s.channel c).reads

/-- R309, R311: the bank picked has work that may be issued, and has a panic read whenever some bank with such work has
one; it is the first such bank in rotation from the one picked last. What a bank does next is a request passed 16 times, else its
oldest panic read, of those that may be issued, else the first of its work. It meets the model's own choices of log entry 40. -/
def Claims.BanksTakeTurns : Prop :=
  (∀ (s : State) (c b : Nat), s.pickBank c = some b →
    BankReady s c b ∧ (∀ d, d < 32 → BankReady s c d → BankPanics s c d → BankPanics s c b) ∧
    ∃ n, n < 32 ∧ b = ((s.channel c).lastBank + 1 + n) % 32 ∧
      ∀ j, j < n → BankReady s c (((s.channel c).lastBank + 1 + j) % 32) →
        BankPanics s c b ∧ ¬BankPanics s c (((s.channel c).lastBank + 1 + j) % 32)) ∧
  (∀ (s : State) (c b : Nat), b < 32 → BankReady s c b → ∃ d, s.pickBank c = some d) ∧
  ∀ (s : State) (c b : Nat) (w : State.BankWork), s.bankNext c b = some w →
    ∃ before after, s.bankWork c b = before ++ w :: after ∧
      ((s.workReady c w = true ∧ w.passedOver s = true ∧
          ∀ x ∈ before, s.workReady c x = true → x.passedOver s = false) ∨
        ((∀ x ∈ s.bankWork c b, s.workReady c x = true → x.passedOver s = false) ∧
          ((s.workReady c w = true ∧ w.panic s = true ∧ ∀ x ∈ before, s.workReady c x = true → x.panic s = false) ∨
            ((∀ x ∈ s.bankWork c b, s.workReady c x = true → x.panic s = false) ∧ before = []))))

/-- R306, R307, R309: the next read of the bank that the scheduler picks is performed: answered from the write-queue
entry it met, which counts a forward, or with the bytes the DRAM holds; no read of another bank is. It meets the model's
own choices of log entry 40. -/
def Claims.BarnReadsAreAnswered : Prop :=
  (∀ (s : State) (c b : Nat), c < 64 → b < 32 → s.pickBank c ≠ some b →
    exec (.barnReadDone c b Env.none) s = .next s) ∧
  ∀ (s : State) (c b h tag : Nat) (r : BarnRead), c < 64 → b < 32 → h < 2 → BarnServes s c →
    s.pickBank c = some b → s.bankNext c b = some (.read r) → r.req.src = .host h tag → r.req.op = .read →
      (r.fwd = none → r.kept = none → CleanBarn s r.req.dpa →
        ∃ s', exec (.barnReadDone c b Env.none) s = .next s' ∧
          (s'.channel c).reads.map (·.req) = ((s.channel c).reads.erase r).map (·.req) ∧ (s'.channel c).lastBank = b ∧
          (s'.host h).responses = (s.host h).responses ++ [(tag, .memData ⟨barnBytes s r.req.dpa, false⟩)] ∧
          s'.barnData = s.barnData ∧ s'.regs = s.regs) ∧
      ∀ w, r.fwd = some w → w.merged = true →
        ∃ s', exec (.barnReadDone c b Env.none) s = .next s' ∧
          (s'.channel c).reads.map (·.req) = ((s.channel c).reads.erase r).map (·.req) ∧ (s'.channel c).lastBank = b ∧
          (s'.host h).responses = (s.host h).responses ++ [(tag, .memData w.line)] ∧ s'.barnData = s.barnData

/-- R303, R304, R305, R306, R379, R307, R309, R310, R311: A barn controller accepts the request at the head of the lane
whose turn it is, gives its banks their turns and answers their reads. -/
def Obligations.BarnRequestsAreAcceptedAndRead : Prop :=
  Claims.BarnRequestsAreAccepted ∧ Claims.BanksTakeTurns ∧ Claims.BarnReadsAreAnswered

/-- R305, R306, R311: the merge read of a write-queue entry, when it is its bank's turn, finds its codeword without an
error and completes the entry, and the reads that wait for it, with the bytes not written. -/
def Claims.MergeReadsCompleteEntries : Prop :=
  ∀ (s : State) (c i : Nat) (w : WqEntry) (stored : List Byte), c < 64 → BarnServes s c → (s.channel c).writes[i]? = some w →
    w.merged = false → State.channelOf (w.dpa - 0x2000000000) = c →
    s.pickBank c = some (s.bankOf (w.dpa - 0x2000000000)) →
    s.bankNext c (s.bankOf (w.dpa - 0x2000000000)) = some (.merge w) →
    stored = (s.storedCw true ((w.dpa - 0x2000000000) / 64)).1 →
    (classify stored (s.storedCw true ((w.dpa - 0x2000000000) / 64)).2).cls = .clean →
    ∀ fill : WqEntry → WqEntry, (fill = fun x => if x.dpa = w.dpa ∧ x.merged = false then
        { x with line := ⟨mergeBytes (bit x.mask) stored x.line.data, x.poison⟩, merged := true } else x) →
      ∃ s', exec (.barnMergeReadDone c i Env.none) s = .next s' ∧
        (s'.channel c).writes = (s.channel c).writes.map fill ∧
        (s'.channel c).reads = (s.channel c).reads.map (fun r => { r with fwd := r.fwd.map fill }) ∧
        (s'.channel c).lastBank = s.bankOf (w.dpa - 0x2000000000) ∧ s'.barnData = s.barnData

/-- R307, R308, R311: a controller enters write drain at WQ_HI or with no read ready and leaves it at WQ_LO with one ready; in
drain it writes the oldest entry that may be written when the bank of that entry is picked for it, which moves the rotation on; when
another bank is picked, and out of drain, none. It meets the model's own choices of log entry 40. -/
def Claims.WritesDrain : Prop :=
  ∀ (s t : State) (c : Nat), c < 64 → BarnServes s c →
    (InDrain s c → t = s.onChannel c (fun ch => { ch with draining := true }) →
      ∀ (w : WqEntry) (b : Nat), (s.channel c).writes.find? (s.mayDrain c) = some w → w.line.data.length = 64 →
        b = s.bankOf (w.dpa - 0x2000000000) →
        (t.pickBank c = some b → t.bankNext c b = some (.write w) →
          ∃ s', exec (.barnWriteDrain c Env.none) s = .next s' ∧
            (s'.channel c).writes = ((s.channel c).writes.filter fun x => x.dpa ≠ w.dpa) ∧
            (s'.channel c).reads = (s.channel c).reads ∧ (s'.channel c).lastBank = b ∧
            readBytes s'.barnData (64 * ((w.dpa - 0x2000000000) / 64)) 64 = w.line.data ∧
            ∀ a, a / 64 ≠ (w.dpa - 0x2000000000) / 64 → SMap.look 0 s'.barnData a = SMap.look 0 s.barnData a) ∧
        (t.pickBank c ≠ some b → exec (.barnWriteDrain c Env.none) s = .next t)) ∧
    (¬InDrain s c → ∃ s', exec (.barnWriteDrain c Env.none) s = .next s' ∧
      s'.channel c = { s.channel c with draining := false } ∧ { s' with channels := s.channels } = s)

/-- R299, R300, R324: a BANKHASH write is ignored while the page is locked and logs BANK_HASH when the mask is not
legal; a legal one is kept, and each byte of the channel is found at the address whose bank under the new mask is the
bank it lies in. It meets the model's own choices of log entry 42. -/
def Claims.BankHashesAreWritten : Prop :=
  ∀ (s : State) (h c i : Nat) (v : BitVec 32), c < 64 → i < 5 → BarReady s h (.barn c) →
    (s.getF ((Page.barn c).base + 0xC) 2 2 = 1 → exec (.bankhashWrite h c i v) s = .next s) ∧
    (s.getF ((Page.barn c).base + 0xC) 2 2 = 0 → bits v.toNat 15 11 ≠ 2 ^ i →
      ∃ s', exec (.bankhashWrite h c i v) s = .next s' ∧ Logs s s' (.barn c) .bankHash) ∧
    (s.getF ((Page.barn c).base + 0xC) 2 2 = 0 → bits v.toNat 15 11 = 2 ^ i →
      ∃ s', exec (.bankhashWrite h c i v) s = .next s' ∧
        s'.reg ((Page.barn c).base + 0x44 + 4 * i) = v.toNat % 2 ^ 30 ∧
        (∀ a, a ≠ (Page.barn c).base + 0x44 + 4 * i → s'.reg a = s.reg a) ∧
        { s' with regs := s.regs, barnData := s.barnData, barnCheck := s.barnCheck } = s ∧
        (Memory.wf s.barnData = true → (∀ k, k < 5 → bits (s.reg ((Page.barn c).base + 0x44 + 4 * k)) 15 11 = 2 ^ k) →
          ∃ f : Nat → Nat, ∀ o, o < 2 ^ 38 → o % 64 = 0 →
            (State.channelOf o = c → s'.bankOf (f o) = s.bankOf o) ∧ (State.channelOf o ≠ c → f o = o) ∧
            State.channelOf (f o) = State.channelOf o ∧ f o % 64 = 0 ∧
            ∀ k, k < 64 → SMap.look 0 s'.barnData (f o + k) = SMap.look 0 s.barnData (o + k)))

/-- R305, R306, R307, R308, R311, R299, R300, R324: Barn writes merge and drain; a bank hash write is checked and moves
no data. -/
def Obligations.BarnWritesDrainAndHashesMove : Prop :=
  Claims.MergeReadsCompleteEntries ∧ Claims.WritesDrain ∧ Claims.BankHashesAreWritten

/-- R314, R315: barn refreshes are issued for banks with no queued request, owed up to eight and forced as those of a
pillar, and none falls due in self-refresh; REFMODE and the hot intervals take effect at a due time, the ninth among them. It meets
the model's own choices of log entry 41. -/
def Claims.BarnRefreshesAreIssuedOwedOrForced : Prop :=
  ∀ (s : State) (c b k a : Nat), c < 64 → b < 32 → BarnServes s c → k = s.refreshKey c b →
    a = (Page.barn c).base →
    ((s.channel c).selfRefresh = true → exec (.barnRefreshDue c b) s = .next s) ∧
    ((s.channel c).selfRefresh = false → ∃ s', exec (.barnRefreshDue c b) s = .next s' ∧
      (s'.channel c).allBank = decide (s.getF (a + 0x40) 2 2 = 1) ∧
      s'.getF (a + 0x60) 2 2 = b2n (s.channel c).hotNext ∧
      ((s.channel c).allBank = decide (s.getF (a + 0x40) 2 2 = 1) →
        (s.bankQueued c k = false → SMap.look 0 (s'.channel c).owed k = 0) ∧
        (s.bankQueued c k = true → SMap.look 0 (s.channel c).owed k < 8 →
          SMap.look 0 (s'.channel c).owed k = SMap.look 0 (s.channel c).owed k + 1 ∧
          s'.getF (a + 0x60) 27 24 = max (s.getF (a + 0x60) 27 24) (SMap.look 0 (s.channel c).owed k + 1)))) ∧
    ((s.channel c).selfRefresh = false → ∃ s', exec (.barnForcedRefresh c b) s = .next s' ∧
      (s'.channel c).allBank = decide (s.getF (a + 0x40) 2 2 = 1) ∧
      s'.getF (a + 0x60) 2 2 = b2n (s.channel c).hotNext ∧
      ((s.channel c).allBank = decide (s.getF (a + 0x40) 2 2 = 1) →
        (SMap.look 0 (s.channel c).owed k = 8 → s.bankQueued c k = true →
          s'.reg (a + 0x90) = min (2 ^ 64 - 1) (s.reg (a + 0x90) + 1) ∧ SMap.look 0 (s'.channel c).owed k = 8) ∧
        (SMap.look 0 (s.channel c).owed k ≠ 8 ∨ s.bankQueued c k = false → s'.reg (a + 0x90) = s.reg (a + 0x90))))

/-- R316, R317, R321: an idle channel enters self-refresh, and leaves it for a request that waits or to train, which is
counted; the patrol scrub goes on by one codeword and leaves one without an error as it is; a window ends with its count
at zero. -/
def Claims.SelfRefreshAndScrub : Prop :=
  (∀ (s : State) (c : Nat), c < 64 → BarnServes s c →
    (s.channelIdle c = true → s.reg ((Page.barn c).base + 0x58) ≠ 0 → (s.channel c).training = false →
      (s.channel c).dead = false →
      ∃ s', exec (.selfRefreshEntry c) s = .next s' ∧ s'.channel c = { s.channel c with selfRefresh := true, owed := [] } ∧
        { s' with channels := s.channels } = s) ∧
    ((s.channel c).selfRefresh = true → s.channelIdle c = false ∨ (s.channel c).training = true →
      ∃ s', exec (.selfRefreshExit c) s = .next s' ∧
        s'.channel c = { s.channel c with selfRefresh := false, owed := [] } ∧
        s'.reg ((Page.barn c).base + 0x88) = min (2 ^ 64 - 1) (s.reg ((Page.barn c).base + 0x88) + 1)) ∧
    ((s.channel c).selfRefresh = false ∨ (s.channelIdle c = true ∧ (s.channel c).training = false) →
      exec (.selfRefreshExit c) s = .next s) ∧
    (∃ s', exec (.corrWindowEnd c) s = .next s' ∧ s'.channel c = { s.channel c with window := 0 } ∧
      { s' with channels := s.channels } = s)) ∧
  ∀ (s : State) (c o : Nat), c < 64 → BarnServes s c → o = State.scrubOff c (s.channel c).scrub →
    s.getF ((Page.barn c).base + 0x40) 3 3 = 1 → (s.channel c).selfRefresh = false → (s.channel c).training = false →
    (s.channel c).dead = false → (classify (s.storedCw true (o / 64)).1 (s.storedCw true (o / 64)).2).cls = .clean →
      ∃ s', exec (.barnScrub c Env.none) s = .next s' ∧
        s'.channel c = { s.channel c with scrub := ((s.channel c).scrub + 1) % 2 ^ 26 } ∧
        { s' with channels := s.channels } = s

/-- R442, R452, R476: before boot stage 7, after a thermal trip and while BCLK of its stack stands still, a controller takes none of
its rows. It meets the model's own choice of log entry 83. -/
def Claims.BarnRowsStandStill : Prop :=
  ∀ (s : State) (c b i : Nat), c < 64 → b < 32 → ¬BarnServes s c → ∀ row ∈ barnRows c b i, exec row s = .next s

/-- R321, R322, R323: a channel being retrained empties its queues and serves again when an attempt succeeds; after two
failures it is DEAD and logs TRAIN_FAIL. -/
def Claims.BarnRetrainsEndServingOrDead : Prop :=
  ∀ (s : State) (c : Nat) (ok1 ok2 : Bool), c < 64 → s.pllLost (32 + c / 16) = false →
    (s.channel c).dead = false → (s.channel c).training = true →
    ∃ s', exec (.barnRetrain c ok1 ok2) s = .next s' ∧ (s'.channel c).training = false ∧ (s'.channel c).reads = [] ∧
      (s'.channel c).writes = [] ∧ (s'.channel c).selfRefresh = false ∧ (s'.channel c).window = 0 ∧
      (s'.channel c).dead = !(ok1 || ok2) ∧
      ((ok1 || ok2) = false → s.getF ((Page.barn c).base + 0x14) 31 31 = 0 →
        (s.reg ((Page.barn c).base + 0x1C)).testBit 3 = false → s'.getF ((Page.barn c).base + 0x14) 31 31 = 1)

/-- R314, R315, R316, R317, R321, R322, R323, R442, R452, R476: Barn refresh, self-refresh and scrub act as stated, and not
before stage 7, after a thermal trip or without their clock; a retrain ends serving or DEAD. -/
def Obligations.BarnUpkeepAndRetrain : Prop :=
  Claims.BarnRefreshesAreIssuedOwedOrForced ∧ Claims.SelfRefreshAndScrub ∧ Claims.BarnRowsStandStill ∧
    Claims.BarnRetrainsEndServingOrDead

/-- R57, R296: every step from memories in canonical form leaves them so. -/
def Obligations.StepsKeepTheMemoriesCanonical : Prop :=
  ∀ s s' : State, MemoriesCanonical s → step s = .next s' → MemoriesCanonical s'

/-! ### Host ports -/

/-- R374, R376, R379, R381, R384: a CXL.mem request that accesses memory, at a head where CXL.mem is enabled, is
counted. One that no committed decoder matches, or whose range is not active, is logged and answered; any other goes to
its pillar queue, or to the host lane of its channel, while that holds fewer than 16 and no staged line waits at the
pillar's stop and the clocks of the crossing to it run, and else stays in the ingress buffer. With 512 held none is taken, and none
while HCLK stands still. Said with nothing else waiting. It meets the model's own choices of log entries 43, 45 and 83. -/
def Claims.MemoryRequestsAreRoutedOrRefused : Prop :=
  ∀ (s : State) (h tag a : Nat) (i : Instr) (op : MemOp), MemCommand h tag a i op → h < 2 → s.memUp h = true →
    (512 ≤ (s.host h).ingress.length ∨ s.pllLost 36 = true → exec i s = .next s) ∧
    (s.pllLost 36 = false → s.h0.ingress = [] → s.h1.ingress = [] → s.mesh = [] →
      ∃ s', exec i s = .next s' ∧ CountedAt s s' (requestsReg h) ∧
        match State.decodeHpa (s.host h) a with
        | none => Logged s s' (.host h) .decodeMiss ∧ s'.out.getLast? = some (.mem h tag (refusedAnswer op) .noOp) ∧
          s'.pillars = s.pillars ∧ s'.channels = s.channels
        | some dpa =>
          if s.rangeActive dpa = false then
            Logged s s' (.host h) .notReady ∧ s'.out.getLast? = some (.mem h tag (refusedAnswer op) .noOp) ∧
              s'.pillars = s.pillars ∧ s'.channels = s.channels
          else ∀ r, r = ⟨.host h tag, op, dpa / 64 * 64, false⟩ → dpa < 0x6000000000 →
            s'.out = s.out ∧
            if dpa < 0x2000000000 then
              (if s.crossingRuns r = true ∧ (s.pillar (s.ptileOf (dpa / 2 ^ 25))).queue.length < 16 ∧
                  (s.tile (s.ptileOf (dpa / 2 ^ 25))).stageWait = [] then
                (s'.pillar (s.ptileOf (dpa / 2 ^ 25))).queue = (s.pillar (s.ptileOf (dpa / 2 ^ 25))).queue ++ [r] ∧
                  (s'.host h).ingress = []
              else (s'.host h).ingress = [.access r] ∧ s'.pillars = s.pillars)
            else
              (if s.crossingRuns r = true ∧ (s.channel (State.channelOf (dpa - 0x2000000000))).lane0.length < 16 then
                (s'.channel (State.channelOf (dpa - 0x2000000000))).lane0 =
                  (s.channel (State.channelOf (dpa - 0x2000000000))).lane0 ++ [r] ∧ (s'.host h).ingress = []
              else (s'.host h).ingress = [.access r] ∧ s'.channels = s.channels))

/-- R376, R379, R386: MemInv, MemInvNT and MemClnEvct are answered Cmp without a memory access, MemSpecRd is dropped, any
other opcode is logged CXL_PROTO, once they reach the front of the buffer, here at once as nothing else waits; the oldest
completed access is answered with a MetaField of No-Op, and one whose data are marked counts in HOST.POISON_TX. -/
def Claims.RequestsWithoutMemoryAndResponses : Prop :=
  (∀ (s : State) (h tag : Nat) (a : BitVec 64), h < 2 → s.memUp h = true → s.pllLost 36 = false →
    s.h0.ingress = [] → s.h1.ingress = [] → s.mesh = [] →
    (∀ i ∈ [Instr.memInv h tag a, .memInvNt h tag a, .memClnEvct h tag a],
      ∃ s', exec i s = .next s' ∧ s'.out = s.out ++ [.mem h tag .cmp .noOp] ∧ CountedAt s s' (requestsReg h) ∧
        { s' with regs := s.regs, out := s.out, lastSource := s.lastSource, lastHead := s.lastHead } = s) ∧
    (∃ s', exec (.memSpecRd h tag a) s = .next s' ∧ CountedAt s s' (requestsReg h) ∧
      { s' with regs := s.regs, lastSource := s.lastSource, lastHead := s.lastHead } = s) ∧
    ∀ opcode : BitVec 4, ∃ s', exec (.cxlProto h tag opcode) s = .next s' ∧ Logged s s' (.host h) .cxlProto ∧
      s'.out.getLast? = some (.cxlUnsupported h tag) ∧ s'.pillars = s.pillars ∧ s'.channels = s.channels) ∧
  ∀ (s : State) (h tag : Nat) (a : MemAnswer) (rest : List (Nat × MemAnswer)), h < 2 → s.headUp h = true →
    s.pllLost 36 = false → (s.host h).responses = (tag, a) :: rest →
      ∃ s', exec (.hostMemResponse h) s = .next s' ∧ s'.out = s.out ++ [.mem h tag a .noOp] ∧
        (s'.host h).responses = rest ∧
        (match a with
        | .memData l => if l.blight = true then CountedAt s s' ((Page.host h).base + 0x50) else s'.regs = s.regs
        | .cmp => s'.regs = s.regs)

/-- R374, R376, R379, R381, R384, R386: CXL.mem requests are decoded and routed or refused; responses are sent. -/
def Obligations.HostRequestsAreRoutedAndAnswered : Prop :=
  Claims.MemoryRequestsAreRoutedOrRefused ∧ Claims.RequestsWithoutMemoryAndResponses

/-- R310: a request that has waited its limit in a host or ridge lane, or as an accepted read of that lane, is a panic
request from then on; the others stay as they are. -/
def Claims.WaitingRequestsBecomePanicRequests : Prop :=
  ∀ (s : State) (c lane i : Nat), c < 64 → lane < 2 → BarnServes s c →
    (i < (s.lane c lane).length → ∃ s', exec (.hostRequestAge c lane i) s = .next s' ∧
      (s'.lane c lane)[i]? = (s.lane c lane)[i]?.map (fun r => { r with aged := true }) ∧
      (∀ j, j ≠ i → (s'.lane c lane)[j]? = (s.lane c lane)[j]?) ∧ (s'.channel c).reads = (s.channel c).reads ∧
      ∀ d, d ≠ c → s'.channel d = s.channel d) ∧
    ∀ r, ((s.channel c).reads.filter fun x => x.req.lane = lane)[i]? = some r →
      ∃ s', exec (.hostRequestAge c lane ((s.lane c lane).length + i)) s = .next s' ∧
        (s'.channel c).reads =
          ((s.channel c).reads.map fun x => if x = r then { x with req := { x.req with aged := true } } else x) ∧
        (∀ j, s'.lane c j = s.lane c j) ∧ ∀ d, d ≠ c → s'.channel d = s.channel d

/-- R382, R383: a commit request that meets every condition commits the decoder; one that does not is reported and
logged DECODE_CONFIG; a committed decoder locked on commit stays. -/
def Claims.DecodersCommitWhenAllowed : Prop :=
  ∀ (s : State) (h d : Nat) (r : HdmRequest), h < 2 → d < 2 → BarReady s h (.host h) →
    ∃ s', exec (.hdmCommit h d r) s = .next s' ∧ decoderOf (s'.host h) (1 - d) = decoderOf (s.host h) (1 - d) ∧
      if (decoderOf (s.host h) d).committed = true ∧ (decoderOf (s.host h) d).cfg.lockOnCommit = true then s' = s
      else (HdmAllowed (s.host h) d r → decoderOf (s'.host h) d = ⟨true, false, r⟩ ∧ s'.regs = s.regs) ∧
        (¬ HdmAllowed (s.host h) d r →
          decoderOf (s'.host h) d = ⟨false, true, r⟩ ∧ Logged s s' (.host h) .decodeConfig)

/-- R372, R373, R368: a link that finishes training is up, and CXL.mem is enabled at 64 or 32 GT/s and x16 or x8 alone;
a port reset empties that head alone; a function level reset touches its CXL.io state and MSI-X settings alone, and of the configuration space
keeps the enable of CXL.mem and the bases of the ranges. It meets the model's own choices of log entries 44 and 90. -/
def Claims.LinksComeUpAndPortsReset : Prop :=
  (∀ (s : State) (h width : Nat) (rate : LinkRate) (f : Bool), h < 2 → width < 32 →
    s.getF ((Page.host h).base + 0x40) 2 0 = 1 →
      ∃ s', exec (.hostLinkUp h rate width f) s = .next s' ∧ s'.headUp h = true ∧
        (if rate ≠ .below32 ∧ (width = 16 ∨ width = 8) then s'.memUp h = true ∧ s'.out = s.out
         else s'.memUp h = false ∧ Logged s s' (.host h) .linkDegraded)) ∧
  (∀ (s : State) (h : Nat) (why : PortReset), h < 2 → s.headUp h = true → (why = .perst1 → h = 1 ∧ s.st.powered = true ∧ s.st.thermtrip = false) →
    ∃ s', exec (.hostPortReset h why) s = .next s' ∧ (s'.host h).ingress = [] ∧ (s'.host h).responses = [] ∧
      (s'.host h).hdm0 = .reset ∧ (s'.host h).hdm1 = .reset ∧ (s'.host h).msixPending = [] ∧
      (s'.host h).msixEnable = false ∧
      s'.getF ((Page.host h).base + 0x40) 2 0 = (if why = .perst1 then 3 else 1) ∧
      s'.host (1 - h) = s.host (1 - h) ∧ s'.fieldData = s.fieldData ∧ s'.barnData = s.barnData ∧ s'.tiles = s.tiles) ∧
  ∀ (s : State) (h : Nat), h < 2 → s.headUp h = true → s.pllLost 36 = false →
    ∃ s', exec (.flr h) s = .next s' ∧ (s'.host h).msixEnable = false ∧ (s'.host h).msixPending = [] ∧
      (s'.host h).hdm0 = (s.host h).hdm0 ∧ (s'.host h).ingress = (s.host h).ingress ∧
      (s'.host h).responses = (s.host h).responses ∧
      (∀ a, flrKeeps a → SMap.look 0 (s'.host h).headRegs a = SMap.look 0 (s.host h).headRegs a) ∧
      { s' with h0 := s.h0, h1 := s.h1, regs := s.regs } = s

/-- R394: a vector whose pending bit is set is sent when its mask is cleared, while MSI-X is enabled and the function is
not masked. It meets the model's own choices of log entry 15. -/
def Claims.UnmaskingSendsAPendingVector : Prop :=
  ∀ (s : State) (h n : Nat) (v : BitVec 32), n < 72 → BarReady s h (.host h) → v.getLsbD 0 = false →
    ∃ s', exec (.msixUnmask h n v) s = .next s' ∧ s'.vectorMasked h n = (s.host h).functionMask ∧
      if n ∈ (s.host h).msixPending ∧ (s.host h).msixEnable = true ∧ (s.host h).functionMask = false then
        s'.out = s.out ++ [.msix h n] ∧ (s'.host h).msixPending = (s.host h).msixPending.erase n
      else s'.out = s.out ∧ (s'.host h).msixPending = (s.host h).msixPending

/-- R310, R382, R383, R372, R373, R368, R394: Aged requests panic, HDM decoders commit, host links come up and reset,
unmasking sends a pending vector. -/
def Obligations.HostPanicDecodersLinksAndVectors : Prop :=
  Claims.WaitingRequestsBecomePanicRequests ∧ Claims.DecodersCommitWhenAllowed ∧ Claims.LinksComeUpAndPortsReset ∧ Claims.UnmaskingSendsAPendingVector

/-- R389, R390: the event commands: records are returned oldest first and stay; all of a log, or its oldest by handle,
are cleared; the interrupt policy is set and returned. It meets the model's own choices of log entry 46. -/
def Claims.MailboxEventCommands : Prop :=
  ∀ (s : State) (h : Nat) (log : BitVec 8), h < 2 → MailReady s h → log.toNat < 4 →
    (∃ s' p, exec (.getEventRecords h log) s = .next s' ∧ Mailed s s' h 0 p ∧ s'.events = s.events ∧
      field p 20 2 = min 15 (SMap.look [] s.events.recs log.toNat).length ∧
      ∀ e, (SMap.look [] s.events.recs log.toNat).head? = some e → field p 52 2 = e.handle % 2 ^ 16) ∧
    (∀ handles, ∃ s', exec (.clearEventRecords h log true handles) s = .next s' ∧ Mailed s s' h 0 [] ∧
      SMap.look [] s'.events.recs log.toNat = []) ∧
    (∀ handles, ∃ s', exec (.clearEventRecords h log false handles) s = .next s' ∧
      if ((SMap.look [] s.events.recs log.toNat).take handles.length).map (fun r => BitVec.ofNat 16 r.handle) = handles then
        Mailed s s' h 0 [] ∧
          SMap.look [] s'.events.recs log.toNat = (SMap.look [] s.events.recs log.toNat).drop handles.length
      else s'.events = s.events ∧ ∃ c, c ≠ 0 ∧ Mailed s s' h c []) ∧
    (∃ s', exec (.getEventInterruptPolicy h) s = .next s' ∧ Mailed s s' h 0 (s.host h).policy) ∧
    ∀ p : List Byte, p.length = 4 → (∀ b ∈ p, b.toNat % 4 ≤ 1) →
      ∃ s', exec (.setEventInterruptPolicy h p) s = .next s' ∧ (s'.host h).policy = p ∧ Mailed s s' h 0 []

/-- R389: what the other commands report: the one supported log and its bytes, 384 GiB of volatile capacity in units of
256 MiB, no partition, the hottest die, the alert settings last set, of which a command changes those that it marks as given; any opcode not
listed returns Unsupported. It meets the model's own choices of log entry 46. -/
def Claims.MailboxReportsTheDevice : Prop :=
  ∀ (s : State) (h : Nat), h < 2 → MailReady s h →
    (∃ s' p, exec (.getSupportedLogs h) s = .next s' ∧ Mailed s s' h 0 p ∧ field p 0 2 = 1 ∧
      (p.drop 8).take 16 = State.uuidCel ∧ field p 24 4 = State.celBytes.length) ∧
    (∀ u off len, beBytes 16 u.toNat = State.uuidCel → off.toNat + len.toNat ≤ State.celBytes.length →
      ∃ s', exec (.getLog h u off len) s = .next s' ∧
        Mailed s s' h 0 ((State.celBytes.drop off.toNat).take len.toNat)) ∧
    (∃ s' p, exec (.identifyMemoryDevice h) s = .next s' ∧ Mailed s s' h 0 p ∧
      field p 16 8 * 2 ^ 28 = 384 * 2 ^ 30 ∧ field p 24 8 = field p 16 8 ∧ field p 32 8 = 0) ∧
    (∃ s' p, exec (.getPartitionInfo h) s = .next s' ∧ Mailed s s' h 0 p ∧ field p 0 8 * 2 ^ 28 = 384 * 2 ^ 30 ∧
      field p 8 8 = 0) ∧
    (∃ s' p, exec (.getHealthInfo h) s = .next s' ∧ Mailed s s' h 0 p ∧
      field p 4 2 = State.hottest s.st.temps % 2 ^ 16) ∧
    (∃ s' p, exec (.getAlertConfiguration h) s = .next s' ∧ Mailed s s' h 0 p ∧
      p.drop 8 = (padTo 12 s.st.alertCfg).drop 4) ∧
    (∀ cfg : List Byte, cfg.length = 12 → ∃ s', exec (.setAlertConfiguration h cfg) s = .next s' ∧
      s'.st.alertCfg.length = 12 ∧ (∀ r ∈ alertRows,
        (s'.st.alertCfg.drop r.2.1).take r.2.2 =
          ((if (cfg.getD 0 0).getLsbD r.1 = true then cfg else padTo 12 s.st.alertCfg).drop r.2.1).take r.2.2 ∧
        (s'.st.alertCfg.getD 1 0).getLsbD r.1 =
          ((if (cfg.getD 0 0).getLsbD r.1 = true then cfg else padTo 12 s.st.alertCfg).getD 1 0).getLsbD r.1) ∧
      Mailed s s' h 0 []) ∧
    ∀ op : BitVec 16, op.toNat ∉ State.celRows.map (·.1) → ∃ s', exec (.mailboxUnsupported h op) s = .next s' ∧
      Mailed s s' h 3 [] ∧ s'.regs = s.regs ∧ s'.st = s.st

/-- R389, R33, R63: Inject Poison and Clear Poison send their write over the mesh, and the mailbox is busy until it has been made, in
the pillar or by the barn controller that accepts it. Inject Poison leaves the codeword's data with the check bytes of a blighted
codeword; Clear Poison stores the 64 bytes given with those of an unmarked one; the command then completes. It meets the model's
own choices of log entries 39 and 46. -/
def Claims.PoisonIsInjectedAndCleared : Prop :=
  (∀ (s : State) (h : Nat) (dpa : BitVec 64), h < 2 → MailReady s h → dpa.toNat % 64 = 0 → dpa.toNat < 0x6000000000 →
    (∃ s', exec (.injectPoison h dpa Env.none) s = .next s' ∧ (s'.host h).mailBusy = true ∧
      OnItsWay s' ⟨.mail h, .mark, dpa.toNat, false⟩) ∧
    ∀ data : BitVec 512, ∃ s', exec (.clearPoison h dpa ⟨data, Env.none⟩) s = .next s' ∧ (s'.host h).mailBusy = true ∧
      OnItsWay s' ⟨.mail h, .write (leBytes 64 data.toNat) false false, dpa.toNat, false⟩) ∧
  (∀ (s : State) (t h : Nat) (r : MemReq) (rest : List MemReq), t < 4352 → h < 2 → s.pllLost (16 + paddockOf t) = false →
    (s.pillar t).admitted = r :: rest → s.gleanTurn t = false → CleanAt s t (r.dpa % 2 ^ 25) → r.src = .mail h →
    (s.host h).mailBusy = true →
      (r.op = .mark → ∃ s', exec (.pillarAccessDone t Env.none) s = .next s' ∧ Mailed s s' h 0 [] ∧
        s'.storedCw false (t * 2 ^ 19 + r.dpa % 2 ^ 25 / 64) =
          (pillarBytes s t (r.dpa % 2 ^ 25), storedCheck (pillarBytes s t (r.dpa % 2 ^ 25)) true)) ∧
      ∀ data, r.op = .write data false false → data.length = 64 →
        ∃ s', exec (.pillarAccessDone t Env.none) s = .next s' ∧ Mailed s s' h 0 [] ∧
          s'.storedCw false (t * 2 ^ 19 + r.dpa % 2 ^ 25 / 64) = (data, storedCheck data false)) ∧
  ∀ (s : State) (c i h : Nat) (r : MemReq) (rest : List MemReq), c < 64 → i < 3 → h < 2 → BarnServes s c →
    s.accepts c = true → (s.channel c).dead = false → s.lane c i = r :: rest → LaneTurn s c i → r.src = .mail h →
    (s.host h).mailBusy = true → (∀ w ∈ (s.channel c).writes, w.dpa ≠ r.dpa / 64 * 64) →
      (r.op = .mark → ∃ s' w, exec (.barnRequestAccept c Env.none) s = .next s' ∧ Mailed s s' h 0 [] ∧
        (s'.channel c).writes = (s.channel c).writes ++ [w] ∧ w.dpa = r.dpa / 64 * 64 ∧ w.mask = 0 ∧ w.poison = true ∧
        w.merged = false) ∧
      ∀ data, r.op = .write data false false → ∃ s' w, exec (.barnRequestAccept c Env.none) s = .next s' ∧
        Mailed s s' h 0 [] ∧ (s'.channel c).writes = (s.channel c).writes ++ [w] ∧ w.dpa = r.dpa / 64 * 64 ∧
        w.line = ⟨data, false⟩ ∧ w.merged = true

/-- R17, R389: the doorbell of a mailbox is in BAR0: its write ends a half access of a 64-bit register that head `h` has pending, and
logs ACCESS_WIDTH. -/
def Claims.MailboxDoorbellsEndHalves : Prop :=
  ∀ (s : State) (h lo : Nat) (v : BitVec 32), h < 2 → s.headUp h = true → s.inD0 h = true → s.pllLost 36 = false →
    (s.host h).pendingLow = some (lo, v) → lo ≠ 0x3C200 →
      ∀ i ∈ [Instr.getSupportedLogs h, Instr.getEventInterruptPolicy h, Instr.getPartitionInfo h],
        ∃ s', exec i s = .next s' ∧ (s'.host h).pendingLow = none ∧ (s'.host h).readLatch = none ∧
          Logged s s' .global .accessWidth

/-- R389, R390, R33, R63, R17: Mailbox commands handle events, report the device, and inject and clear poison; their
doorbell is a BAR0 access. -/
def Obligations.MailboxCommandsAreAnswered : Prop :=
  Claims.MailboxEventCommands ∧ Claims.MailboxReportsTheDevice ∧ Claims.PoisonIsInjectedAndCleared ∧
    Claims.MailboxDoorbellsEndHalves

/-- R391, R392, R446, R447, R450: the DOE mailbox lists its head's protocols and returns the CDAT; the SPDM responder
reports version 1.3, its capabilities, P-521 and SHA-512, the chain of slot 0 and M0 to M7; before the algorithms are
settled, and once the debug port has been opened, requests that need the identity are errors, and so is any request that
is not listed. CHALLENGE and a GET_MEASUREMENTS that asks for it are signed with the identity key over the transcript. It meets the
model's own choices of log entries 46, 47 and 48. -/
def Obligations.DoeAndSpdmAnswer : Prop :=
  (∀ (s : State) (h : Nat) (i : BitVec 8) (vt : Nat × Nat), h < 2 → s.headHears h = true →
    (State.doeProtocols h)[i.toNat]? = some vt → ∃ s' p, exec (.doeDiscovery h i) s = .next s' ∧
      s'.out = s.out ++ [.doe h p] ∧ field p 8 2 = vt.1 ∧ field p 10 1 = vt.2) ∧
  (∀ (s : State) (h : Nat) (i : BitVec 16) (e : List Byte), h < 2 → s.headHears h = true →
    (State.cdatHeader :: State.cdatBody)[i.toNat]? = some e → ∃ s' p, exec (.tableAccess h i) s = .next s' ∧
      s'.out = s.out ++ [.doe h p] ∧ e <:+ p) ∧
  (∀ (s : State) (tr : Transport), s.spdmReach tr = true →
    (∃ s', exec (.getVersion tr) s = .next s' ∧ SpdmAnswers s s' tr (·.vca) [0x10, 0x04, 0, 0, 0, 1, 0x00, 0x13] ∧
      (s'.spdm tr).phase = .versioned) ∧
    (∀ p : List Byte, (s.spdm tr).phase = .versioned → p.length = 16 → ∃ s' r, exec (.getCapabilities tr p) s = .next s' ∧
      SpdmAnswers s s' tr (·.vca) r ∧ field r 8 4 = 0x16 ∧ (s'.spdm tr).phase = .capable) ∧
    (∀ p : List Byte, (s.spdm tr).phase = .capable → 28 ≤ p.length → ∃ s' r, exec (.negotiateAlgorithms tr p) s = .next s' ∧
      SpdmAnswers s s' tr (·.vca) r ∧ field r 12 4 = (field p 4 4 &&& 0x100) ∧ field r 16 4 = (field p 8 4 &&& 0x4) ∧
      (s'.spdm tr).phase = .negotiated) ∧
    (s.opened = false → (s.spdm tr).phase = .negotiated →
      (∃ s', exec (.getDigests tr) s = .next s' ∧
        SpdmAnswers s s' tr (·.certs) ([0x13, 0x01, 1, 1] ++ sha512 s.certChain)) ∧
      (∀ off len : BitVec 16, off.toNat < s.certChain.length → ∃ s' r, exec (.getCertificate tr 0 off len) s = .next s' ∧
        SpdmAnswers s s' tr (·.certs) r ∧ r.drop 8 = (s.certChain.drop off.toNat).take len.toNat) ∧
      (∀ nonce, s.st.key = none → ∃ s', exec (.challenge tr 0 0 nonce) s = .next s' ∧ SpdmErrors s s' tr 0x03 0) ∧
      (∀ (nonce : BitVec 256) (d : BitVec 521), s.st.key = some d →
        ∃ s' r n, exec (.challenge tr 0 0 nonce) s = .next s' ∧ r.take 4 = [0x13, 0x03, 0, 1] ∧
          (r.drop 4).take 64 = sha512 s.certChain ∧
          s'.out = s.out ++ [.spdm tr (r ++ ecdsaSign d.toNat (spdmSecret n)
            (spdmSigned "responder-challenge_auth signing" ((s.spdm tr).vca ++ (s.spdm tr).certs ++
              ([0x13, 0x83, 0, 0] ++ leBytes 32 nonce.toNat) ++ r)))] ∧
          (s'.spdm tr).vca = (s.spdm tr).vca ∧ (s'.spdm tr).certs = [] ∧ (s'.spdm tr).meas = []) ∧
      ∀ (k : Nat) (nonce : BitVec 256), k < 8 →
        (∃ s' r, exec (.getMeasurements tr false (BitVec.ofNat 8 (k + 1)) 0 nonce) s = .next s' ∧
          SpdmAnswers s s' tr (·.meas) r ∧ (r.drop 15).take 64 = s.measBytes k) ∧
        ∀ d : BitVec 521, s.st.key = some d →
          ∃ s' r n, exec (.getMeasurements tr true (BitVec.ofNat 8 (k + 1)) 0 nonce) s = .next s' ∧
            (r.drop 15).take 64 = s.measBytes k ∧
            s'.out = s.out ++ [.spdm tr (r ++ ecdsaSign d.toNat (spdmSecret n)
              (spdmSigned "responder-measurements signing" ((s.spdm tr).vca ++ (s.spdm tr).meas ++
                ([0x13, 0xE0, 1, BitVec.ofNat 8 (k + 1)] ++ leBytes 32 nonce.toNat ++ [0]) ++ r)))] ∧
            (s'.spdm tr).meas = []) ∧
    (∀ c : BitVec 8, c.toNat ∉ State.spdmCodes → ∃ s', exec (.spdmUnsupported tr c) s = .next s' ∧
      SpdmErrors s s' tr 0x07 c.toNat)) ∧
  ∀ (s : State) (tr : Transport), s.spdmReach tr = true → ∀ i ∈ identityRequests tr,
    (s.opened = true → ∃ s', exec i s = .next s' ∧ SpdmErrors s s' tr 0x05 0x01) ∧
    (s.opened = false → (s.spdm tr).phase ≠ .negotiated → ∃ s', exec i s = .next s' ∧ SpdmErrors s s' tr 0x04 0)

/-! ### Tallies -/

/-- R268, R269: a tally that is not bound is bound to a live gang with tiles there, its count expected and its epoch
copied to the leaves; a bind that cannot be made logs TALLY_CONFIG; an idle bound tally is unbound, a device tally with its parts
in the paddocks, a busy one logs TALLY_BUSY. It meets the model's own choices of log entry 53. -/
def Claims.TalliesBindAndUnbind : Prop :=
  (∀ (s : State) (h p n : Nat) (v : BitVec 32), p < 16 → n < 64 → BarReady s h (.tally p) → v.getLsbD 8 = true →
    ∃ s', exec (.tallyBind h p n v) s = .next s' ∧
      if (s.padNode p n).bound = true then Logs s s' (.tally p) .tallyConfig
      else if (s.gang (v.toNat % 256)).live = true ∧ s.gangIn (v.toNat % 256) p ≠ [] then
        (s'.padNode p n).bound = true ∧ (s'.padNode p n).gang = v.toNat % 256 ∧ (s'.padNode p n).lost = false ∧
          (s'.padNode p n).expected = (s.gangIn (v.toNat % 256) p).length ∧
          (s'.padNode p n).epoch = (s.padNode p n).epoch ∧
          ∀ t ∈ s.gangIn (v.toNat % 256) p, s'.leaf t n = ⟨(s.padNode p n).epoch, (s.padNode p n).epoch⟩
      else (s'.padNode p n).bound = false ∧ Logged s s' (.tally p) .tallyConfig) ∧
  (∀ (s : State) (h n : Nat) (v : BitVec 32), n < 64 → BarReady s h (.tally 16) → v.getLsbD 8 = true →
    ∃ s', exec (.tallyBind h 16 n v) s = .next s' ∧
      if (s.devNode n).bound = true then Logs s s' (.tally 16) .tallyConfig
      else if (s.gang (v.toNat % 256)).live = true then
        (s'.devNode n).bound = true ∧ (s'.devNode n).gang = v.toNat % 256 ∧
          (s'.devNode n).epoch = (s.devNode n).epoch ∧
          ∀ t ∈ s.gangTiles (v.toNat % 256), s'.leaf t (64 + n) = ⟨(s.devNode n).epoch, (s.devNode n).epoch⟩
      else (s'.devNode n).bound = false ∧ Logged s s' (.tally 16) .tallyConfig) ∧
  (∀ (s : State) (h n : Nat) (v : BitVec 32), n < 64 → BarReady s h (.tally 16) → v.getLsbD 8 = false →
    (s.devNode n).bound = true →
      ∃ s', exec (.tallyUnbind h 16 n v) s = .next s' ∧
        if (s.devNode n).counted ≠ [] ∨ s.tallyBusy (List.range 16) (64 + n) (s.devNode n).gang = true then
          Logs s s' (.tally 16) .tallyBusy
        else s'.devNode n = { s.devNode n with bound := false, lost := false, expected := 0, counted := [] } ∧
          (∀ q, q < 16 → (s'.padNode q (64 + n)).bound = false ∧
            (s'.padNode q (64 + n)).epoch = (s.padNode q (64 + n)).epoch) ∧ s'.tiles = s.tiles) ∧
  ∀ (s : State) (h p n : Nat) (v : BitVec 32), p < 16 → n < 64 → BarReady s h (.tally p) → v.getLsbD 8 = false →
    (s.padNode p n).bound = true →
      ∃ s', exec (.tallyUnbind h p n v) s = .next s' ∧
        if s.tallyBusy [p] n (s.padNode p n).gang = true then Logs s s' (.tally p) .tallyBusy
        else s'.padNode p n =
          { s.padNode p n with bound := false, lost := false, expected := 0, counted := [] } ∧ s'.tiles = s.tiles

/-- R289: a crew tally that is not bound takes the written configuration, and is bound where the conditions on level,
coordinates and gang hold; where they do not, and on a bind of a bound tally, TALLY_CONFIG is logged. It meets the
model's own choices of log entry 53. -/
def Claims.CrewTalliesBind : Prop :=
  ∀ (s : State) (h n : Nat) (v : BitVec 64) (c : Crew), n < 64 → BarReady s h (.tally 16) → v.getLsbD 27 = true →
    c = { s.crew n with
      crew := v.toNat % 2 ^ 16, gang := bits v.toNat 23 16, isLocal := v.getLsbD 24, level := bits v.toNat 26 25,
      expRow := bits v.toNat 37 32, expAcre := bits v.toNat 45 40, expEst := bits v.toNat 53 48 } →
      ∃ s', exec (.crewTallyBind h n v) s = .next s' ∧
        if (s.crew n).bound = true then Logs s s' (.tally 16) .tallyConfig
        else if s.crewOk c = true then
          (s'.crew n).bound = true ∧ (s'.crew n).lost = false ∧ (s'.crew n).crew = c.crew ∧
            (s'.crew n).level = c.level ∧ (s'.crew n).isLocal = c.isLocal ∧ (s'.crew n).epoch = c.epoch ∧
            (s'.crew n).localExpected = (if c.isLocal = true then (s.gangTiles c.gang).length else 0)
        else s'.crew n = c ∧ Logged s s' (.tally 16) .tallyConfig

/-- R269, R289: a write of `C_CFG` with BOUND clear unbinds an idle crew tally, with its parts in the paddocks; one that counts or
waits logs TALLY_BUSY. It meets the model's own choices of log entry 53. -/
def Claims.CrewTalliesUnbind : Prop :=
  ∀ (s : State) (h n : Nat) (v : BitVec 64), n < 64 → BarReady s h (.tally 16) → v.getLsbD 27 = false →
    (s.crew n).bound = true →
      ∃ s', exec (.registerWrite h (0x60400 + 8 * n) 8 v) s = .next s' ∧
        if (s.crew n).localCount ≠ [] ∨ (s.crew n).rowCount ≠ [] ∨ (s.crew n).acreCount ≠ [] ∨ (s.crew n).estCount ≠ [] ∨
            ((s.crew n).isLocal = true ∧ s.tallyBusy (List.range 16) (128 + n) (s.crew n).gang = true) then
          Logs s s' (.tally 16) .tallyBusy
        else s'.crew n = { s.crew n with bound := false, lost := false } ∧
          (∀ q, q < 16 → (s'.padNode q (128 + n)).bound = false ∧
            (s'.padNode q (128 + n)).epoch = (s.padNode q (128 + n)).epoch) ∧ s'.tiles = s.tiles

/-- R268, R269, R289: Paddock, device and crew tallies are bound and unbound, or the reason is logged. -/
def Obligations.TalliesBindAndUnbind : Prop :=
  Claims.TalliesBindAndUnbind ∧ Claims.CrewTalliesBind ∧ Claims.CrewTalliesUnbind

/-- R23, R272, R275, R291: an arrival at a bound paddock tally counts its tile once; with the last one expected the epoch
advances, the count clears and every tile of the gang there is sent a release; an arrival at an unbound part is logged
TALLY_STRAY. An arrival is taken only if no earlier message of its source to that part is still on its way. It meets
the model's own choices of log entry 53. -/
def Claims.ArrivalsAreCountedAndRelease : Prop :=
  ∀ (s : State) (p src : Nat) (id : BitVec 8) (e : BitVec 32) (rest : List TallyMsg) (xs : List Nat), p < 16 →
    id.toNat < 64 → s.pllLost p = false → takeOrdered TallyMsg.path (State.isArrival p id.toNat) [] s.tally.msgs =
      some (.arrival (.node p) id.toNat src e, rest) →
    xs = (if src ∈ (s.padNode p id.toNat).counted then (s.padNode p id.toNat).counted
      else (s.padNode p id.toNat).counted ++ [src]) →
      ∃ s', exec (.tallyArrival p id) s = .next s' ∧
        if (s.padNode p id.toNat).bound = false then
          Logged s s' (.tally 16) .tallyStray ∧ s'.padNode p id.toNat = s.padNode p id.toNat ∧ s'.tally.msgs = rest
        else if (s.padNode p id.toNat).lost = true then s' = { s with tally := { s.tally with msgs := rest } }
        else if xs.length < (s.padNode p id.toNat).expected then
          s'.padNode p id.toNat = { s.padNode p id.toNat with counted := xs } ∧ s'.tally.msgs = rest
        else s'.padNode p id.toNat =
            { s.padNode p id.toNat with counted := [], epoch := (s.padNode p id.toNat).epoch + 1 } ∧
          s'.tally.msgs = rest ++ (s.gangIn (s.padNode p id.toNat).gang p).map fun t =>
            .release (.leaf t) id.toNat ((s.padNode p id.toNat).epoch + 1)

/-- R272, R285, R291: a release gives a leaf its epoch; at a part it gives the part its epoch and goes on to the gang's tiles
there; one for an unbound tally, or whose epoch is not the part's plus one, is logged TALLY_STRAY and adopted. A withdrawal lowers
what a paddock tally expects by one and makes it lost. That an unbound part passes a release on to the tiles of its gang field is the
model's own choice, log entry 94. -/
def Claims.ReleasesAndWithdrawalsReachTheirParts : Prop :=
  (∀ (s : State) (t : Nat) (id : BitVec 8) (e : BitVec 32) (rest : List TallyMsg), t < 4352 → s.waiter t = none →
    s.pllLost (paddockOf t) = false →
    takeOrdered TallyMsg.path (State.isRelease (.leaf t) id.toNat) [] s.tally.msgs = some (.release (.leaf t) id.toNat e, rest) →
      ∃ s', exec (.tallyRelease (.leaf t) id) s = .next s' ∧
        s'.leaf t id.toNat = { s.leaf t id.toNat with released := e } ∧ s'.tally.msgs = rest ∧
        ∀ u, u ≠ t → s'.tile u = s.tile u) ∧
  (∀ (s : State) (p : Nat) (id : BitVec 8) (e : BitVec 32) (rest : List TallyMsg), p < 16 → s.pllLost p = false →
    takeOrdered TallyMsg.path (State.isRelease (.node p) id.toNat) [] s.tally.msgs = some (.release (.node p) id.toNat e, rest) →
      ∃ s', exec (.tallyRelease (.node p) id) s = .next s' ∧
        s'.padNode p id.toNat = { s.padNode p id.toNat with epoch := e, counted := [] } ∧
        (((s.padNode p id.toNat).bound = false ∨ e ≠ (s.padNode p id.toNat).epoch + 1) →
          Logged s s' (.tally 16) .tallyStray) ∧
        s'.tally.msgs = rest ++ (s.gangIn (s.padNode p id.toNat).gang p).map fun t =>
          .release (.leaf t) id.toNat e) ∧
  ∀ (s : State) (p src : Nat) (id : BitVec 8) (rest : List TallyMsg), p < 16 → id.toNat < 64 → s.pllLost p = false →
    takeOrdered TallyMsg.path (State.isWithdrawal p id.toNat) [] s.tally.msgs =
      some (.withdrawal (.node p) id.toNat src, rest) →
    (s.padNode p id.toNat).bound = true →
      ∃ s', exec (.tallyWithdrawal p id) s = .next s' ∧ (s'.padNode p id.toNat).lost = true ∧
        (s'.padNode p id.toNat).expected = (s.padNode p id.toNat).expected - 1 ∧
        (s'.padNode p id.toNat).counted = []

/-- R51, R476: while TCLK of a paddock stands still its tally node, and while HCLK stands still the apex, takes nothing. It meets the
model's own choice of log entry 83. -/
def Claims.TallyPartsStandStill : Prop :=
  ∀ (s : State) (id : BitVec 8),
    (∀ p, p < 16 → s.pllLost p = true → exec (.tallyArrival p id) s = .next s ∧ exec (.tallyWithdrawal p id) s = .next s ∧
      exec (.tallyRelease (.node p) id) s = .next s) ∧
    (s.pllLost 36 = true → exec (.tallyArrival 16 id) s = .next s ∧ exec (.tallyWithdrawal 16 id) s = .next s) ∧
    ∀ t, t < 4352 → s.pllLost (paddockOf t) = true → exec (.tallyRelease (.leaf t) id) s = .next s

/-- R23, R272, R275, R285, R291: Arrivals are counted and the last releases; releases and withdrawals reach their parts, in clock
domains that run. -/
def Obligations.TalliesCountReleaseAndWithdraw : Prop :=
  Claims.ArrivalsAreCountedAndRelease ∧ Claims.ReleasesAndWithdrawalsReachTheirParts ∧ Claims.TallyPartsStandStill

/-! ### Tithe, fences and sweeps -/

/-- R399, R400, R401: a primary that asks is granted a free place of another paddock, or runs unchecked and is counted;
the hold is written to the pillar of its place, and no other, and the start lines that it has reached since it last sent go to its
shadow, with their marks; its hold is complete at its gate, and a step whose hold would pass 16 MiB runs unchecked. It meets the
model's own choices of log entries 61, 62 and 92. -/
def Claims.PrimariesAreGrantedPlacesAndHeld : Prop :=
  (∀ (s : State) (t : Nat) (c : TitheStep), t < 4352 → s.pllLost (paddockOf t) = false → s.check t = some c →
    c.phase = .asking → (∀ p ∈ s.tithe.steps, p.2.phase = .asking → p.1 = t) →
      ∃ s', exec (.titheGrant t) s = .next s' ∧ (∀ u, NotRunIn c u → s'.tile u = s.tile u) ∧
        ((∃ p ∈ s.places, s.placeBusy p = false ∧ paddockOf p ≠ paddockOf t) →
          ∃ p ∈ s.places, s.placeBusy p = false ∧ paddockOf p ≠ paddockOf t ∧
            s'.check t = some { c with phase := .sampling, shadow := some p } ∧ s'.regs = s.regs) ∧
        ((∀ p ∈ s.places, s.placeBusy p = true ∨ paddockOf p = paddockOf t) →
          s'.check t = none ∧ CountedAt s s' 0x3080)) ∧
  ∀ (s : State) (t low : Nat) (c : TitheStep), t < 4352 → s.pllLost (paddockOf t) = false → s.check t = some c →
    c.phase = .sampling → c.complete = false → low = 0x8000 + 64 * c.lines.length + c.used →
    ∃ s', exec (.holdSend t) s = .next s' ∧ (∀ u, NotRunIn c u → c.shadow ≠ some u → s'.tile u = s.tile u) ∧
      (2 ^ 24 < low → s'.check t = none ∧ CountedAt s s' 0x3080) ∧
      (low + 0x1000 + c.extra ≤ 2 ^ 24 →
        s'.check t = some { c with sent := c.lines.length, complete := decide ((s.tile t).core = .atGate) } ∧
        ((∀ i ∈ State.holdItems c, i.2.2.data.length = 64) →
          ∀ a, c.shadow ≠ some (a / 2 ^ 25) → SMap.look 0 s'.fieldData a = SMap.look 0 s.fieldData a) ∧
        ∀ p, c.shadow = some p →
          ∀ k ∈ c.lines.drop c.sent, (s'.tile p).line k = c.start.line k)

/-- R403, R404, R405, R407, R408: a check run starts once it may, with the primary's registers, instruction memory and start lines
and the staged lines that came before any sync entry completed, and those alone; it ends with the signature of what it has written. A
shadow whose signature is the primary's ends the check and is counted; one that differs is a mismatch, and with an eligible place
existing a referee is wanted; a shadow that is lost leaves the step unchecked. It meets the model's own choices of log entries 60 and
63. -/
def Claims.ShadowRunsAreJudged : Prop :=
  (∀ (s : State) (t p : Nat) (c : TitheStep), t < 4352 → p < 4352 → p ≠ t → s.pllLost (paddockOf t) = false →
    s.pllLost (paddockOf p) = false → s.check t = some c → c.phase = .sampling → c.complete = true →
    RunKind.shadow ∉ c.runs → (s.tile t).core = .atGate → c.shadow = some p → (s.tile p).gang = none → s.runAt p = none →
    (∀ l ∈ c.applied, ∃ a, l.2.1 = .bin a) →
      ∃ s' c', exec (.titheRunStart t .shadow) s = .next s' ∧
        { s' with tithe := s.tithe, tiles := s.tiles, regs := s.regs } = s ∧ (∀ u, u ≠ p → s'.tile u = s.tile u) ∧
        s'.check t = some c' ∧ c'.runs = c.runs ++ [.shadow] ∧ c'.sigP = stepSig c.writes (s.tile t) ∧
        (s'.tile p).core = .running ∧ (s'.tile p).pc = c.start.pc ∧ (s'.tile p).g = c.start.g ∧
        (s'.tile p).imem = c.start.imem ∧
        (c.applied = [] → ∀ k ∈ c.lines, (s'.tile p).line k = c.start.line k) ∧
        ∀ (n k : Nat) (l : Line), c.applied = [(n, .bin (64 * k), 2 ^ 64 - 1, l)] → l.data.length = 64 → k < 4096 →
          (n = 0 → (s'.tile p).line k = l) ∧ (n ≠ 0 → k ∈ c.lines → (s'.tile p).line k = c.start.line k)) ∧
  ∀ (s : State) (t : Nat) (c : TitheStep) (report sig : RunSignature), t < 4352 → s.pllLost (paddockOf t) = false →
    s.check t = some c → c.runs = [.shadow] → c.shadow ≠ some t → Reports s c .shadow report sig →
    ∃ s', exec (.titheRunEnd t .shadow report Env.none) s = .next s' ∧
      if sig = .lost then s'.check t = none ∧ CountedAt s s' 0x3080 ∧ ∀ u, c.shadow ≠ some u → s'.tile u = s.tile u
      else if sig = .sig c.sigP then
        s'.check t = none ∧ CountedAt s s' 0x3078 ∧ ∀ u, c.shadow ≠ some u → s'.tile u = s.tile u
      else CountedAt s s' 0x3088 ∧
        if ∃ p ∈ s.places, paddockOf p ≠ paddockOf t ∧ ∀ q, c.shadow = some q → paddockOf p ≠ paddockOf q then
          (s'.check t).map (fun x => (x.runs, x.sigS, x.phase)) = some ([], some sig, .refereeWanted) ∧
            ∀ u, c.shadow ≠ some u → s'.tile u = s.tile u
        else FaultedWith s s' t 0x58

/-- R404, R405: what a core or an engine of a place does in a run is what it does as the primary's in the run's view of the step: the
place's tile stands for the primary's there, its writes of its pillar go to the run's own record and leave the memory as it is, and
the step of the primary is otherwise as it was. It meets the model's own choice of log entry 60. -/
def Claims.PlacesActAsTheirPrimary : Prop :=
  (∀ (s v : State) (p t : Nat) (run : RunKind) (c : TitheStep) (rd ra rb : BitVec 5) (imm : BitVec 16) (q : Nat),
    RunsFor s p t run c → ∀ row ∈ placeRows rd ra rb imm q, exec (row t) (s.enterView p t run c) = .next v →
      exec (row p) s = .next (v.leaveView p t run c)) ∧
  (∀ (s : State) (p t : Nat) (run : RunKind) (c : TitheStep), RunsFor s p t run c →
    (s.enterView p t run c).tile t = s.tile p ∧ (s.enterView p t run c).tile p = s.tile t ∧
      s.enterView p t run c = { s with tiles := (s.enterView p t run c).tiles, regs := (s.enterView p t run c).regs,
                                       tithe := (s.enterView p t run c).tithe } ∧
      (s.enterView p t run c).inRun t = true) ∧
  (∀ (v : State) (p t : Nat) (run : RunKind) (c w : TitheStep), p ≠ t → v.check t = some w →
    (v.leaveView p t run c).tile p = v.tile t ∧ (v.leaveView p t run c).tile t = v.tile p ∧
      ∃ x, (v.leaveView p t run c).check t = some x ∧
        x.recs.lookup run = some { writes := w.writes, overlay := w.before, syncs := w.syncs } ∧
        { x with recs := c.recs } = c) ∧
  ∀ (v : State) (t off mask : Nat) (env : Env) (data : List Byte) (blight : Bool) (w : TitheStep), v.check t = some w →
    w.phase = .run → w.before.lookup off ≠ none →
      (v.ownWrite t off env data mask blight).fieldData = v.fieldData ∧
        (v.ownWrite t off env data mask blight).fieldCheck = v.fieldCheck ∧
        (mask = 2 ^ 64 - 1 → ((v.ownWrite t off env data mask blight).ownRead t off).1 = ⟨data, blight⟩)

/-- R399, R400, R401, R403, R404, R405, R407, R408: Primaries are granted places and held; runs act in their view of the step; shadow
runs are judged. -/
def Obligations.SampledStepsAreGrantedAndJudged : Prop :=
  Claims.PrimariesAreGrantedPlacesAndHeld ∧ Claims.ShadowRunsAreJudged ∧ Claims.PlacesActAsTheirPrimary

/-- R408, R413, R425: a referee is granted a free place of a third paddock; with its signature and the shadow's repeat
in, a majority with the primary strikes the shadow and ends the check, one with the shadow strikes the primary, which in
a STEP-REPLAY gang is to replay, and no majority faults the primary; the replay starts from the step's start, and keeps what the first run wrote to barn memory in sight.
It meets the model's own choices of log entries 60, 62 and 63. -/
def Claims.RefereesDecideAndStepsReplay : Prop :=
  (∀ (s : State) (t : Nat) (c : TitheStep), t < 4352 → s.pllLost (paddockOf t) = false → s.check t = some c →
    c.phase = .refereeWanted →
    (∃ p ∈ s.places, s.placeBusy p = false ∧ paddockOf p ≠ paddockOf t ∧ ∀ q, c.shadow = some q → paddockOf p ≠ paddockOf q) →
      ∃ s', exec (.refereeGrant ⟨t, Env.none⟩) s = .next s' ∧ ∃ p ∈ s.places, s.placeBusy p = false ∧
        paddockOf p ≠ paddockOf t ∧ (∀ q, c.shadow = some q → paddockOf p ≠ paddockOf q) ∧
        s'.check t = some { c with phase := .refereeRun, referee := some p }) ∧
  (∀ (s : State) (t sh g : Nat) (c : TitheStep) (sr report rep : RunSignature), t < 4352 → sh < 4352 →
    s.pllLost (paddockOf t) = false → s.check t = some c → c.phase = .refereeRun → c.runs = [.again] → c.sigR = some sr →
    c.shadow = some sh → (s.tile t).gang = some g → sh ≠ t → Reports s c .again report rep →
      ∃ s', exec (.titheRunEnd t .again report Env.none) s = .next s' ∧
        if sr = .sig c.sigP then s'.check t = none ∧ CountedAt s s' 0x3078 ∧
          s'.getF ((Page.tile sh).base + 0xA0) 15 0 =
            min 0xFFFF (s.getF ((Page.tile sh).base + 0xA0) 15 0 + 1) ∧ (s'.tile t).core = (s.tile t).core
        else if some sr = c.sigS then
          s'.getF ((Page.tile t).base + 0xA0) 15 0 = min 0xFFFF (s.getF ((Page.tile t).base + 0xA0) 15 0 + 1) ∧
          ((s.gang g).checkpoint = false → (s'.check t).map (·.phase) = some .replayDue) ∧
          ((s.gang g).checkpoint = true → (s'.check t).map (·.phase) = some .repeats)
        else FaultedWith s s' t 0x58) ∧
  ∀ (s : State) (t : Nat) (c : TitheStep), t < 4352 → s.pllLost (paddockOf t) = false → s.check t = some c →
    c.phase = .replayDue →
    ∃ s', exec (.stepReplay t .lost Env.none) s = .next s' ∧ (s'.tile t).core = .running ∧
      (s'.tile t).pc = c.start.pc ∧ (s'.tile t).g = c.start.g ∧ (s'.tile t).loops = c.start.loops ∧
      (s'.tile t).queue = [] ∧ (s'.tile t).epoch = (s.tile t).epoch ∧
      (s'.check t).map (fun x => (x.phase, x.earlier)) = some (.replay, c.earlier ++ c.writes)

/-- R409: a gate that has held its limit without a verdict gives up the check: the step is unchecked, counted and logged
TITHE_STALL. -/
def Claims.StalledChecksAreGivenUp : Prop :=
  ∀ (s : State) (t : Nat) (c : TitheStep), t < 4352 → s.check t = some c → (s.tile t).core = .atGate →
    c.phase ∈ [CheckPhase.asking, .sampling, .refereeWanted, .refereeRun] →
      ∃ s', exec (.titheStall t) s = .next s' ∧ s'.check t = none ∧ CountedAt s s' 0x3080 ∧
        Logged s s' .tithe .titheStall ∧ ∀ u, NotRunIn c u → s'.tile u = s.tile u

/-- R408, R413, R425, R409: Referees decide mismatches, steps replay, and stalled checks are given up. -/
def Obligations.RefereesReplaysAndStalls : Prop :=
  Claims.RefereesDecideAndStepsReplay ∧ Claims.StalledChecksAreGivenUp

/-- R428, R429: a snapshot is wanted of a live gang; a restore of a gang that cannot be restored logs GRANARY_INVALID,
and any other reads its granary's header, unless one is under way. A header that names no usable set logs
GRANARY_INVALID; for a usable one every line of the newest set is read, and each goes to its tile's bin or crib, with
its mark. It meets the model's own choices of log entries 39 and 87. -/
def Obligations.GranarySnapshotsAndRestores : Prop :=
  (∀ (s : State) (h : Nat) (v : BitVec 32), BarReady s h .tithe → v.getLsbD 10 = true → bits v.toNat 9 8 = 1 →
    ∃ s', exec (.granarySnapshotRequest h v) s = .next s' ∧ s'.tiles = s.tiles ∧
      if (s.gang (v.toNat % 256)).live = true then
        s'.gang (v.toNat % 256) = { s.gang (v.toNat % 256) with snapWanted := true } ∧
          ∀ k, k ≠ v.toNat % 256 → s'.gang k = s.gang k
      else s'.gangs = s.gangs) ∧
  (∀ (s : State) (h g : Nat) (v : BitVec 32), BarReady s h .tithe → v.getLsbD 10 = true →
    bits v.toNat 9 8 = 2 → g = v.toNat % 256 →
      ∃ s', exec (.restore h v Env.none) s = .next s' ∧ s'.tiles = s.tiles ∧
        if ¬ ((s.gang g).live = true ∧ (s.gang g).checkpoint = true ∧ (s.gang g).sheaf = none) then
          Logged s s' .tithe .granaryInvalid ∧ s'.gangs = s.gangs
        else if (s.gang g).restoring = 0 then
          (s'.gang g).restoring = 1 ∧ OnItsWay s' (State.meshReq (.restoreHead g) .read (s.gang g).granary)
        else s'.gangs = s.gangs ∧ s'.mesh = s.mesh) ∧
  ∀ (s : State) (c b g : Nat) (r : BarnRead) (d : List Byte), c < 64 → b < 32 → BarnServes s c → s.pickBank c = some b →
    s.bankNext c b = some (.read r) → r.req.op = .read → r.fwd = none → r.kept = none → CleanBarn s r.req.dpa →
    d = barnBytes s r.req.dpa → (s.gang g).restoring ≠ 0 →
      (r.req.src = .restoreHead g → ∃ s', exec (.barnReadDone c b Env.none) s = .next s' ∧
        if field d 0 1 ≠ 1 ∨ (field d 2 1 % 4 ≠ 1 ∧ field d 2 1 % 4 ≠ 2) ∨ field d 4 4 ≠ (s.gang g).tiles.length then
          Logged s s' .tithe .granaryInvalid ∧ (s'.gang g).restoring = 0
        else (s'.gang g).restoring = 4352 * (s.gang g).tiles.length ∧
          ∀ i t k, (s.gangTiles g)[i]? = some t → k < 4352 →
            OnItsWay s' (State.meshReq (.restore g t k) .read
              ((s.gang g).granary + 0x1000 + (field d 2 1 % 4 - 1) * (s.gang g).tiles.length * 0x44000 + i * 0x44000 +
                64 * k))) ∧
      ∀ t k, t < 4352 → k < 4352 → r.req.src = .restore g t k → ∃ s', exec (.barnReadDone c b Env.none) s = .next s' ∧
        (s'.gang g).restoring = (s.gang g).restoring - 1 ∧ (s'.tile t).line k = ⟨d, false⟩ ∧
        (∀ j, j ≠ k → j < 4352 → (s'.tile t).line j = (s.tile t).line j) ∧ ∀ u, u ≠ t → s'.tile u = s.tile u

/-- R415: a fence request of a tile that exists is queued; while one is in progress it logs FENCE_BUSY, and for no such
tile FENCE_RANGE. -/
def Claims.FenceRequestsQueueOrLog : Prop :=
  ∀ (s : State) (h : Nat) (v : BitVec 32), BarReady s h .fence → v.getLsbD 31 = true →
    ∃ s', exec (.fenceRequest h v) s = .next s' ∧
      if s.fence.queue ≠ [] then Logs s s' .fence .fenceBusy
      else if 4352 ≤ v.toNat % 2 ^ 13 then Logs s s' .fence .fenceRange
      else s'.fence.queue = [⟨v.toNat % 2 ^ 13, v.getLsbD 13, false, false, false⟩] ∧ { s' with fence := s.fence } = s

/-- R416, R35: a fence of a tile of no live gang whose logical tile has a free spare makes the tile fallow and moves the
logical tile: the map names the spare, the map's generation advances, and the spare holds the tile's bin and the bytes
of its pillar; with no spare NO_SPARE is shown; a fenced spare becomes fallow. Said with no step sampled. It meets the model's own
choices of log entries 64 and 65. -/
def Claims.FencesMoveTheLogicalTile : Prop :=
  ∀ (s : State) (pt : Nat) (rest : List FenceJob), pt < 4352 → s.fenceMayRun = true → s.isFallow pt = false →
    s.tithe.steps = [] →
    s.fence.queue = ⟨pt, false, false, false, false⟩ :: rest →
      (∀ l n, s.ltileOf pt = some l → s.freeSpare l = some n → s.liveGangs (fun t => decide (t = pt)) = [] →
        ∃ s', exec (.fenceRemap Env.none) s = .next s' ∧ s'.ptileOf l = n ∧ s'.isFallow pt = true ∧
          rest <+: s'.fence.queue ∧ s'.getF 0x4048 31 0 = (s.getF 0x4048 31 0 + 1) % 2 ^ 32 ∧
          s'.getF 0x4044 1 1 = 1 ∧
          ((s.pillar pt).queue = [] → (s.pillar pt).admitted = [] → (s.pillar n).queue = [] →
            (s.pillar n).admitted = [] →
              (s'.tile n).bin = (s.tile pt).bin ∧ (s'.tile n).crib = (s.tile pt).crib ∧
              (MemoriesCanonical s → s.pillarDead n = false → ∀ k, k < 2 ^ 19 → CleanAt s pt (64 * k) →
                pillarBytes s' n (64 * k) = pillarBytes s pt (64 * k)))) ∧
      (∀ l, s.ltileOf pt = some l → s.sparesFor l = [] →
        ∃ s', exec (.fenceRemap Env.none) s = .next s' ∧ s'.isFallow pt = true ∧ s'.getF 0x4044 2 2 = 1 ∧
          s'.ptileOf l = pt) ∧
      (s.ltileOf pt = none → ∃ s', exec (.fenceRemap Env.none) s = .next s' ∧ s'.isFallow pt = true ∧
        s'.fence.queue = rest ∧ s'.getF 0x4044 1 1 = 1 ∧ s'.fence.map = s.fence.map)

/-- R419, R420, R422: a requested sweep begins with three spares in its paddock and is skipped with fewer. Once its gangs have stopped,
three free spare pillars hold every line of their bins and cribs and the rail is commanded 5 % down; when it has settled TCLK is
raised 5 % and the tests run; a rail that does not settle is commanded back. It meets the model's own choice of log entry 66. -/
def Claims.SweepsBeginAndChangeTheirSettings : Prop :=
  (∀ (s : State) (h : Nat) (v : BitVec 32), BarReady s h .tithe → v.getLsbD 5 = true →
    ∃ s', exec (.sweepRequest h v) s = .next s' ∧ s'.st.sweepDue = s.st.sweepDue ++ [bits v.toNat 4 1] ∧
      s'.getF 0x3054 0 0 = v.toNat % 2) ∧
  (∀ (s : State) (p : Nat) (rest : List Nat) (now : BitVec 64), p < 16 → s.st.sweepDue = p :: rest → s.st.sweep = none →
    s.fence.queue = [] → s.upkeepPaddock ≠ some p → s.st.fieldActive = true → s.st.resetWaiting = [] →
      ∃ s', exec (.sweepStart .request now) s = .next s' ∧ s'.st.sweepDue = rest ∧
        if 3 ≤ (s.spares p).length then
          s'.st.sweep = some p ∧ s'.st.sweepWork = .reset ∧ s'.getF 0x3054 6 6 = 1 ∧ s'.getF 0x3054 10 7 = p
        else s'.st.sweep = none ∧ p ∈ s'.st.sweepRetry ∧ (∀ q ∈ s.st.sweepRetry, q ∈ s'.st.sweepRetry) ∧
          s'.getF 0x3054 11 11 = 1 ∧ Logged s s' .tithe .sweepSkipped) ∧
  (∀ (s : State) (p : Nat) (why : SweepCause) (now : BitVec 64) (ps : List Nat), Sweeps s p .stopping →
    s.sweepStopped p = true → ps = (s.freePillars p).take 3 →
      ∃ s', exec (.sweepStart why now) s = .next s' ∧
        if ps.length = 3 then
          s'.st.sweepWork = { s.st.sweepWork with
              step := .lowering, pillars := ps, saved := sweptTiles s p, mv := s.vddtOf p
              freq := s.getF ((Page.clock p).base + 0x40) 15 0 } ∧
            s'.vddtOf p = s.vddtOf p * 95 / 100 ∧ s'.railWaits p = true ∧
            (MemoriesCanonical s → (sweptTiles s p).length ≤ 256 → (∀ n ∈ ps, s.pillarDead n = false) → ∀ j k t, (sweptTiles s p)[j]? = some t → k < 4352 →
              s'.storedCw false (State.savedAt ps j k) =
                (((s.tile t).line k).data, storedCheck ((s.tile t).line k).data ((s.tile t).line k).blight))
        else s'.st.sweep = none ∧ p ∈ s'.st.sweepRetry ∧ Logged s s' .tithe .sweepSkipped) ∧
  ∀ (s : State) (p : Nat), Sweeps s p .lowering → s.railWaits p = true →
    (∃ s', exec (.vrSettled p) s = .next s' ∧ s'.st.sweepWork = { s.st.sweepWork with step := .testing } ∧
      s'.getF ((Page.clock p).base + 0x40) 15 0 = s.st.sweepWork.freq * 105 / 100 % 2 ^ 16) ∧
    (s.bootAt 5 = false → ∃ s', exec (.vrSettleTimeout p) s = .next s' ∧
      s'.st.sweepWork = { s.st.sweepWork with step := .restoring, skip := true } ∧ s'.vddtOf p = s.st.sweepWork.mv)

/-- R420 to R422: each marginal tile of the paddock takes a strike, and the rail is commanded back; when it has settled TCLK is as it
was; then bins and cribs are restored, line by line as their codewords are delivered, and the sweep ends, or is skipped if its
settings failed. It is skipped too when its gangs have not stopped in time. It meets the model's own choice of log entry 66. -/
def Claims.SweepsEndOrAreSkipped : Prop :=
  (∀ (s : State) (p : Nat), Sweeps s p .testing →
    (∃ s', exec (.sweepDone []) s = .next s' ∧ s'.st.sweepWork = { s.st.sweepWork with step := .restoring } ∧
      s'.vddtOf p = s.st.sweepWork.mv ∧ s'.tiles = s.tiles) ∧
    ∀ (t : Nat) (ok : Bool), t < 4352 → paddockOf t = p → s.isFallow t = false →
      ∃ s', exec (.sweepDone [(t, ok)]) s = .next s' ∧ s'.st.sweepWork.step = .restoring ∧
        s'.getF ((Page.tile t).base + 0xA0) 15 0 = min 0xFFFF (s.getF ((Page.tile t).base + 0xA0) 15 0 + 1)) ∧
  (∀ (s : State) (p : Nat), Sweeps s p .restoring → s.railWaits p = true →
    ∃ s', exec (.vrSettled p) s = .next s' ∧ s'.st.sweepWork = { s.st.sweepWork with step := .restored } ∧
      s'.getF ((Page.clock p).base + 0x40) 15 0 = s.st.sweepWork.freq % 2 ^ 16) ∧
  (∀ (s : State) (p : Nat), Sweeps s p .restored → s.st.sweepWork.struck = [] →
    ∃ s', exec (.sweepDone []) s = .next s' ∧ s'.st.sweep = none ∧ s'.getF 0x3054 6 6 = 0 ∧
      (s.st.sweepWork.skip = true → p ∈ s'.st.sweepRetry ∧ s'.getF 0x3054 11 11 = 1 ∧ Logged s s' .tithe .sweepSkipped) ∧
      (MemoriesCanonical s → s.st.sweepWork.pillars.Nodup → s.st.sweepWork.pillars.length = 3 →
        s.st.sweepWork.saved.Nodup → (∀ n ∈ s.st.sweepWork.pillars, s.pillarDead n = false) →
          ∀ (j k t : Nat) (l : Line), s.st.sweepWork.saved[j]? = some t → k < 4352 → 4352 * j + k < 3 * 2 ^ 19 →
            l.data.length = 64 →
            s.storedCw false (State.savedAt s.st.sweepWork.pillars j k) = (l.data, storedCheck l.data l.blight) →
              (s'.tile t).line k = l)) ∧
  (∀ (s : State) (p : Nat), Sweeps s p .stopping → s.sweepStopped p = false →
    ∃ s', exec .sweepQuiesceTimeout s = .next s' ∧ s'.st.sweep = none ∧ p ∈ s'.st.sweepRetry ∧ s'.getF 0x3054 6 6 = 0 ∧
      s'.getF 0x3054 11 11 = 1 ∧ Logged s s' .tithe .sweepSkipped) ∧
  ∀ (s : State) (p : Nat) (step : SweepStep), Sweeps s p step → step ∉ [SweepStep.testing, .restored] →
    exec (.sweepDone []) s = .next s

/-- R415, R416, R35, R419, R420, R421, R422: Fences queue and move their logical tile to a spare; sweeps begin, end or
are skipped. -/
def Obligations.FencesAndSweeps : Prop :=
  Claims.FenceRequestsQueueOrLog ∧ Claims.FencesMoveTheLogicalTile ∧ Claims.SweepsBeginAndChangeTheirSettings ∧
    Claims.SweepsEndOrAreSkipped

/-! ### The ridge -/

/-- R329, R330, R332: a flit that fails its CRC or its correction is discarded and counted and a NAK goes out once,
until the expected flit comes; a good DATA flit is accepted: its packets join the receive buffer; a flit whose CRC checks
but which has a reserved header bit is discarded and logged LINK_PROTO, whatever the PCS says of its correction. LCLK runs.
It meets the model's own choices of log entry 68. -/
def Claims.FlitsAreAcceptedOrDiscarded : Prop :=
  ∀ (s : State) (p : Nat) (f : List Byte) (fecOk : Bool), p < 6 → s.pllLost 37 = false → s.linkAlive p = true →
    f.length = 256 →
    (((fecOk = false ∧ field f 0 1 % 4 < 2 ∧ field f 0 1 < 8) ∨ f.drop 252 ≠ flitCrc (s.rport p).rxSeq (f.take 252)) →
      ∃ s', exec (.dataFlitReceive p f fecOk) s = .next s' ∧ (s'.rport p).rx = (s.rport p).rx ∧
        (s'.rport p).rxSeq = (s.rport p).rxSeq ∧ (s'.rport p).nakState = true ∧
        s'.getF (ridgeBase p + 0x50) 15 0 = min 0xFFFF (s.getF (ridgeBase p + 0x50) 15 0 + 1) ∧
        if (s.rport p).nakState = true then s'.out = s.out
        else SendsFlit s s' p 5 (ackseqOf (s.rport p) + 2 ^ 12 + 2 ^ 13)) ∧
    (f.drop 252 = flitCrc (s.rport p).rxSeq (f.take 252) →
      (fecOk = true → field f 0 1 = 0 → ∃ s', exec (.dataFlitReceive p f fecOk) s = .next s' ∧ s'.out = s.out ∧
        s'.rport p = { s.rport p with
          rxSeq := (s.rport p).rxSeq + 1, nakState := false, unacked := (s.rport p).unacked + 1
          rx := (s.rport p).rx ++ (State.cutPackets ((s.rport p).part ++ (f.take 252).drop 1) 32).1
          part := (State.cutPackets ((s.rport p).part ++ (f.take 252).drop 1) 32).2 }) ∧
      ((2 ≤ field f 0 1 % 4 ∨ 8 ≤ field f 0 1) → ∃ s', exec (.dataFlitReceive p f fecOk) s = .next s' ∧
        (s'.rport p).rx = (s.rport p).rx ∧ (s'.rport p).rxSeq = (s.rport p).rxSeq ∧ (s'.rport p).nakState = true ∧
        Logged s s' (.ridge p) .linkProto))

/-- R330, R331, R333, R364: a NAK of the flit before the oldest unacknowledged sends them all again and counts a replay, the
sixteenth that begins at one flit taking the link down; an ACK frees what it acknowledges; either out of range is logged
LINK_PROTO and nothing else happens. An ACK or a NAK that acknowledges the last flit of a port being taken down takes its
link down. It meets the model's own choices of log entry 68. -/
def Claims.NaksReplayAndAcksFree : Prop :=
  ∀ (s : State) (p : Nat) (a : BitVec 12), p < 6 → s.pllLost 37 = false → s.linkAlive p = true →
    (∀ (f : SentFlit) (fs : List SentFlit), (s.rport p).sent = f :: fs → a = f.seq - 1 →
      (((s.rport p).replays = 0 ∨ (s.rport p).replayFrom ≠ f.seq ∨ (s.rport p).replays < 15) →
        ∃ s', exec (.nakReceive p a) s = .next s' ∧ (s'.rport p).sent = f :: fs ∧
          s'.out = s.out ++ (f :: fs).map (fun g => .flit p (g.bytes ++ flitCrc g.seq g.bytes)) ∧
          s'.getF (ridgeBase p + 0x50) 31 16 = min 0xFFFF (s.getF (ridgeBase p + 0x50) 31 16 + 1)) ∧
      ((s.rport p).replayFrom = f.seq → 15 ≤ (s.rport p).replays →
        ∃ s', exec (.nakReceive p a) s = .next s' ∧ s'.linkState p = 3 ∧ Logged s s' (.ridge p) .linkDown)) ∧
    ((∀ f ∈ (s.rport p).sent.head?, a ≠ f.seq - 1) → State.ackOk (s.rport p) a = false →
      ∃ s', exec (.nakReceive p a) s = .next s' ∧ Logs s s' (.ridge p) .linkProto) ∧
    (State.ackOk (s.rport p) a = false → ∃ s', exec (.ackReceive p a) s = .next s' ∧ Logs s s' (.ridge p) .linkProto) ∧
    (State.ackOk (s.rport p) a = true → s.linkState p = 2 → (s.rport p).txq = [] → (s.rport p).tail = [] →
      exec (.ackReceive p a) s = .next (s.onRport p fun q =>
        { q with sent := q.sent.filter fun f => serialGT 12 f.seq.toNat a.toNat, replays := 0 })) ∧
    (State.ackOk (s.rport p) a = true → s.linkState p = 4 → (s.rport p).closing = true →
      (∀ f ∈ (s.rport p).sent, serialGT 12 f.seq.toNat a.toNat = false) →
        (∃ s', exec (.ackReceive p a) s = .next s' ∧ (s'.rport p).sent = [] ∧
          s'.linkState p = (if s.getF (ridgeBase p + 0x40) 0 0 = 1 then 1 else 3)) ∧
        ((s.rport p).sent ≠ [] → (∀ f ∈ (s.rport p).sent.head?, a ≠ f.seq - 1) →
          ∃ s', exec (.nakReceive p a) s = .next s' ∧ (s'.rport p).sent = [] ∧
            s'.linkState p = (if s.getF (ridgeBase p + 0x40) 0 0 = 1 then 1 else 3)))

/-- R329, R330, R332, R335: cells that come back free the credits of their VC; an idle flit carries a link-control
record when one is due; the ACK timer and a repeated NAK send one at once. It meets the model's own choices of log entry
67. -/
def Claims.CreditsAndTimersOfALink : Prop :=
  ∀ (s : State) (p : Nat), p < 6 → s.pllLost 37 = false →
    (s.linkAlive p = true →
      (∀ vc n, vc < 8 → (s.rport p).txq = [] → (s.rport p).tail = [] → exec (.creditReturn p vc n) s = .next (s.onRport p fun q =>
        { q with usedCells := SMap.put 0 q.usedCells vc (SMap.look 0 q.usedCells vc - n) })) ∧
      (State.lcrDue (s.rport p) = false → ∃ s' f, exec (.idleFlitTimer p) s = .next s' ∧
        s'.out = s.out ++ [.flit p f] ∧ field f 0 1 = 1) ∧
      (State.lcrDue (s.rport p) = true → ∃ s' f, exec (.idleFlitTimer p) s = .next s' ∧
        s'.out = s.out ++ [.flit p f] ∧ field f 0 1 = 5 ∧ (s'.rport p).unacked = 0 ∧ (s'.rport p).nakOwed = false) ∧
      ((s.rport p).unacked ≠ 0 → ∃ s', exec (.ackTimer p) s = .next s' ∧ (s'.rport p).unacked = 0 ∧
        SendsFlit s s' p 5 (ackseqOf (s.rport p) + 2 ^ 12 + 2 ^ 13 * b2n (s.rport p).nakOwed)) ∧
      ((s.rport p).nakState = true → ∃ s', exec (.nakRepeat p) s = .next s' ∧
        SendsFlit s s' p 5 (ackseqOf (s.rport p) + 2 ^ 12 + 2 ^ 13))) ∧
    (s.linkAlive p = false → exec (.idleFlitTimer p) s = .next s ∧ exec (.ackTimer p) s = .next s ∧
      exec (.nakRepeat p) s = .next s)

/-- R49, R476: while LCLK stands still the links receive and send nothing and no packet is taken from them; their rows are
given again once it runs. It meets the model's own choice of log entry 83. -/
def Claims.RidgeStandsStillWithItsClock : Prop :=
  ∀ (s : State) (p vc : Nat) (a : BitVec 12) (f : List Byte), p < 6 → vc < 8 → s.pllLost 37 = true →
    ∀ row, RidgeRow p vc a f row → exec row s = .next s

/-- R329, R330, R332, R331, R333, R335, R364, R476: Flits are accepted or discarded; NAKs replay, ACKs free, credits return
and timers send records, while LCLK runs. -/
def Obligations.FlitsReplayAndCredits : Prop :=
  Claims.FlitsAreAcceptedOrDiscarded ∧ Claims.NaksReplayAndAcksFree ∧ Claims.CreditsAndTimersOfALink ∧
    Claims.RidgeStandsStillWithItsClock

/-- R333, R358, R360, R361, R440, R444, R490, R491: a link that finishes training is up with its sequence numbers afresh and
an empty receive buffer, and sends LHELLO, but none trains before stage 6 is complete, after a boot that has stopped, or
without the reference clock of the ridge. One that goes down is logged, empties its receive buffer, whose packets are still
handled, and is a break of its ring; it keeps its unacknowledged flits until RXSEQ comes, unless the peer has told it already;
with no RXSEQ in time their packets are counted lost. One that fails its training goes down. It meets the model's own choices
of log entries 72 and 73. -/
def Claims.LinksComeUpAndGoDown : Prop :=
  (∀ (s : State) (p : Nat), p < 6 → s.pllLost 37 = false → s.linkAlive p = false →
    (s.getF (ridgeBase p + 0x40) 0 0 = 1 → s.awake = true → 6 ≤ s.getF 0x1040 3 0 → s.getF 0x1040 5 4 < 2 →
      s.straps.refL = true → (s.rport p).txq = [] →
        ∃ s' f, exec (.ridgeLinkUp p) s = .next s' ∧ s'.linkState p = 2 ∧ (s'.rport p).rxSeq = 0 ∧
          (s'.rport p).txSeq = 1 ∧ (s'.rport p).rx = [] ∧ (s'.rport p).emptied = (s.rport p).emptied ∧
          s'.out.getLast? = some (.flit p f) ∧
          field f 0 2 = 0x2000) ∧
    ((s.getF 0x1040 3 0 < 6 ∨ 2 ≤ s.getF 0x1040 5 4 ∨ s.straps.refL = false) → exec (.ridgeLinkUp p) s = .next s)) ∧
  (∀ (s : State) (p : Nat), p < 6 → s.pllLost 37 = false → s.linkAlive p = true →
    ∃ s', exec (.linkDown p) s = .next s' ∧ s'.linkState p = 3 ∧ Logged s s' (.ridge p) .linkDown ∧
      (s'.rport p).sent = [] ∧ (s'.rport p).rx = [] ∧
      (s'.rport p).emptied = (s.rport p).emptied ++ (s.rport p).rx ∧
      ((s.rport p).told = none → (s'.rport p).awaitingRxseq = true ∧
        (s'.rport p).bounce =
          (s.rport p).sent ++ ((s.rport p).tailPkt.toList.map fun k => ⟨(s.rport p).txSeq, [], [k]⟩)) ∧
      ((s.rport p).told ≠ none → (s'.rport p).awaitingRxseq = false ∧ (s'.rport p).bounce = []) ∧
      (s.coordValid (p / 2) = true → s.ringAddressed (p / 2) = true → s.breaks (p / 2) = [] →
        s'.breaks (p / 2) = [s.breakOf p] ∧ s'.ringState (p / 2) = 2)) ∧
  (∀ (s : State) (p : Nat), p < 6 → s.pllLost 37 = false → s.linkState p = 1 →
    ∃ s', exec (.linkDown p) s = .next s' ∧ s'.linkState p = 3 ∧ s'.ridge = s.ridge ∧ s'.out = s.out) ∧
  ∀ (s : State) (p : Nat), p < 6 → s.pllLost 37 = false →
    ((s.rport p).awaitingRxseq = true → ∃ s', exec (.rxseqTimeout p) s = .next s' ∧
      (s'.rport p).awaitingRxseq = false ∧ (s'.rport p).bounce = [] ∧
      s'.reg (ridgeBase p + 0x60) =
        min (2 ^ 64 - 1) (s.reg (ridgeBase p + 0x60) + ((s.rport p).bounce.map (·.packets)).flatten.length)) ∧
    ((s.rport p).awaitingRxseq = false → exec (.rxseqTimeout p) s = .next s)

/-- R364, R366, R440, R453: clearing EN takes a link down once every flit is acknowledged; setting EN lets it train, once a
take-down under way is done and where ridge ports may train at all; OP 4
waits for the flits of its port, takes the link down and trains it, and ends with TRAIN_FAIL when that fails or EN is
clear. It meets the model's own choices of log entry 80. -/
def Claims.PortsAreDisabledEnabledAndRetrained : Prop :=
  (∀ (s : State) (h p : Nat) (v : BitVec 32), p < 6 → BarReady s h (.ridge p) → v.getLsbD 0 = false →
    v.getLsbD 1 = false → s.getF (ridgeBase p + 0x40) 0 0 = 1 →
      ∃ s', exec (.ridgePortDisable h p v) s = .next s' ∧ s'.getF (ridgeBase p + 0x40) 0 0 = 0 ∧
        s'.linkState p = (if s.linkAlive p = true ∧ (s.rport p).sent ≠ [] then 4 else 3)) ∧
  (∀ (s : State) (h p : Nat) (v : BitVec 32), p < 6 → BarReady s h (.ridge p) → v.getLsbD 0 = true →
    v.getLsbD 1 = false → s.getF (ridgeBase p + 0x40) 0 0 = 0 →
      ∃ s', exec (.ridgePortEnable h p v) s = .next s' ∧ s'.getF (ridgeBase p + 0x40) 0 0 = 1 ∧
        s'.linkState p = (if s.linkState p = 4 then 4 else if s.ridgeTrains = true then 1 else s.linkState p)) ∧
  ∀ (s : State) (p arg : Nat) (ok : Bool), p < 6 → arg % 8 = p → Doing s 4 arg .queued → s.upkeepFree = true →
    s.pllLost 37 = false → s.ridgeTrains = true →
      ∃ s', exec (.ridgeRetrain p ok) s = .next s' ∧
        if s.getF (ridgeBase p + 0x40) 0 0 = 0 then Doing s' 4 arg (.ended 5) ∧ s'.linkState p = s.linkState p
        else if s.linkAlive p = true ∧ (s.rport p).sent ≠ [] then Doing s' 4 arg .changing ∧ s'.linkState p = 4
        else if ok = true then Doing s' 4 arg (.ended 0) ∧ s'.linkState p = 2
        else Doing s' 4 arg (.ended 5) ∧ s'.linkState p = 3

/-- R333, R358, R360, R361, R364, R366, R440, R444, R453, R490, R491: Ridge links come up and go down; ports are disabled, enabled and
retrained. -/
def Obligations.RidgeLinksAndPorts : Prop :=
  Claims.LinksComeUpAndGoDown ∧ Claims.PortsAreDisabledEnabledAndRetrained

/-- R348, R349, R351, R353: an RWR stages its bytes at the tile its address names, under the sender's node, tile and
ETAG; an RRD of a bin answers the bytes there unless a line waits for room at that tile's stop, one of field memory asks the
pillar and one of barn memory the ridge lane of its channel, while there is room and the clocks on the way run, and else waits;
one that names no memory is dropped; an RRSP adds its bytes to the entry
that asked, a WACK counts a write placed, and one that reports an error faults the entry UNREACHABLE. It meets the
model's own choices of log entry 71. -/
def Obligations.RemoteOperationsAreTaken : Prop :=
  (∀ (s : State) (p vc t a : Nat) (k : Packet), PacketWaits s p vc 0x01 k → k.dst = s.node → a = k.arg 8 5 →
    2 ^ 39 ≤ a → a % 64 + k.len ≤ 64 → t = s.ptileOf (a / 2 ^ 18 % 2 ^ 12) → t < 4352 → (s.tile t).stageWait = [] →
    (s.tile t).staging.length < 1024 →
      ∃ s' l, exec (.rwr p vc) s = .next s' ∧ TakenOff s s' p k ∧ (s'.tile t).staging = stageInto l (s.tile t).staging ∧
        l.src = .remote k.src (replyTile k) ∧ l.epoch = BitVec.ofNat 32 (k.arg 15 1) ∧
        l.dest = .bin (a % 2 ^ 18 / 64 * 64) ∧ l.line.blight = bit k.blight (a / 64 % 4) ∧
        (∀ i, l.mask.testBit i = (decide (a % 64 ≤ i) && decide (i < a % 64 + k.len))) ∧
        (∀ i, i < k.len → l.line.data.getD (a % 64 + i) 0 = k.data.getD i 0) ∧
        (∀ u, u ≠ t → s'.tile u = s.tile u) ∧ s'.fieldData = s.fieldData ∧ s'.barnData = s.barnData) ∧
  (∀ (s : State) (p vc t a : Nat) (k : Packet), PacketWaits s p vc 0x02 k → k.dst = s.node → a = k.arg 8 5 →
    (2 ^ 39 ≤ a → t = s.ptileOf (a / 2 ^ 18 % 2 ^ 12) →
      ((s.tile t).stageWait ≠ [] → exec (.rrd p ⟨vc, Env.none⟩) s = .next s) ∧
      ((s.tile t).stageWait = [] →
      (∀ i, i < k.len → SMap.look false (s.tile t).binBlight ((a % 2 ^ 18 + i) / 64) = false) →
      ∃ s' r, exec (.rrd p ⟨vc, Env.none⟩) s = .next s' ∧ TakenOff s s' p k ∧ s' = ((s.popRx p k).inject r 2).2 ∧ r.op = 0x03 ∧
        r.dst = k.src ∧ r.len = k.len ∧ r.arg 8 1 = 0 ∧ r.arg 13 3 = k.arg 13 3 % 2 ^ 13 + k.arg 15 1 * 2 ^ 16 ∧
        r.blight = 0 ∧ r.data = readBytes (s.tile t).bin (a % 2 ^ 18) k.len)) ∧
    (a < 0x2000000000 → a % 64 + k.len ≤ 64 → t = s.ptileOf (a / 2 ^ 25) → (s.pillar t).queue.length < 16 →
      (s.tile t).stageWait = [] → s.mesh = [] → s.pllLost (paddockOf t) = false → s.pllLost (16 + paddockOf t) = false →
      ∃ s' id, exec (.rrd p ⟨vc, Env.none⟩) s = .next s' ∧ TakenOff s s' p k ∧
        (s'.pillar t).queue = (s.pillar t).queue ++ [⟨.ridge id 0, .read, a / 64 * 64, false⟩] ∧
        (∃ r ∈ s'.ridge.reads, r.id = id ∧ r.src = k.src ∧ r.addr = a ∧ r.len = k.len) ∧ s'.tiles = s.tiles) ∧
    (∀ c, 0x2000000000 ≤ a → a < 0x6000000000 → a % 64 + k.len ≤ 64 → c = State.channelOf (a - 0x2000000000) →
      (s.channel c).lane1.length < 16 → s.mesh = [] → s.pllLost (32 + c / 16) = false →
      ∃ s' id, exec (.rrd p ⟨vc, Env.none⟩) s = .next s' ∧ TakenOff s s' p k ∧
        (s'.channel c).lane1 = (s.channel c).lane1 ++ [⟨.ridge id 0, .read, a / 64 * 64, false⟩] ∧
        (∃ r ∈ s'.ridge.reads, r.id = id ∧ r.src = k.src ∧ r.addr = a ∧ r.len = k.len) ∧ s'.tiles = s.tiles) ∧
    (∀ u, a < 0x2000000000 → a % 64 + k.len ≤ 64 → u = s.ptileOf (a / 2 ^ 25) →
      (16 ≤ (s.pillar u).queue.length ∨ (s.tile u).stageWait ≠ [] ∨ s.pllLost (paddockOf u) = true) →
      exec (.rrd p ⟨vc, Env.none⟩) s = .next s) ∧
    (0x6000000000 ≤ a → a < 2 ^ 39 → exec (.rrd p ⟨vc, Env.none⟩) s = .next (s.popRx p k))) ∧
  (∀ (s : State) (p vc i n : Nat) (k : Packet) (e : Entry) (c : CpCmd) (f : FarEnd), PacketWaits s p vc 0x03 k →
    k.dst = s.node → s.remoteEntry (replyTile k) = some (e, c, f, n) → replyTile k < 4352 →
    (e.unanswered.find? fun i => i % 256 = k.arg 15 1) = some i →
      ∃ s', exec (.rrsp p vc) s = .next s' ∧ TakenOff s s' p k ∧
        if k.arg 8 1 = 0 then ∃ e', s'.headEntry (replyTile k) 2 = some e' ∧ e'.unanswered = e.unanswered.erase i ∧
          e.got <+: e'.got ∧ ((e'.got.drop e.got.length).map (·.2.2.data)).flatten = padTo k.len k.data
        else FaultedWith s s' (replyTile k) 0x50) ∧
  ∀ (s : State) (p vc n : Nat) (k : Packet) (e : Entry) (c : CpCmd) (f : FarEnd), PacketWaits s p vc 0x04 k →
    k.dst = s.node → s.remoteEntry (replyTile k) = some (e, c, f, n) → replyTile k < 4352 → e.unplaced ≠ 0 →
    k.arg 15 1 = (s.tile (replyTile k)).epoch.toNat % 256 →
      ∃ s', exec (.wack p vc) s = .next s' ∧ TakenOff s s' p k ∧
        if k.arg 8 1 = 0 then s'.headEntry (replyTile k) 2 = some { e with unplaced := e.unplaced - 1 }
        else FaultedWith s s' (replyTile k) 0x50

/-- R286, R290, R352: an arrival is counted at the part of its level, and the last one at the top completes the tally; a
release gives the part its epoch and, at the device part, reaches the paddock parts; a withdrawal lowers what is
expected and makes the tally lost, as does TLOST; a crew's flag update adds to the flag it owns. Packets that name no
bound crew tally, or a flag of another owner, are logged. It meets the model's own choices of log entry 53. -/
def Obligations.CrewPacketsAreTaken : Prop :=
  (∀ (s : State) (p vc n l : Nat) (k : Packet) (xs : List Nat), PacketWaits s p vc 0x18 k → k.dst = s.node →
    n = k.arg 12 1 % 64 → l = k.arg 13 1 →
    xs = (if k.src ∈ State.crewCount (s.crew n) l then State.crewCount (s.crew n) l
      else State.crewCount (s.crew n) l ++ [k.src]) →
      ∃ s', exec (.tarrive p vc) s = .next s' ∧ TakenOff s s' p k ∧
        ((¬ KnownCrew s k ∨ l = 0 ∨ 3 < l) → Logged s s' (.tally 16) .tallyStray ∧ s'.tally = s.tally) ∧
        (KnownCrew s k → 1 ≤ l → l ≤ 3 → (s.crew n).lost = false →
          (xs.length < State.crewExp (s.crew n) l → s'.crew n = State.setCrewCount (s.crew n) l xs) ∧
          (State.crewExp (s.crew n) l ≤ xs.length → l = (s.crew n).level →
            (s'.crew n).epoch = (s.crew n).epoch + 1 ∧ State.crewCount (s'.crew n) l = []))) ∧
  (∀ (s : State) (p vc n : Nat) (k : Packet), PacketWaits s p vc 0x19 k → k.dst = s.node → n = k.arg 12 1 % 64 →
      ∃ s', exec (.trelease p vc) s = .next s' ∧ TakenOff s s' p k ∧
        (¬ KnownCrew s k → Logged s s' (.tally 16) .tallyStray) ∧
        (KnownCrew s k → k.arg 13 1 = 0 → BitVec.ofNat 32 (k.arg 8 4) = (s.crew n).epoch + 1 →
          (s'.crew n).epoch = (s.crew n).epoch + 1 ∧ (s'.crew n).localCount = [] ∧
          ∀ q, q < 16 → (s.padNode q (128 + n)).bound = true →
            TallyMsg.release (.node q) (128 + n) ((s.crew n).epoch + 1) ∈ s'.tally.msgs)) ∧
  (∀ (s : State) (p vc n l : Nat) (k : Packet), PacketWaits s p vc 0x1A k → k.dst = s.node → n = k.arg 12 1 % 64 →
    l = k.arg 13 1 → KnownCrew s k → 1 ≤ l → l ≤ 3 → (s.crew n).level ≤ 3 → (s.crew n).isLocal = false →
      ∃ s', exec (.twithdraw p vc) s = .next s' ∧ TakenOff s s' p k ∧ (s'.crew n).lost = true ∧
        State.crewExp (s'.crew n) l = State.crewExp (s.crew n) l - 1) ∧
  (∀ (s : State) (p vc n : Nat) (k : Packet), PacketWaits s p vc 0x1B k → k.dst = s.node → n = k.arg 12 1 % 64 →
    KnownCrew s k → ∃ s', exec (.tlost p vc) s = .next s' ∧ TakenOff s s' p k ∧ (s'.crew n).lost = true) ∧
  ∀ (s : State) (p vc f : Nat) (k : Packet), PacketWaits s p vc 0x1C k → k.dst = s.node → f = k.arg 8 1 % 128 →
    ∃ s', exec (.flagadd p vc) s = .next s' ∧ TakenOff s s' p k ∧
      if (s.flag f).kind = 2 ∧ k.arg 14 2 = (s.flag f).ownerId ∧ (s.flag f).frozen = false then
        (s'.flag f).value = (s.flag f).value + BitVec.ofNat 64 (leNat k.data)
      else s'.flag f = s.flag f ∧ Logged s s' (.tally 16) .flagStray

/-- R326, R354 to R358, R360, R363: LHELLO shows the peer, and a port other than the one wired for it is miscabled; a
P-token gives the module its coordinate, one before the walk is kept and one by a port that was not up when
the walk began is ignored; the origin ends the walk at the reports of both
ends of a chain; RINGINFO ends it elsewhere (both said while the walk of another dimension goes on); LINKDOWN makes a
break; a SEAL that returns lets its class go on. It meets the model's own choices of log entries 74, 73 and 72. -/
def Claims.RingPacketsAreTaken : Prop :=
  (∀ (s : State) (p vc : Nat) (k : Packet), PacketWaits s p vc 0x20 k →
    ∃ s', exec (.lhello p vc) s = .next s' ∧ TakenOff s s' p k ∧
      s'.getF (ridgeBase p + 0x48) 18 0 = k.arg 8 2 + 2 ^ 16 * (k.arg 10 1 % 8) ∧
      (k.arg 10 1 % 8 ≠ otherPort p → (s'.rport p).miscabled = true ∧ Logged s s' (.ridge p) .miscabled) ∧
      (k.arg 10 1 % 8 = otherPort p → (s'.rport p).miscabled = false ∧
        (s.linkState p = 2 → (k.arg 8 2).testBit 15 = true → s.peerFits p (k.arg 8 2 % 2 ^ 15) = false →
          (s'.rport p).mgmtOnly = true ∧ Logged s s' (.ridge p) .coordMismatch))) ∧
  (∀ (s : State) (p vc d : Nat) (k : Packet) (c : Int), PacketWaits s p vc 0x21 k → d = p / 2 →
    c = byteCount (k.arg 9 1) + 1 → p % 2 = 1 → (k.arg 8 1).testBit 2 = false →
      ((s.walk d).begun = false → ∃ s', exec (.furrow p vc) s = .next s' ∧ TakenOff s s' p k ∧
        s'.walk d = { s.walk d with early := (s.walk d).early ++ [(p, k)] }) ∧
      ((s.walk d).begun = true → s.portPresent p = false → exec (.furrow p vc) s = .next (s.popRx p k)) ∧
      ((s.walk d).begun = true → (s.walk d).ended = false → s.isOrigin d = false → s.portPresent p = true →
        (s.walk d).token = false → 0 ≤ c → c < 32 → ∃ s', exec (.furrow p vc) s = .next s' ∧ TakenOff s s' p k ∧
          s'.walk d = { s.walk d with token := true, count := c } ∧ (s'.coord d : Int) = c)) ∧
  (∀ (s : State) (p vc d : Nat) (k : Packet), PacketWaits s p vc 0x22 k → d = p / 2 →
    (s.portPresent p = false → exec (.furrowend p vc) s = .next (s.popRx p k)) ∧
    (s.isOrigin d = false → s.portPresent p = true → exec (.furrowend p vc) s =
      .next (if s.portPresent (otherPort p) = true ∧ s.usable (otherPort p) = true then (s.popRx p k).leaveBy p (otherPort p) k
        else s.popRx p k)) ∧
    ∀ a n x, s.isOrigin d = true → s.portPresent p = true → (s.walk d).begun = true → (s.walk d).ended = false → x < 3 → x ≠ d →
      (s.walk x).ended = false → (k.arg 8 1).testBit 2 = true → (s.walk d).pEnd = some a → n = a + (-byteCount (k.arg 9 1)).toNat + 1 → n ≤ 32 →
        ∃ s', exec (.furrowend p vc) s = .next s' ∧ TakenOff s s' p k ∧ (s'.walk d).ended = true ∧
          s'.ringState d = 2 ∧ s'.ringLen d = n ∧ s'.breaks d = [a]) ∧
  (∀ (s : State) (p vc d : Nat) (k : Packet), PacketWaits s p vc 0x23 k → d = p / 2 → (s.walk d).ended = false →
    s.portPresent p = true → (∃ x, x < 3 ∧ x ≠ d ∧ (s.walk x).ended = false) → ∃ s', exec (.ringinfo p vc) s = .next s' ∧ TakenOff s s' p k ∧ (s'.walk d).ended = true ∧
      s'.ringState d = k.arg 10 1 % 8 ∧ s'.ringLen d = k.arg 9 1 % 32 + 1) ∧
  (∀ (s : State) (p vc d b : Nat) (k : Packet), PacketWaits s p vc 0x24 k → d = p / 2 → s.ringAddressed d = true →
    s.breaks d = [] → b = (if (k.arg 9 1).testBit 5 then k.arg 9 1 % 32
      else (k.arg 9 1 % 32 + s.ringLen d - 1) % s.ringLen d) →
      ∃ s', exec (.linkdownPkt p vc) s = .next s' ∧ TakenOff s s' p k ∧ s'.breaks d = [b] ∧ s'.ringState d = 2) ∧
  (∀ (s : State) (p vc q : Nat) (k : Packet), PacketWaits s p vc 0x24 k → q = p / 2 * 2 + b2n ((k.arg 9 1).testBit 5) →
    s.coord (p / 2) = (if (k.arg 9 1).testBit 5 then (k.arg 9 1 % 32 + 1) % s.ringLen (p / 2)
      else (k.arg 9 1 % 32 + s.ringLen (p / 2) - 1) % s.ringLen (p / 2)) →
    (k.arg 10 2).testBit 12 = true → (s.rport q).awaitingRxseq = false → s.linkAlive q = true →
      ∃ s', exec (.linkdownPkt p vc) s = .next s' ∧ (s'.rport q).told = some (BitVec.ofNat 12 (k.arg 10 2))) ∧
  ∀ (s : State) (p vc : Nat) (k : Packet), PacketWaits s p vc 0x25 k →
    (s.ownSeal k = false → exec (.sealPkt p vc) s = .next ((s.popRx p k).transit p k)) ∧
    ∀ x rest, s.ownSeal k = true →
      takeFirst (fun (x : Sealing) => decide (x.dim = p / 2 ∧ x.cls = k.cls)) s.ridge.sealing = some (x, rest) →
        ∃ s', exec (.sealPkt p vc) s = .next s' ∧ TakenOff s s' p k ∧ s'.ridge.sealing = rest

/-- R340, R353, R359, R365: a malformed packet is dropped and logged; a reply that does not come faults the entry, or
the tile that awaits a CACK for a COMMIT or an ABORT, RIDGE_TIMEOUT, a tile that its gang's fault has stopped too; an override, said with no break recorded, gives
the module its address and rings and ends the walks; a purge discards the staged lines of the node it names. It meets
the model's own choices of log entries 71 and 72. -/
def Claims.BadPacketsTimeoutsOverridesAndPurges : Prop :=
  (∀ (s : State) (p vc : Nat) (k : Packet), p < 6 → vc < 8 → s.pllLost 37 = false → s.headRx p vc = some k →
    (k.bad = true → ∃ s', exec (.packetBad p vc) s = .next s' ∧ TakenOff s s' p k ∧
      Logged s s' (.ridge p) .packetBad ∧ s'.tiles = s.tiles ∧ s'.tally = s.tally) ∧
    (k.bad = false → exec (.packetBad p vc) s = .next s)) ∧
  (∀ (s : State) (t n : Nat) (e : Entry) (c : CpCmd) (f : FarEnd), t < 4352 → s.pllLost (paddockOf t) = false →
    s.remoteEntry t = some (e, c, f, n) →
    (e.unanswered ≠ [] ∨ e.unplaced ≠ 0) →
      ∃ s', exec (.ridgeTimeout t 2) s = .next s' ∧ FaultedWith s s' t 0x51) ∧
  (∀ (s : State) (t q n m : Nat), t < 4352 → q ≠ 2 → s.pllLost (paddockOf t) = false →
    ¬((s.tile t).core = .faulted ∧ (s.tile t).fcode ≠ 0) →
    ((s.tile t).gate.awaiting = [.remote n m] ∨
      ((s.tile t).gate.awaiting = [] ∧ ∃ e rest, (s.tile t).aborts = (.remote n m, e) :: rest)) →
    ∃ s', exec (.ridgeTimeout t q) s = .next s' ∧ FaultedWith s s' t 0x51) ∧
  (∀ (s : State) (h : Nat) (v : BitVec 32), BarReady s h (.ridge 0) → v.getLsbD 31 = true →
    (∀ d, d < 3 → s.breaks d = []) → ∃ s', exec (.ridgeOverride h v) s = .next s' ∧ s'.node = v.toNat % 2 ^ 15 ∧ s'.nodeValid = true ∧
      ∀ d, d < 3 → s'.ringState d = 7 ∧ s'.ringLen d = bits v.toNat (20 + 5 * d) (16 + 5 * d) + 1 ∧
        (s'.walk d).ended = true) ∧
  ∀ (s : State) (h : Nat) (v : BitVec 32) (keep : List StageLine → List StageLine), BarReady s h (.ridge 0) →
    v.getLsbD 15 = true →
    keep = (fun ls => ls.filter fun l => match l.src with | .remote m _ => decide (m ≠ v.toNat % 2 ^ 15) | .tile _ => true) →
      ∃ s', exec (.stagePurge h v) s = .next s' ∧ s'.ridge.staging = keep s.ridge.staging ∧
        (∀ t, (s'.tile t).staging = keep (s.tile t).staging) ∧ s'.regs = s.regs

/-- R326, R354, R355, R356, R357, R358, R360, R363, R340, R353, R359, R365: Packets of the ring walk, breaks and seals
act; bad packets, timeouts, overrides and purges too. -/
def Obligations.RingPacketsAreTaken : Prop :=
  Claims.RingPacketsAreTaken ∧ Claims.BadPacketsTimeoutsOverridesAndPurges

/-! ### The steward -/

/-- R442, R452, R458, R487, R489, R493, R495: power that comes up resets the module, samples the straps and, with PERST# on H0
released, starts a full boot; power that goes, and PERST# on H0, reset it, PERST# keeping instruction memory (R134);
releasing PERST# on H0 samples the straps and starts a full boot, but not while THERMTRIP# is asserted or a test keeps the
module stopped. Asserting PERST# on H0 then, or PERST# on H1 without power, resets nothing, but the pins are held; releasing
PERST# on H1 lets its link train once stage 2 has been made. It meets the model's own choices of log entries 10 and 25. -/
def Claims.PinsResetAndStartBoots : Prop :=
  (∀ (s : State) (x : Straps), (s.st.powered = true → exec (.pwrOkRise x) s = .next s) ∧
    (s.st.powered = false → ∃ s', exec (.pwrOkRise x) s = .next s' ∧ s'.st.powered = true ∧ s'.straps = x ∧
      s'.st.thermtrip = false ∧ s'.stage = 0 ∧ UnitsReset s' ∧ s'.fieldData = [] ∧ s'.barnData = [] ∧
      s'.st.scopes = 0 ∧ s'.st.puf = true ∧ s'.st.boot = .full ∧ s'.st.booting = !s.st.perst0)) ∧
  (∀ s : State, (s.st.powered = false → exec .pwrOkFall s = .next s) ∧
    (s.st.powered = true → ∃ s', exec .pwrOkFall s = .next s' ∧ s'.st.powered = false ∧ s'.stage = 0 ∧ UnitsReset s' ∧
      s'.fieldData = [] ∧ s'.barnData = [] ∧ s'.st.booting = false ∧ s'.st.thermtrip = s.st.thermtrip ∧
      s'.st.flash = s.st.flash)) ∧
  (∀ s : State, (s.st.perst0 = true → exec .perst0Assert s = .next s) ∧
    (s.st.perst0 = false → s.st.powered = true → s.st.thermtrip = false →
      ∃ s', exec .perst0Assert s = .next s' ∧ s'.st.perst0 = true ∧ s'.stage = 0 ∧ UnitsReset s' ∧ s'.st.booting = false ∧
        s'.st.scopes = s.st.scopes ∧ s'.st.puf = s.st.puf ∧ s'.getF 0x1040 8 8 = s.getF 0x1040 8 8 ∧
        (SMap.sorted s.tiles = true → ImemKept s s')) ∧
    (s.st.perst0 = false → (s.st.powered = false ∨ s.st.thermtrip = true) →
      exec .perst0Assert s = .next { s with st := { s.st with perst0 := true } })) ∧
  (∀ (s : State) (x : Straps), (s.st.perst0 = false → exec (.perst0Deassert x) s = .next s) ∧
    (s.st.perst0 = true → s.st.powered = true →
      ∃ s', exec (.perst0Deassert x) s = .next s' ∧ s'.st.perst0 = false ∧ s'.straps = x ∧ s'.regs = s.regs ∧
        s'.tiles = s.tiles ∧
        if s.st.thermtrip = true ∨ s.st.tapStopped = true then s'.st.booting = s.st.booting
        else s'.st.booting = true ∧ s'.st.boot = .full)) ∧
  ∀ s : State, (s.st.perst1 = false → exec .perst1Deassert s = .next s) ∧
    (s.st.perst1 = true → s.st.powered = true → s.st.perst0 = false → s.st.thermtrip = false → s.st.linked = true →
      ∃ s', exec .perst1Deassert s = .next s' ∧ s'.st.perst1 = false ∧
        s'.getF (State.linkReg 1) 31 0 = b2n s.straps.refH1 ∧ s'.tiles = s.tiles) ∧
    (s.st.perst1 = true → s.st.linked = false →
      exec .perst1Deassert s = .next { s with st := { s.st with perst1 := false } }) ∧
    ((s.st.powered = false ∨ s.st.thermtrip = true) →
      exec (.hostPortReset 1 .perst1) s = .next { s with st := { s.st with perst1 := true } })

/-- R5, R7, R435, R440, R441, R442, R445, R490, R493: the stages of a boot up to the manifest: with the core's reference clock
fuses are sensed, which are those a part can have (R5, R7, R8) and never change once sensed, with TESTEN high no more being
made; host links that have their clock let train, before or after the stages that do not depend on it; flash discovered, the
later candidate slot read, its manifest used when it is valid, and else the other candidate tried or the boot stopped for
want of a manifest. It meets the model's own choices of log entries 76 and 11. -/
def Claims.BootReadsItsManifest : Prop :=
  ∀ s : State,
    (∀ f : Fuses, (s.bootAt 0 = true → s.fullBoot = true → s.straps.refC = true →
        (s.sensed = true ∨ State.fusesOk f = true) →
        ∃ s', exec (.bootFuseSense f) s = .next s' ∧ s'.stage = 1 ∧ s'.sensed = true ∧
          s'.fuses = (if s.sensed = true then s.fuses else f) ∧ s'.st.booting = !s.straps.testen) ∧
      ((s.bootAt 0 = false ∨ s.straps.refC = false ∨ (s.sensed = false ∧ State.fusesOk f = false)) →
        exec (.bootFuseSense f) s = .next s)) ∧
    (s.awake = true → s.fullBoot = true → 1 ≤ s.stage → s.st.linked = false → s.straps.testen = false →
      ∃ s', exec .bootLinkStart s = .next s' ∧ s'.stage = max 2 s.stage ∧ s'.st.linked = true ∧
        s'.getF (State.linkReg 0) 2 0 = b2n s.straps.refH0 ∧
        s'.getF (State.linkReg 1) 2 0 = (if s.st.perst1 then 3 else b2n s.straps.refH1)) ∧
    ((s.st.linked = true ∨ s.stage = 0 ∨ s.fullBoot = false ∨ s.straps.testen = true) →
      exec .bootLinkStart s = .next s) ∧
    (∀ f : FlashImage, (if s.fullBoot = true then s.bootAt 1 = true ∨ s.bootAt 2 = true else s.bootAt 0 = true) →
      ∃ s', exec (.bootSlotHeaders f) s = .next s' ∧ s'.stage = 3 ∧ s'.st.flash = f) ∧
    (s.bootAt 3 = true → ∃ s', exec .bootManifestRead s = .next s' ∧ s'.stage = 4 ∧
      s'.st.key = (if s.st.puf = true then some (identityScalar s.fuses.serial) else none) ∧
      (∀ i, s.pickSlot = some i → s'.st.slot = i ∧ s'.st.manifest = s.slotBytes i) ∧
      (s.pickSlot = none → s'.st.manifest = [])) ∧
    (s.bootAt 4 = true →
      (s.pickSlot = none → ∃ s', exec .bootManifestVerify s = .next s' ∧ s'.getF 0x1040 5 4 = 2 ∧ s'.st.booting = false ∧
        s'.st.alert = true) ∧
      ∀ i, s.pickSlot = some i →
        (mfValid s.fuses s.st.manifest = true → ∃ s', exec .bootManifestVerify s = .next s' ∧ s'.stage = 5 ∧
          s'.getF 0x1040 6 6 = i ∧ s'.reg 0x1044 = mfSeq s.st.manifest) ∧
        (mfValid s.fuses s.st.manifest = false →
          ((∀ j ∈ s.candidates, j = i) → ∃ s', exec .bootManifestVerify s = .next s' ∧ s'.getF 0x1040 5 4 = 2 ∧
            s'.st.booting = false) ∧
          ((∃ j ∈ s.candidates, j ≠ i) → ∃ s', exec .bootManifestVerify s = .next s' ∧ s'.stage = 3 ∧
            s'.st.booting = true ∧ s'.st.triedSlots = s.st.triedSlots ++ [i])))

/-- R442, R452, R458, R487, R489, R493, R495, R7, R435, R440, R441, R445: Pins reset the module and start boots; a boot reads
and checks its manifest. -/
def Obligations.PinsAndBoot : Prop :=
  Claims.PinsResetAndStartBoots ∧ Claims.BootReadsItsManifest

/-- R438, R444, R486, R490: stage 6 waits at an entry whose condition is not met; when every entry is done and no rail is
awaited the map of the manifest's repairs is in force and the stage is complete; a wait or a rail that takes too long
ends the attempt: the boot falls back once to the other valid slot, and else stops. It meets the model's own choices of
log entries 75 and 77. -/
def Claims.BootAppliesItsManifest : Prop :=
  (∀ s : State, s.bootAt 5 = true → s.st.commanded = false → s.entryWaits = true → exec .bootApply s = .next s) ∧
  (∀ s : State, s.bootAt 5 = true → s.st.commanded = false → EntriesDone s → s.opPoints = none → s.st.settling = [] →
    ∃ s', exec .bootApply s = .next s' ∧ s'.stage = 6 ∧ s'.fence.map = repairMap (mfRepairs s.st.manifest) ∧
      (s.straps.refL = true → s'.getF 0x35040 16 16 = b2n (!s.pllLost 37)) ∧
      ∀ p, p < 6 → s.linkState p ≠ 2 →
        s'.linkState p = (if s.getF (ridgeBase p + 0x40) 0 0 = 1 then b2n s.straps.refL else 3)) ∧
  (∀ s : State, s.entryWaits = true →
    (s.bootAt 5 = true ∧ s.st.commanded = false ∨ s.bootAt 6 = true ∨ s.bootAt 7 = true ∨ s.bootAt 8 = true) →
    ∃ s', exec .manifestWaitTimeout s = .next s' ∧ Logged s s' .steward .manifestApply ∧
      if s.st.fellBack = false ∧ 1 - s.st.slot ∉ s.st.triedSlots ∧
          mfValid s.fuses (s.slotBytes (1 - s.st.slot)) = true then
        s'.stage = 3 ∧ s'.getF 0x1040 7 7 = 1 ∧ s'.st.booting = true ∧ s'.st.fellBack = true
      else s'.getF 0x1040 5 4 = 3 ∧ s'.st.booting = false ∧ s'.st.barnActive = false ∧ s'.ridgeTrains = false) ∧
  (∀ s : State, s.entryWaits = false → exec .manifestWaitTimeout s = .next s) ∧
  ∀ (s : State) (p : Nat), p < 16 → s.bootAt 5 = true → s.railWaits p = true →
    ∃ s', exec (.vrSettleTimeout p) s = .next s' ∧ s'.railWaits p = false ∧ Logged s s' .steward .manifestApply ∧
      s'.stage ≠ 6

/-- R74, R319, R320, R374, R442: a full boot trains the barn channels, a channel whose training fails being DEAD, and
zeroes barn memory; the barn range becomes active at any time after that; field memory is written with zeros; modes start at what the manifest in
use selects and the field range becomes active, which completes a warm boot. -/
def Claims.BootStartsTheMemories : Prop :=
  ∀ s : State,
    (∀ failed : List Nat, s.bootAt 6 = true → EntriesDone s → s.fullBoot = true →
      ∃ s', exec (.bootBarnTrain failed) s = .next s' ∧ s'.stage = 7 ∧ s'.barnData = [] ∧ s'.barnCheck = [] ∧
        ∀ c, c < 64 → s'.channel c = { Channel.reset with dead := failed.contains c } ∧
          (c ∈ failed → Logged s s' (.barn c) .trainFail)) ∧
    (s.awake = true → 7 ≤ s.stage → s.st.barnActive = false → (s.st.booting = true ∨ s.getF 0x1040 5 4 = 1) →
      ∃ s', exec .bootBarnActive s = .next s' ∧ s'.stage = max 8 s.stage ∧ s'.st.barnActive = true) ∧
    ((s.bootAt 7 = true ∨ s.bootAt 8 = true) → EntriesDone s → ∃ s', exec .bootPillarCal s = .next s' ∧ s'.stage = 9 ∧ s'.fieldData = [] ∧
      s'.fieldCheck = [] ∧ s'.barnData = s.barnData) ∧
    (s.bootAt 9 = true → ∃ s', exec .bootFieldReady s = .next s' ∧ s'.stage = 10 ∧ s'.st.fieldActive = true ∧
      (∀ p a, p < 16 → a = (Page.paddock p).base + 0x40 → s'.getF a 8 8 = s.manifestMode p ∧
        s'.getF a 0 0 = s.manifestMode p ∧ s'.getF a 9 9 = 0) ∧
      s'.st.booting = s.fullBoot ∧ (s.fullBoot = false → s'.getF 0x1040 5 4 = 1)) ∧
    ((s.stage < 7 ∨ s.st.barnActive = true) → exec .bootBarnActive s = .next s) ∧ (s.bootAt 9 = false → exec .bootFieldReady s = .next s)

/-- R354 to R357, R442: at stage 11 every walk that has not ended begins; with no ridge link up each ring has this
module alone and the boot is complete; a walk not ended in 500 ms ends as a ring with no origin. It meets the model's
own choices of log entry 74. -/
def Claims.WalksBeginAndTimeOut : Prop :=
  (∀ s : State, s.bootAt 10 = true → s.fullBoot = true →
    (∃ s', exec .furrowWalkStart s = .next s' ∧ ∀ d, d < 3 → (s.walk d).ended = false → (s'.walk d).begun = true) ∧
    ((∀ p, p < 6 → s.linkState p ≠ 2) → (∀ d, d < 3 → (s.walk d).begun = false ∧ (s.walk d).ended = false) →
      ∃ s', exec .furrowWalkStart s = .next s' ∧ s'.stage = 11 ∧ s'.getF 0x1040 5 4 = 1 ∧ s'.st.booting = false ∧
        ∀ d, d < 3 → (s'.walk d).ended = true ∧ s'.ringState d = 1 ∧ s'.ringLen d = 1 ∧ s'.coordValid d = true)) ∧
  ∀ s : State, s.bootAt 10 = true → s.fullBoot = true →
    ∃ s', exec .walkTimeout s = .next s' ∧ ∀ d, d < 3 → (s.walk d).begun = true → (s.walk d).ended = false →
      (s.isOrigin d = true ∨ (s.walk d).token = false) →
        (s'.walk d).ended = true ∧ s'.ringState d = 4 ∧ s'.ringLen d = 1 ∧ Logged s s' (.ridge 0) .noOrigin

/-- R438, R444, R486, R74, R319, R320, R374, R442, R354, R355, R356, R357: A boot applies its manifest, starts the
memories and walks the rings. -/
def Obligations.BootAppliesAndStartsTheModule : Prop :=
  Claims.BootAppliesItsManifest ∧ Claims.BootStartsTheMemories ∧ Claims.WalksBeginAndTimeOut

/-- R321, R453, R457, R460: GO with OP 3 on a channel that serves begins its training at once where nothing holds the change
back, and the change is under way from then on; GO with OP 0 or 7 starts a live change that has failed with UPKEEP_ARG; GO while one runs is refused and
logged; the end of one is reported with its result and leaves none. It meets the model's own choices of log entry 80. -/
def Claims.LiveChangesStartAndAreReported : Prop :=
  (∀ (s : State) (h : Nat) (v : BitVec 32), BarReady s h .steward → v.getLsbD 31 = true →
    ((v.toNat % 8 = 0 ∨ v.toNat % 8 = 7) → s.st.upkeep = none → ∃ s', exec (.upkeepInvalidOp h v) s = .next s' ∧
      Doing s' (v.toNat % 8) (s.reg 0x1050) (.ended 4) ∧ s'.getF 0x1058 1 0 = 1 ∧ s'.getF 0x1058 4 2 = v.toNat % 8) ∧
    (s.st.upkeep ≠ none → ∃ s', exec (.upkeepBusy h v) s = .next s' ∧ Logs s s' .steward .upkeepBusy)) ∧
  (∀ (s : State) (h c : Nat) (v : BitVec 64), BarReady s h .steward → v.getLsbD 31 = true → v.toNat % 8 = 3 →
    c = s.reg 0x1050 % 64 → s.st.upkeep = none → ∃ s', exec (.registerWrite h 0x1048 4 v) s = .next s' ∧
      s'.getF 0x1058 1 0 = 1 ∧
      if (s.channel c).dead = true then Doing s' 3 (s.reg 0x1050) (.ended 5) ∧ s'.channels = s.channels
      else if s.upkeepFree = true then Doing s' 3 (s.reg 0x1050) .changing ∧ (s'.channel c).training = true
      else Doing s' 3 (s.reg 0x1050) .queued ∧ s'.channels = s.channels) ∧
  (∀ (s : State) (op arg r : Nat), Doing s op arg (.ended r) → s.st.resetWaiting = [] → r < 16 →
    ∃ s', exec .upkeepDone s = .next s' ∧ s'.st.upkeep = none ∧ s'.getF 0x1058 1 0 = (if r = 0 then 2 else 3) ∧
      s'.getF 0x1058 11 8 = r ∧ s'.tiles = s.tiles) ∧
  (∀ (s : State) (op arg : Nat), Doing s op arg .queued → exec .upkeepDone s = .next s) ∧
  ∀ (s : State) (op arg : Nat) (conc : Nat → Bool), Doing s op arg .quiescing →
    conc = (fun t => if op = 2 then decide (t = s.ptileOf (arg % 4096)) else decide (paddockOf t = arg % 16)) →
      (s.allStopped (s.liveGangs conc) = true → exec .upkeepQuiesceTimeout s = .next s) ∧
      (s.allStopped (s.liveGangs conc) = false → ∃ s', exec .upkeepQuiesceTimeout s = .next s' ∧ Doing s' op arg (.ended 1))

/-- R416, R453, R456: PADDOCK_RECAL issues the owed refreshes of its pillars; TILE_SWAP moves a logical tile of no live
gang to a free spare, waits for a gang that has not stopped, and ends with NO_SPARE where there is none; MANIFEST_STAGE
asks for the lines of its image over the mesh, and when all have come erases the inactive slot for an image that is valid
and later; the image is then programmed, unless the flash does not read back alike; one that is not leaves that slot invalid.
It meets the model's own choices of log entries 80 and 93. -/
def Claims.LiveChangesOneTwoAndFive : Prop :=
  (∀ (s : State) (arg : Nat), Doing s 1 arg .queued → s.upkeepFree = true →
    ∃ s', exec .paddockRecal s = .next s' ∧ Doing s' 1 arg (.ended 0) ∧
      (∀ t, t < 4352 → paddockOf t = arg % 16 → (s'.pillar t).owed = []) ∧
      ∀ t, paddockOf t ≠ arg % 16 → s'.pillar t = s.pillar t) ∧
  (∀ (s : State) (l arg : Nat), l = arg % 4096 → Doing s 2 arg .queued → s.upkeepFree = true →
    (s.sparesFor l = [] → ∃ s', exec (.tileSwap Env.none) s = .next s' ∧ Doing s' 2 arg (.ended 2) ∧
      s'.fence.map = s.fence.map) ∧
    (∀ n, s.freeSpare l = some n → s.liveGangs (fun t => decide (t = s.ptileOf l)) = [] →
      ∃ s', exec (.tileSwap Env.none) s = .next s' ∧ Doing s' 2 arg (.ended 0) ∧ s'.ptileOf l = n) ∧
    (s.sparesFor l ≠ [] → s.allStopped (s.liveGangs fun t => decide (t = s.ptileOf l)) = false →
      ∃ s', exec (.tileSwap Env.none) s = .next s' ∧ Doing s' 2 arg .quiescing ∧ s'.fence.map = s.fence.map)) ∧
  (∀ (s : State) (arg dpa len : Nat) (same : Bool), Doing s 5 arg .queued → s.upkeepFree = true →
    dpa = arg % 2 ^ 39 → len = bits arg 63 40 →
    ((dpa % 64 ≠ 0 ∨ dpa < 0x2000000000 ∨ 0x6000000000 < dpa + len) →
      ∃ s', exec (.manifestStage Env.none same) s = .next s' ∧ Doing s' 5 arg (.ended 4) ∧ s'.st.flash = s.st.flash) ∧
    (dpa % 64 = 0 → 0x2000000000 ≤ dpa → dpa + len ≤ 0x6000000000 →
      ∃ s', exec (.manifestStage Env.none same) s = .next s' ∧ Doing s' 5 arg .reading ∧ s'.st.flash = s.st.flash ∧
        s'.st.image = some [] ∧ ∀ k, k < (min len 0x800000 + 63) / 64 →
          (⟨.image k, .read, dpa + 64 * k, false⟩ : MemReq) ∈
            s'.mesh ++ (s'.channel (State.channelOf (dpa + 64 * k - 0x2000000000))).lane2)) ∧
  ∀ (s : State) (arg len slot : Nat) (same : Bool), len = min (bits arg 63 40) 0x800000 → slot = 1 - s.getF 0x1040 6 6 →
    (Doing s 5 arg .reading →
      (s.stagedImage len = none → exec (.manifestStage Env.none same) s = .next s) ∧
      ∀ img, s.stagedImage len = some img → ∃ s', exec (.manifestStage Env.none same) s = .next s' ∧
        (if slot = 0 then s'.st.flash.slotA else s'.st.flash.slotB) = [] ∧
        if mfValid s.fuses img = true ∧ serialGT 32 (mfSeq img) (s.reg 0x1044) = true then Doing s' 5 arg .changing
        else Doing s' 5 arg (.ended 3) ∧ Logged s s' .steward .manifestInvalid) ∧
    (Doing s 5 arg .changing → ∀ img, s.stagedImage len = some img →
      ∃ s', exec (.manifestStage Env.none same) s = .next s' ∧
        if same = true then Doing s' 5 arg (.ended 0) ∧ (if slot = 0 then s'.st.flash.slotA else s'.st.flash.slotB) = img
        else Doing s' 5 arg (.ended 3) ∧ (if slot = 0 then s'.st.flash.slotA else s'.st.flash.slotB) = [] ∧
          Logged s s' .steward .manifestInvalid)

/-- R321, R453, R457, R460, R416, R456: Live changes start, run and are reported: recalibration, tile swap, manifest staging. -/
def Obligations.LiveChangesRunAndAreReported : Prop :=
  Claims.LiveChangesStartAndAreReported ∧ Claims.LiveChangesOneTwoAndFive

/-- R453, R455, R486: VF_SET of a paddock with no live gang commands its rail, or at an unchanged voltage takes the
point at once; when the rail settles the point is in force, or the previous one is restored; a rail that does not settle
has the previous point commanded back, and one that does not settle then starts a warm reset. A rail is commanded by
VOUT_COMMAND, once the format of its voltages has been read, and polled by STATUS_WORD and READ_VOUT. It meets the model's own
choices of log entry 82. -/
def Claims.OperatingPointsChange : Prop :=
  (∀ (s : State) (arg p i : Nat), p = arg % 16 → i = bits arg 10 8 → Doing s 6 arg .queued → s.upkeepFree = true →
    s.liveGangs (fun t => decide (paddockOf t = p)) = [] →
      (s.point i = none → ∃ s', exec .vfSet s = .next s' ∧ Doing s' 6 arg (.ended 4)) ∧
      ∀ mv mhz, s.point i = some (mv, mhz) → ∃ s', exec .vfSet s = .next s' ∧ s'.vddtOf p = mv ∧
        if mv = s.vddtOf p then Doing s' 6 arg (.ended 0) ∧ s'.opPointOf p = i
        else Doing s' 6 arg .changing ∧ s'.railWaits p = true) ∧
  (∀ (s : State) (arg p i mv mhz : Nat), p < 16 → arg % 16 = p → i = bits arg 10 8 → s.railWaits p = true →
    s.st.sweep ≠ some p →
    s.point i = some (mv, mhz) →
      (Doing s 6 arg .changing → ∃ s', exec (.vrSettled p) s = .next s' ∧ s'.railWaits p = false ∧
        s'.opPointOf p = i ∧ Doing s' 6 arg (.ended 0)) ∧
      (Doing s 6 arg .restoring → ∃ s', exec (.vrSettled p) s = .next s' ∧ s'.railWaits p = false ∧
        s'.opPointOf p = s.opPointOf p ∧ Doing s' 6 arg (.ended 1)) ∧
      (s.bootAt 5 = false → Doing s 6 arg .changing → ∃ s', exec (.vrSettleTimeout p) s = .next s' ∧
        Doing s' 6 arg .restoring ∧ s'.railWaits p = true ∧
        ∀ mv' mhz', s.point (s.opPointOf p) = some (mv', mhz') → s'.vddtOf p = mv') ∧
      (s.bootAt 5 = false → Doing s 6 arg .restoring → ∃ s', exec (.vrSettleTimeout p) s = .next s' ∧
        s'.st.boot = .warm ∧ s'.st.booting = (!s.straps.testen) ∧ s'.st.upkeep = none)) ∧
  (∀ (s : State) (p mv : Nat), p < 16 → ∃ data : List Byte, data.length = 3 ∧ (s.commandRail p mv).railWaits p = true ∧
    (s.commandRail p mv).vddtOf p = mv ∧
    (s.commandRail p mv).out = s.out ++ (if SMap.look 0 s.st.voutMode p = 0 then [.pmbus (0x40 + p) 0x20 []] else []) ++
      [.pmbus (0x40 + p) 0x21 data]) ∧
  (∀ (s : State) (p : Nat), p < 16 → s.railWaits p = true → s.st.sweep ≠ some p → s.st.upkeep = none →
    exec (.vrSettled p) s = .next ((s.pollRail p).railDone p) ∧
      (s.pollRail p).out = s.out ++ [.pmbus (0x40 + p) 0x79 [], .pmbus (0x40 + p) 0x8B []]) ∧
  ∀ (s : State) (p : Nat), p < 16 → s.railWaits p = false → exec (.vrSettled p) s = .next s

/-- R476: a PLL that loses lock shows it, counts it and logs it; one that relocks shows it; one that does not relock in
time starts a warm reset. It meets the model's own choices of log entry 83. -/
def Claims.ClocksLoseAndRegainLock : Prop :=
  ∀ (s : State) (k a : Nat), k < 40 → a = (Page.clock k).base →
    (k ≠ 38 → k ≠ 39 → s.getF (a + 0x40) 16 16 = 1 → ∃ s', exec (.pllUnlock k) s = .next s' ∧ s'.pllLost k = true ∧
      s'.getF (a + 0x40) 16 16 = 0 ∧ s'.getF (a + 0x40) 17 17 = 1 ∧
      s'.getF (a + 0x48) 15 0 = min 0xFFFF (s.getF (a + 0x48) 15 0 + 1) ∧ Logged s s' (.clock k) .pllUnlock ∧
      s'.tiles = s.tiles) ∧
    ((k = 38 ∨ k = 39 ∨ s.getF (a + 0x40) 16 16 = 0) → exec (.pllUnlock k) s = .next s) ∧
    (s.pllLost k = true → s.st.thermtrip = false → ∃ s', exec (.pllRelock k) s = .next s' ∧ s'.pllLost k = false ∧
      s'.getF (a + 0x40) 16 16 = 1 ∧ (16 ≤ k → s'.tiles = s.tiles)) ∧
    (s.pllLost k = false → exec (.pllRelock k) s = .next s ∧ exec (.pllRelockTimeout k) s = .next s) ∧
    (s.pllLost k = true → s.awake = true → s.warmBusy = false → ∃ s', exec (.pllRelockTimeout k) s = .next s' ∧
      s'.st.boot = .warm ∧ s'.st.booting = (!s.straps.testen) ∧ UnitsReset s' ∧ s'.stage = 0)

/-- R453, R455, R486, R476: Operating points change through their rails; PLLs lose and regain lock. -/
def Obligations.OperatingPointsAndClocks : Prop :=
  Claims.OperatingPointsChange ∧ Claims.ClocksLoseAndRegainLock

/-- R457, R458, R459: a warm reset leaves tiles but for instruction memory (R134), gangs and tallies as at reset and
starts a warm boot, unless TESTEN is high; a paddock reset
resets the tiles of its paddock and puts its mode to what the manifest selects, or waits for the work on the paddock;
any request while a warm reset runs is refused and logged. It meets the model's own choices of log entries 25, 78 and
79. -/
def Claims.ResetsTakeEffect : Prop :=
  ∀ (s : State) (h : Nat) (v : BitVec 32), BarReady s h .global → v.getLsbD 31 = true →
    (s.warmBusy = false → v.toNat % 4 = 1 → ∃ s', exec (.warmReset h v) s = .next s' ∧ s'.st.boot = .warm ∧
      s'.st.booting = (!s.straps.testen) ∧ s'.st.upkeep = none ∧ s'.st.barnActive = false ∧ s'.st.fieldActive = false ∧ UnitsReset s' ∧
      s'.stage = 0 ∧ s'.fieldData = s.fieldData ∧ (SMap.sorted s.tiles = true → ImemKept s s') ∧
      (SMap.sorted s.regs = true → s'.getF 0x1040 8 8 = s.getF 0x1040 8 8)) ∧
    (∀ p a, s.warmBusy = false → v.toNat % 4 = 2 → p = bits v.toNat 7 4 → a = (Page.paddock p).base + 0x40 →
      (s.workedOn p = true → ∃ s', exec (.paddockReset h v) s = .next s' ∧
        s'.st.resetWaiting = s.st.resetWaiting ++ [p] ∧ s'.tiles = s.tiles ∧ s'.regs = s.regs) ∧
      (s.workedOn p = false → ∃ s', exec (.paddockReset h v) s = .next s' ∧
        s'.getF a 0 0 = s.manifestMode p ∧ s'.getF a 8 8 = s.manifestMode p ∧ s'.getF a 9 9 = 0 ∧
        ∀ t, t < 4352 → paddockOf t = p → TileReset s s' t ∧ (s'.tile t).staging = [] ∧ (s'.pillar t).beat = 0)) ∧
    ((v.toNat % 4 = 1 ∨ v.toNat % 4 = 2) → s.warmBusy = true → ∃ s', exec (.resetBusy h v) s = .next s' ∧
      Logs s s' .steward .resetBusy)

/-- R81, R314, R451, R452: a sampling shows the readings, of a paddock its hottest field die's and of a barn channel its
die's, and the hottest of each level; from the next due time on refresh intervals halve above 95 °C and return below 93 °C;
above 105 °C THERMTRIP stops the module and is logged. It meets the model's own choices of log entry 81. -/
def Claims.TemperaturesAreSampled : Prop :=
  ∀ (s : State) (r : Readings), s.st.powered = true → (s.st.perst0 = false ∨ s.st.thermtrip = true) →
    ∃ s', exec (.tempSample r) s = .next s' ∧ s'.st.temps = r ∧
      (∀ p a, p < 16 → a = (Page.paddock p).base + 0x44 → s'.getF a 7 0 = min 255 (State.fieldReading r p) ∧
        s'.getF a 8 8 = s.getF a 8 8 ∧
        SMap.look false s'.st.hotNext p = (if 95 < State.fieldReading r p then true
          else if State.fieldReading r p < 93 then false else SMap.look false s.st.hotNext p)) ∧
      (∀ c a, c < 64 → a = (Page.barn c).base + 0x60 → s'.getF a 15 8 = min 255 (r.barn.getD (c / 2) 0) ∧
        s'.getF a 2 2 = s.getF a 2 2) ∧
      s'.getF 0x105C 7 0 = min 255 (r.base.foldl max 0) ∧ s'.getF 0x105C 15 8 = min 255 (r.field.foldl max 0) ∧
      s'.getF 0x105C 23 16 = min 255 (r.barn.foldl max 0) ∧
      (State.hottest r ≤ 105 → s'.tiles = s.tiles ∧ s'.st.thermtrip = s.st.thermtrip ∧
        ∀ c, c < 64 → (s'.channel c).hotNext = (if 95 < r.barn.getD (c / 2) 0 then true
          else if r.barn.getD (c / 2) 0 < 93 then false else (s.channel c).hotNext)) ∧
      (105 < State.hottest r → s.st.thermtrip = false → s'.st.thermtrip = true ∧ UnitsReset s' ∧
        s'.st.fieldActive = false ∧ s'.st.barnActive = false ∧ Logged s s' .steward .thermtrip)

/-- R457, R458, R459, R81, R314, R451, R452: Warm and paddock resets take effect; temperatures are sampled and trip the
module. -/
def Obligations.ResetsAndTemperatures : Prop :=
  Claims.ResetsTakeEffect ∧ Claims.TemperaturesAreSampled

/-- R448, R449, R492: UNLOCK_NONCE shifts out a fresh nonce; UNLOCK with a good token destroys the identity key,
disables the PUF, sets OPENED and opens its scopes, with a bad one it counts and the nonce is gone; EXTEST, CLAMP and
HIGHZ stop the module until the TAP is reset; BYPASS shifts one bit late, IDCODE shifts out the code, SAMPLE/PRELOAD
loads the boundary register; ENTDAA gives the I3C target its address, and so does SETDASA to the static address its straps
select while it has none. It meets the model's own choices of log
entries 50, 51 and 52. -/
def Obligations.TheTestPortActs : Prop :=
  (∀ s : State, s.st.powered = true →
    (∃ s' v, exec .unlockNonce s = .next s' ∧ s'.st.nonce = some v ∧ s'.out = s.out ++ [.tap (State.bitList 256 v.toNat)]) ∧
    (∀ tok : List Byte, s.awake = true →
      (s.tokenOk tok = true → ∃ s', exec (.unlock tok) s = .next s' ∧ s'.st.key = none ∧ s'.st.puf = false ∧
        s'.getF 0x1040 8 8 = 1 ∧ s'.st.scopes = (s.st.scopes ||| field tok 40 2 % 4)) ∧
      (s.tokenOk tok = false → ∃ s', exec (.unlock tok) s = .next s' ∧ s'.st.nonce = none ∧ s'.st.key = s.st.key ∧
        s'.st.scopes = s.st.scopes ∧ s'.getF 0x1040 31 16 = min 0xFFFF (s.getF 0x1040 31 16 + 1))) ∧
    (∀ x ∈ [(Instr.extest, TapIr.extest), (.clamp, .clamp), (.highz, .highz)], ∃ s', exec x.1 s = .next s' ∧
      s'.st.tap = x.2 ∧ s'.st.tapStopped = true ∧ s'.st.booting = false ∧ (s.awake = true → UnitsReset s')) ∧
    (∀ b : Bool, ∃ s', exec (.bypass b) s = .next s' ∧ s'.st.tap = .bypass ∧ s'.st.bypassBit = b ∧
      s'.out = s.out ++ [.tap [decide (s.st.tap = .bypass) && s.st.bypassBit]]) ∧
    (∃ s', exec .idcode s = .next s' ∧ s'.st.tap = .idcode ∧
      s'.out = s.out ++ [.tap (State.bitList 32 Config.idcode.toNat)]) ∧
    (∀ bs : List Bool, ∃ s' o, exec (.samplePreload bs) s = .next s' ∧ s'.st.boundary = bs ∧
      s'.out = s.out ++ [.tap o] ∧ o.length = bs.length) ∧
    ∀ b : Bool, ∃ s', exec (.tapReset b) s = .next s' ∧ s'.st.tap = .idcode ∧ s'.st.bypassBit = false ∧
      s'.st.tapStopped = false ∧ (s.st.tapStopped = true → s.st.perst0 = false → s.st.thermtrip = false →
        s'.st.booting = (decide (s.st.boot = .full) || !s.straps.testen) ∧ s'.st.boot = s.st.boot)) ∧
  (∀ s : State, s.st.powered = false → exec .unlockNonce s = .next s ∧ exec .extest s = .next s) ∧
  ∀ (s : State) (a x : BitVec 7), s.st.powered = true → (s.st.perst0 = false ∨ s.st.thermtrip = true) →
    (∃ s', exec (.dynamicAddressAssignment a .entdaa) s = .next s' ∧ s'.st.i3c = some a ∧ s'.regs = s.regs) ∧
    (x.toNat = 0x30 + s.straps.i3cSa.toNat → s.st.i3c = none →
      ∃ s', exec (.dynamicAddressAssignment a (.setdasa x)) s = .next s' ∧ s'.st.i3c = some a ∧ s'.regs = s.regs) ∧
    ((x.toNat ≠ 0x30 + s.straps.i3cSa.toNat ∨ s.st.i3c ≠ none) →
      exec (.dynamicAddressAssignment a (.setdasa x)) s = .next s)

/-! ### Register pages and the block -/

/-- R465, R466: a masked cause is not logged; the first cause is kept in ERR_FIRST, the next in ERR_NEXT, and a later
one sets its overflow bit; each counts. -/
def Claims.CausesAreLoggedInOrder : Prop :=
  ∀ (s s' : State) (p : Page) (c : Cause) (slot : Nat), s.logAs p c false 0 = (slot, s') →
    ((s.reg (p.base + 0x1C)).testBit c.row.2.1 = true → s' = s ∧ slot = 0) ∧
    ((s.reg (p.base + 0x1C)).testBit c.row.2.1 = false →
      s'.getF (p.base + 0x24) 15 0 = min 0xFFFF (s.getF (p.base + 0x24) 15 0 + 1) ∧
      (s.getF (p.base + 0x14) 31 31 = 0 → slot = 1 ∧ s'.getF (p.base + 0x14) 31 31 = 1 ∧
        s'.getF (p.base + 0x14) 7 0 = c.row.1 ∧ s'.reg (p.base + 0x18) = s.reg (p.base + 0x18)) ∧
      (s.getF (p.base + 0x14) 31 31 = 1 → s'.reg (p.base + 0x14) = s.reg (p.base + 0x14)) ∧
      (s.getF (p.base + 0x14) 31 31 = 1 → s.getF (p.base + 0x18) 31 31 = 0 → s'.getF (p.base + 0x18) 31 31 = 1 ∧
        s'.getF (p.base + 0x18) 7 0 = c.row.1) ∧
      (s.getF (p.base + 0x14) 31 31 = 1 → s.getF (p.base + 0x18) 31 31 = 1 → s'.getF (p.base + 0x18) 9 9 = 1))

/-- R465, R467, R468: PAGE_CTRL takes LOGERR, sets LOCK for good, and QREQ in a page that can quiesce; a 1 in VALID
clears ERR_FIRST or ERR_NEXT; ERR_INJECT logs the cause it names as injected, and a code that is none of the page's
causes does nothing. It meets the model's own choices of log entries 22, 18 and 19. -/
def Claims.PageHeadersAreWritten : Prop :=
  ∀ (s : State) (h b : Nat) (p : Page) (v : BitVec 32), IsPage p → BarReady s h p → b = p.base →
    (∃ s', exec (.quiesceRequest h (b + 0x0C) v) s = .next s' ∧ s'.getF (b + 0x0C) 0 0 = v.toNat % 2 ∧
      s'.getF (b + 0x0C) 2 2 = (if v.getLsbD 2 then 1 else s.getF (b + 0x0C) 2 2) ∧
      s'.getF (b + 0x0C) 1 1 = (if p.caps.2.1 then b2n (v.getLsbD 1) else s.getF (b + 0x0C) 1 1)) ∧
    (∀ o ∈ [0x14, 0x18], ∃ s', exec (.errClear h (b + o) v) s = .next s' ∧
      s'.reg (b + o) = (if v.getLsbD 31 then 0 else s.reg (b + o)) ∧ ∀ a, a ≠ b + o → s'.reg a = s.reg a) ∧
    (∀ c ∈ p.causes, v.getLsbD 31 = true → v.toNat % 256 = c.row.1 → ∃ s', exec (.errInject h (b + 0x20) v) s = .next s' ∧
      Logs s s' p c ∧ (s.getF (b + 0x14) 31 31 = 0 → (s.reg (b + 0x1C)).testBit c.row.2.1 = false →
        s'.getF (b + 0x14) 8 8 = 1)) ∧
    ((v.getLsbD 31 = false ∨ ∀ c ∈ p.causes, c.row.1 ≠ v.toNat % 256) → exec (.errInject h (b + 0x20) v) s = .next s)

/-- R15, R17, R462, R469: a read answers a register's value; a reserved offset reads zero and logs UNMAPPED, as a write
there does; LINKERR of a head that is up may have counted replays since it was last read; a wrong width, eight bytes at a reserved offset among them, logs ACCESS_WIDTH; a write of all ones clears a
counter and any other value leaves it; the lower half of a 64-bit register waits for the upper half and both are then
written together. It meets the model's own choices of log entries 13 and 14. -/
def Claims.RegistersAreReadAndWritten : Prop :=
  (∀ (s : State) (h a : Nat) (write : Bool), BarReady s h .global → a < 0x4000000 → a % 4 = 0 →
    State.unmappedAt a = true → ∃ s', exec (.unmapped h a write) s = .next s' ∧ Logged s s' .global .unmapped ∧
      (write = false → s'.out.getLast? = some (.bar0 h 0)) ∧
      (s.getF 0x14 31 31 = 0 → (s.reg 0x1C).testBit 1 = false → s'.reg 0x44 = a + 2 ^ 31 * b2n write)) ∧
  (∀ (s : State) (h a w : Nat) (write : Bool), BarReady s h .global → a < 0x4000000 →
    (¬(w = 4 ∨ w = 8) ∨ a % w ≠ 0 ∨ w = 8 ∧ State.unmappedAt a = true ∨
      w = 8 ∧ ∃ p r st, pageAt a = some p ∧ regAt p (a - p.base) = some (r, st) ∧ r.width ≠ 64) →
    ∃ s', exec (.accessWidth h a w write) s = .next s' ∧ Logged s s' .global .accessWidth ∧
      (write = false → s'.out.getLast? = some (.bar0 h (BitVec.allOnes 64)))) ∧
  (∀ (s : State) (h : Nat), BarReady s h .global → ∀ k, k < 2 → s.headUp k = true →
    ∃ s' n, exec (.accessWidth h ((Page.host k).base + 0x60) 4 false) s = .next s' ∧
      s'.getF ((Page.host k).base + 0x60) 15 0 = min 0xFFFF (s.getF ((Page.host k).base + 0x60) 15 0 + n) ∧
      s'.out = s.out ++ [.bar0 h (BitVec.ofNat 64 (s'.view ((Page.host k).base + 0x60)))]) ∧
  (∀ (s : State) (h o : Nat) (p : Page) (r : RegDesc), BarReady s h p → IsPage p → regAt p o = some (r, o) → o < 0x1000 →
    (∀ k, k < 2 → s.headUp k = true → p.base + o ≠ (Page.host k).base + 0x60) →
    ∃ s', exec (.accessWidth h (p.base + o) (r.width / 8) false) s = .next s' ∧
      s'.out = s.out ++ [.bar0 h (BitVec.ofNat 64 (s.view (p.base + o)))] ∧ s'.regs = s.regs) ∧
  (∀ (s : State) (h a : Nat) (v : BitVec 64), a ∈ [0x3078, 0x3080, 0x3088] → BarReady s h .tithe →
    ∃ s', exec (.counterClear h a 8 v) s = .next s' ∧
      s'.reg a = (if v = BitVec.allOnes 64 then 0 else s.reg a) ∧ ∀ b, b ≠ a → s'.reg b = s.reg b) ∧
  ∀ (s : State) (h o : Nat) (v : BitVec 64) (p : Page) (r : RegDesc), BarReady s h p → IsPage p →
    regAt p o = some (r, o) → o < 0x1000 →
      (r.width = 32 → exec (.registerWrite h (p.base + o) 4 v) s = .next (s.writeReg p r o (v.toNat % 2 ^ 32))) ∧
      (r.width = 64 → exec (.registerWrite h (p.base + o) 8 v) s = .next (s.writeReg p r o v.toNat)) ∧
      (r.width = 64 → ∀ x : BitVec 64, ∃ s₁, exec (.registerWrite h (p.base + o) 4 v) s = .next s₁ ∧ s₁.regs = s.regs ∧
        (s₁.host h).pendingLow = some (p.base + o, v.truncate 32) ∧
        exec (.registerWrite h (p.base + o + 4) 4 x) s₁ =
          .next (s.writeReg p r o (v.toNat % 2 ^ 32 + x.toNat % 2 ^ 32 * 2 ^ 32)))

/-- R16, R17, R368, R374, R389, R394: an event that a write logs by giving up another register's half is kept, even when the
write clears ERR_FIRST; while the function is not in D0 a read answers all ones and a write changes nothing; while HCLK stands still neither does
anything; configuration
requests are answered with Request Retry Status before boot stage 2, and after it a write of MSI-X control sets MSI-X
Enable and Function Mask; the mailbox control register holds the interrupt enable. The places of those words are the
model's own choice of log entry 90, which this claim meets with log entry 15. -/
def Claims.HeadsHoldTheirOwnRegisters : Prop :=
  (∀ (s : State) (h lo : Nat) (x : BitVec 32) (v : BitVec 32), h < 2 → s.headUp h = true → s.inD0 h = true →
    s.pllLost 36 = false → (s.host h).pendingLow = some (lo, x) → lo ≠ 0x10 → v.getLsbD 31 = true → (s.reg 0x1C).testBit Cause.accessWidth.row.2.1 = false →
    ∃ s', exec (.errClear h 0x14 v) s = .next s' ∧ s'.getF 0x14 31 31 = 1 ∧
      s'.getF 0x14 7 0 = Cause.accessWidth.row.1 ∧ (s'.host h).pendingLow = none) ∧
  (∀ (s : State) (h a w : Nat) (v : BitVec 64), h < 2 → s.headUp h = true → s.pllLost 36 = false → s.inD0 h = false →
    a < 0x4000000 →
    exec (.accessWidth h a w false) s = .next (s.emit (.bar0 h (BitVec.allOnes 64))) ∧
    exec (.registerWrite h a w v) s = .next s) ∧
  (∀ (s : State) (h a w : Nat) (v : BitVec 64), h < 2 → s.pllLost 36 = true → a < 0x4001000 →
    exec (.accessWidth h a w false) s = .next s ∧ exec (.registerWrite h a w v) s = .next s) ∧
  ∀ (s : State) (h : Nat) (v : BitVec 64), h < 2 → s.headUp h = true → s.pllLost 36 = false →
    (s.configReady = false → ∀ a, State.configBase ≤ a → a < State.configBase + 0x1000 → a % 4 = 0 →
      exec (.accessWidth h a 4 false) s = .next (s.emit (.configRetry h)) ∧
      exec (.registerWrite h a 4 v) s = .next (s.emit (.configRetry h))) ∧
    (s.configReady = true → ∃ s', exec (.registerWrite h (State.configBase + 0xB0) 4 v) s = .next s' ∧
      (s'.host h).msixEnable = v.getLsbD 31 ∧ (s'.host h).functionMask = v.getLsbD 30 ∧ s'.regs = s.regs) ∧
    (s.inD0 h = true → (s.host h).pendingLow = none → 6 ≤ s.getF 0x1040 3 0 →
      ∃ s', exec (.registerWrite h 0x3C204 4 v) s = .next s' ∧ (s'.host h).mailboxIrq = v.getLsbD 1 ∧ s'.regs = s.regs)

/-- R465, R466, R467, R468, R15, R17, R462, R469, R16, R368, R374, R389: Causes are logged in order; page headers and
registers are read and written. -/
def Obligations.RegisterPagesAreReadAndWritten : Prop :=
  Claims.CausesAreLoggedInOrder ∧ Claims.PageHeadersAreWritten ∧ Claims.RegistersAreReadAndWritten ∧
    Claims.HeadsHoldTheirOwnRegisters

/-- A step performs the command at the front of the queue with the queue's rest waiting; with no command waiting the
block idles. It meets the model's own choices of log entries 1 and 3. -/
def Obligations.AStepRunsTheFrontCommand : Prop :=
  (∀ (s : State) (c : Instr) (rest : List Instr),
    step { s with pending := c :: rest } = exec c { s with pending := rest }) ∧
  ∀ s : State, s.pending = [] → step s = .next s

/-- R458, R470, R487: after a power-on reset no boot stage is complete, no range is active, every tile is idle with its
registers, bin and crib zero, no gang is live, no tally bound, every queue is empty, and registers read their reset
values. It meets the model's own choices of log entries 10 and 9. -/
def Claims.PowerOnResetLeavesTheBlockEmpty : Prop :=
  State.reset.stage = 0 ∧ State.reset.st.fieldActive = false ∧ State.reset.st.barnActive = false ∧
    State.reset.st.perst0 = true ∧ State.reset.st.perst1 = true ∧ State.reset.pending = [] ∧
    (∀ t, State.reset.tile t = Tile.reset ∧ (Tile.reset.core = .idle ∧ Tile.reset.pc = 0 ∧ Tile.reset.queue = [] ∧
      (∀ r, Tile.reset.rd r = 0) ∧ ∀ a, SMap.look 0 Tile.reset.bin a = 0 ∧ SMap.look 0 Tile.reset.crib a = 0)) ∧
    (∀ g, (State.reset.gang g).live = false) ∧ (∀ p n, (State.reset.padNode p n).bound = false) ∧
    (∀ f, (State.reset.flag f).value = 0) ∧ (∀ a, State.reset.reg a = (regReset a).toNat) ∧
    (∀ c i, c < 64 → i < 5 → State.reset.reg ((Page.barn c).base + 0x44 + 4 * i) = 0x10800 * 2 ^ i) ∧
    ∀ h n, h < 2 → n < 72 → State.reset.getF ((Page.host h).base + 0x800 + 16 * n + 12) 0 0 = 1

/-- The memories are in canonical form at reset. It meets the model's own choices of log entry 38. -/
def Claims.ResetMemoriesAreCanonical : Prop := MemoriesCanonical State.reset

/-- R112: at reset no queue holds an entry. -/
def Claims.QueuesAreCheckedAtReset : Prop := QueuesChecked State.reset ∧ ∀ t, (State.reset.tile t).queue = []

/-- R458, R470, R487, R112: After a power-on reset the block is empty, its memories canonical and its queues checked. -/
def Obligations.ResetLeavesTheBlockEmpty : Prop :=
  Claims.PowerOnResetLeavesTheBlockEmpty ∧ Claims.ResetMemoriesAreCanonical ∧ Claims.QueuesAreCheckedAtReset

/-- R18, R20, R461: every command that names units the module has completes, in every state: it answers a next state. A
command that names a unit the module does not have stops by noSuchUnit. The stop is the model's own (the spec gives such
a command no meaning): log entry 2. -/
def Obligations.CommandsCompleteExactlyWhenWellFormed : Prop :=
  ∀ (i : Instr) (s : State),
    (i.wf = true → ∃ t, exec i s = .next t) ∧ (i.wf = false → exec i s = .fault .noSuchUnit)
end

