-- ==== Sys2Proof/Laws/Map.lean ====
section
/-! SUPPORT. The laws of the sparse maps: read after write, the canonical form, and reading and writing byte strings. -/

namespace Sys2Proof.Machine

section Maps

variable {α : Type} {d v : α} {m : SMap α} {k j : Nat}

@[simp] theorem SMap.look_nil : SMap.look d ([] : SMap α) k = d := rfl

theorem SMap.look_drop_self (d : α) (m : SMap α) (k : Nat) : SMap.look d (SMap.drop m k) k = d := by
  induction m with
  | nil => rfl
  | cons c m ih => unfold SMap.drop; split <;> simp_all [SMap.look]

theorem SMap.look_drop_ne (d : α) (m : SMap α) (h : j ≠ k) : SMap.look d (SMap.drop m k) j = SMap.look d m j := by
  induction m with
  | nil => rfl
  | cons c m ih => unfold SMap.drop; split <;> simp_all [SMap.look]; omega

theorem SMap.look_insert_ne (d : α) (m : SMap α) (h : j ≠ k) :
    SMap.look d (SMap.insert k v m) j = SMap.look d m j := by
  induction m with
  | nil => simp [SMap.insert, SMap.look]; omega
  | cons c m ih => unfold SMap.insert; split <;> simp_all [SMap.look]; omega

/-- No entry of key `k` is left after a drop. -/
theorem SMap.drop_no_key (m : SMap α) (k : Nat) : ∀ c ∈ SMap.drop m k, c.1 ≠ k := by
  induction m with
  | nil => simp [SMap.drop]
  | cons c m ih =>
    unfold SMap.drop; split
    · exact ih
    · exact List.forall_mem_cons.2 ⟨by assumption, ih⟩

theorem SMap.look_insert_fresh (d : α) (m : SMap α) (h : ∀ c ∈ m, c.1 ≠ k) :
    SMap.look d (SMap.insert k v m) k = v := by
  induction m with
  | nil => simp [SMap.insert, SMap.look]
  | cons c m ih => unfold SMap.insert; split <;> simp_all [SMap.look]

/-- Read after write, the same key. -/
@[simp] theorem SMap.look_put_self [DecidableEq α] (d : α) (m : SMap α) (k : Nat) (v : α) :
    SMap.look d (SMap.put d m k v) k = v := by
  unfold SMap.put; split
  · subst_vars; exact SMap.look_drop_self v m k
  · exact SMap.look_insert_fresh d _ (SMap.drop_no_key m k)

/-- A write leaves every other key alone. -/
@[simp] theorem SMap.look_put_ne [DecidableEq α] (d e : α) (m : SMap α) (v : α) (h : j ≠ k) :
    SMap.look e (SMap.put d m k v) j = SMap.look e m j := by
  unfold SMap.put; split
  · exact SMap.look_drop_ne e m h
  · rw [SMap.look_insert_ne e _ h, SMap.look_drop_ne e m h]

theorem SMap.look_put [DecidableEq α] (d : α) (m : SMap α) (k j : Nat) (v : α) :
    SMap.look d (SMap.put d m k v) j = if j = k then v else SMap.look d m j := by
  by_cases h : j = k
  · subst h; simp
  · simp [h]

/-! ### The canonical form -/

theorem SMap.sorted_cons {c : Nat × α} {m : SMap α} :
    SMap.sorted (c :: m) = true ↔ (∀ e ∈ m.head?, c.1 < e.1) ∧ SMap.sorted m = true := by
  cases m <;> simp [SMap.sorted]

theorem SMap.sorted_iff_pairwise (m : SMap α) :
    SMap.sorted m = true ↔ m.Pairwise (fun a b => a.1 < b.1) := by
  induction m with
  | nil => simp [SMap.sorted]
  | cons c m ih =>
    rw [SMap.sorted_cons, List.pairwise_cons, ih]
    constructor
    · rintro ⟨h, hp⟩
      refine ⟨fun e he => ?_, hp⟩
      cases m with
      | nil => simp at he
      | cons a m =>
        have ha : c.1 < a.1 := h a (by simp)
        rcases List.mem_cons.1 he with rfl | he
        · exact ha
        · exact lt_trans ha ((List.pairwise_cons.1 hp).1 e he)
    · rintro ⟨h, hp⟩
      refine ⟨fun e he => h e ?_, hp⟩
      cases m <;> simp_all

theorem SMap.mem_drop {e : Nat × α} (m : SMap α) (h : e ∈ SMap.drop m k) : e ∈ m := by
  induction m with
  | nil => simp [SMap.drop] at h
  | cons c m ih => unfold SMap.drop at h; split at h <;> simp_all; tauto

theorem SMap.drop_sublist (m : SMap α) (k : Nat) : (SMap.drop m k).Sublist m := by
  induction m with
  | nil => exact .slnil
  | cons c m ih => unfold SMap.drop; split; exacts [ih.cons _, ih.cons_cons _]

theorem SMap.mem_insert {e : Nat × α} (m : SMap α) (h : e ∈ SMap.insert k v m) : e = (k, v) ∨ e ∈ m := by
  induction m with
  | nil => simpa [SMap.insert] using h
  | cons c m ih => unfold SMap.insert at h; split at h <;> simp_all; tauto

theorem SMap.pairwise_insert (m : SMap α) (hp : m.Pairwise (fun a b => a.1 < b.1)) (hk : ∀ c ∈ m, c.1 ≠ k) :
    (SMap.insert k v m).Pairwise (fun a b => a.1 < b.1) := by
  induction m with
  | nil => simp [SMap.insert]
  | cons c m ih =>
    unfold SMap.insert
    obtain ⟨hc, hp'⟩ := List.pairwise_cons.1 hp
    split
    · rename_i hlt
      refine List.pairwise_cons.2 ⟨fun e he => ?_, hp⟩
      rcases List.mem_cons.1 he with rfl | he
      · exact hlt
      · exact lt_trans hlt (hc e he)
    · rename_i hlt
      have hne := hk c (by simp)
      refine List.pairwise_cons.2 ⟨fun e he => ?_, ih hp' fun e he => hk e (by simp [he])⟩
      rcases SMap.mem_insert m he with rfl | he
      · exact lt_of_le_of_ne (not_lt.1 hlt) hne
      · exact hc e he

/-- A write keeps the canonical form. -/
theorem SMap.wf_put [DecidableEq α] (d : α) (m : SMap α) (k : Nat) (v : α) (h : SMap.wf d m = true) :
    SMap.wf d (SMap.put d m k v) = true := by
  simp only [SMap.wf, Bool.and_eq_true, List.all_eq_true, decide_eq_true_eq] at *
  obtain ⟨hs, hd⟩ := h
  have hp := ((SMap.sorted_iff_pairwise m).1 hs).sublist (SMap.drop_sublist m k)
  unfold SMap.put; split
  · exact ⟨(SMap.sorted_iff_pairwise _).2 hp, fun e he => hd e (SMap.mem_drop m he)⟩
  · refine ⟨(SMap.sorted_iff_pairwise _).2 (SMap.pairwise_insert _ hp (SMap.drop_no_key m k)), fun e he => ?_⟩
    rcases SMap.mem_insert _ he with rfl | he
    · assumption
    · exact hd e (SMap.mem_drop m he)

@[simp] theorem SMap.wf_nil [DecidableEq α] (d : α) : SMap.wf d ([] : SMap α) = true := rfl

end Maps

/-! ### Byte strings in a memory -/

@[simp] theorem readBytes_length (m : SMap Byte) (a n : Nat) : (readBytes m a n).length = n := by
  induction n generalizing a with
  | zero => rfl
  | succ n ih => simp [readBytes, ih]

/-- Every memory write keeps the canonical form. -/
theorem writeBytes_wf (m : SMap Byte) (a : Nat) (bs : List Byte) (h : Memory.wf m = true) :
    Memory.wf (writeBytes m a bs) = true := by
  induction bs generalizing m a with
  | nil => exact h
  | cons b bs ih => exact ih _ _ (SMap.wf_put _ _ _ _ h)

/-- A byte outside the stored range reads as before. -/
theorem look_writeBytes_outside (m : SMap Byte) (a : Nat) (bs : List Byte) (x : Nat)
    (h : x < a ∨ a + bs.length ≤ x) : SMap.look 0 (writeBytes m a bs) x = SMap.look 0 m x := by
  induction bs generalizing m a with
  | nil => rfl
  | cons b bs ih =>
    simp only [List.length_cons] at h
    rw [writeBytes, ih _ _ (by omega), SMap.look_put_ne _ _ _ _ (by omega)]

/-- Every stored byte reads back. -/
theorem look_writeBytes_inside (m : SMap Byte) (a : Nat) (bs : List Byte) (i : Nat) (h : i < bs.length) :
    SMap.look 0 (writeBytes m a bs) (a + i) = bs[i] := by
  induction bs generalizing m a i with
  | nil => simp at h
  | cons b bs ih =>
    cases i with
    | zero => rw [writeBytes, look_writeBytes_outside _ _ _ _ (by omega)]; simp
    | succ i =>
      have := ih (SMap.put 0 m a b) (a + 1) i (by simpa using h)
      rw [writeBytes]; simpa [Nat.add_assoc, Nat.add_comm 1 i] using this

/-- Read after write of the same bytes. -/
theorem readBytes_writeBytes_self (m : SMap Byte) (a : Nat) (bs : List Byte) :
    readBytes (writeBytes m a bs) a bs.length = bs := by
  induction bs generalizing m a with
  | nil => rfl
  | cons b bs ih =>
    simp only [List.length_cons, readBytes, writeBytes, ih]
    rw [look_writeBytes_outside _ _ _ _ (by omega)]; simp

/-- Reading bytes none of which is stored to. -/
theorem readBytes_writeBytes_outside (m : SMap Byte) (a b n : Nat) (bs : List Byte)
    (h : b + n ≤ a ∨ a + bs.length ≤ b) : readBytes (writeBytes m a bs) b n = readBytes m b n := by
  induction n generalizing b with
  | zero => rfl
  | succ n ih =>
    simp only [readBytes]
    rw [ih _ (by omega), look_writeBytes_outside _ _ _ _ (by omega)]

@[simp] theorem leBytes_length (n v : Nat) : (leBytes n v).length = n := by
  induction n generalizing v with
  | zero => rfl
  | succ n ih => simp [leBytes, ih]

/-- The little-endian bytes of a value give it back, modulo their number (R13). -/
@[simp] theorem leNat_leBytes (n v : Nat) : leNat (leBytes n v) = v % 256 ^ n := by
  induction n generalizing v with
  | zero => simp [leBytes, leNat, Nat.mod_one]
  | succ n ih =>
    have h : 256 ^ (n + 1) = 256 * 256 ^ n := by omega
    rw [leBytes, leNat, ih, h, Nat.mod_mul]
    rfl

theorem leNat_lt (bs : List Byte) : leNat bs < 256 ^ bs.length := by
  induction bs with
  | nil => simp [leNat]
  | cons b bs ih =>
    simp only [leNat, List.length_cons, pow_succ]
    have := b.isLt; omega

end Sys2Proof.Machine
end

