-- ==== Sys2Proof/Laws/State.lean ====
section
/-! SUPPORT. One lemma per field of State per update: what an update leaves alone. -/

namespace Sys2Proof.Machine.State

/-! ### setTile -/

@[simp] theorem setTile_pending (s : State) (t : Nat) (x : Tile) : (s.setTile t x).pending = s.pending := rfl
@[simp] theorem setTile_fresh (s : State) (t : Nat) (x : Tile) : (s.setTile t x).fresh = s.fresh := rfl
@[simp] theorem setTile_regs (s : State) (t : Nat) (x : Tile) : (s.setTile t x).regs = s.regs := rfl
@[simp] theorem setTile_pillars (s : State) (t : Nat) (x : Tile) : (s.setTile t x).pillars = s.pillars := rfl
@[simp] theorem setTile_channels (s : State) (t : Nat) (x : Tile) : (s.setTile t x).channels = s.channels := rfl
@[simp] theorem setTile_fieldData (s : State) (t : Nat) (x : Tile) : (s.setTile t x).fieldData = s.fieldData := rfl
@[simp] theorem setTile_fieldCheck (s : State) (t : Nat) (x : Tile) : (s.setTile t x).fieldCheck = s.fieldCheck := rfl
@[simp] theorem setTile_barnData (s : State) (t : Nat) (x : Tile) : (s.setTile t x).barnData = s.barnData := rfl
@[simp] theorem setTile_barnCheck (s : State) (t : Nat) (x : Tile) : (s.setTile t x).barnCheck = s.barnCheck := rfl
@[simp] theorem setTile_gangs (s : State) (t : Nat) (x : Tile) : (s.setTile t x).gangs = s.gangs := rfl
@[simp] theorem setTile_lastQueue (s : State) (t : Nat) (x : Tile) : (s.setTile t x).lastQueue = s.lastQueue := rfl
@[simp] theorem setTile_disp (s : State) (t : Nat) (x : Tile) : (s.setTile t x).disp = s.disp := rfl
@[simp] theorem setTile_mesh (s : State) (t : Nat) (x : Tile) : (s.setTile t x).mesh = s.mesh := rfl
@[simp] theorem setTile_lastSource (s : State) (t : Nat) (x : Tile) : (s.setTile t x).lastSource = s.lastSource := rfl
@[simp] theorem setTile_lastHead (s : State) (t : Nat) (x : Tile) : (s.setTile t x).lastHead = s.lastHead := rfl
@[simp] theorem setTile_pllLost (s : State) (t : Nat) (x : Tile) (k : Nat) : (s.setTile t x).pllLost k = s.pllLost k := rfl
@[simp] theorem setTile_tally (s : State) (t : Nat) (x : Tile) : (s.setTile t x).tally = s.tally := rfl
@[simp] theorem setTile_h0 (s : State) (t : Nat) (x : Tile) : (s.setTile t x).h0 = s.h0 := rfl
@[simp] theorem setTile_h1 (s : State) (t : Nat) (x : Tile) : (s.setTile t x).h1 = s.h1 := rfl
@[simp] theorem setTile_events (s : State) (t : Nat) (x : Tile) : (s.setTile t x).events = s.events := rfl
@[simp] theorem setTile_locHeld (s : State) (t : Nat) (x : Tile) : (s.setTile t x).locHeld = s.locHeld := rfl
@[simp] theorem setTile_fuses (s : State) (t : Nat) (x : Tile) : (s.setTile t x).fuses = s.fuses := rfl
@[simp] theorem setTile_sensed (s : State) (t : Nat) (x : Tile) : (s.setTile t x).sensed = s.sensed := rfl
@[simp] theorem setTile_fence (s : State) (t : Nat) (x : Tile) : (s.setTile t x).fence = s.fence := rfl
@[simp] theorem setTile_ridge (s : State) (t : Nat) (x : Tile) : (s.setTile t x).ridge = s.ridge := rfl
@[simp] theorem setTile_tithe (s : State) (t : Nat) (x : Tile) : (s.setTile t x).tithe = s.tithe := rfl
@[simp] theorem setTile_traceQ (s : State) (t : Nat) (x : Tile) : (s.setTile t x).traceQ = s.traceQ := rfl
@[simp] theorem setTile_straps (s : State) (t : Nat) (x : Tile) : (s.setTile t x).straps = s.straps := rfl
@[simp] theorem setTile_st (s : State) (t : Nat) (x : Tile) : (s.setTile t x).st = s.st := rfl
@[simp] theorem setTile_out (s : State) (t : Nat) (x : Tile) : (s.setTile t x).out = s.out := rfl
@[simp] theorem setTile_pillar (s : State) (t : Nat) (x : Tile) (u : Nat) : (s.setTile t x).pillar u = s.pillar u := rfl
@[simp] theorem setTile_channel (s : State) (t : Nat) (x : Tile) (u : Nat) : (s.setTile t x).channel u = s.channel u := rfl
@[simp] theorem setTile_gang (s : State) (t : Nat) (x : Tile) (u : Nat) : (s.setTile t x).gang u = s.gang u := rfl
@[simp] theorem setTile_reg (s : State) (t : Nat) (x : Tile) (u : Nat) : (s.setTile t x).reg u = s.reg u := rfl
@[simp] theorem setTile_getF (s : State) (t : Nat) (x : Tile) (u j k : Nat) : (s.setTile t x).getF u j k = s.getF u j k := rfl
@[simp] theorem setTile_host (s : State) (t : Nat) (x : Tile) (u : Nat) : (s.setTile t x).host u = s.host u := rfl
@[simp] theorem setTile_ptileOf (s : State) (t : Nat) (x : Tile) (u : Nat) : (s.setTile t x).ptileOf u = s.ptileOf u := rfl

/-! ### onTile -/

@[simp] theorem onTile_pending (s : State) (t : Nat) (f : Tile → Tile) : (s.onTile t f).pending = s.pending := rfl
@[simp] theorem onTile_fresh (s : State) (t : Nat) (f : Tile → Tile) : (s.onTile t f).fresh = s.fresh := rfl
@[simp] theorem onTile_regs (s : State) (t : Nat) (f : Tile → Tile) : (s.onTile t f).regs = s.regs := rfl
@[simp] theorem onTile_pillars (s : State) (t : Nat) (f : Tile → Tile) : (s.onTile t f).pillars = s.pillars := rfl
@[simp] theorem onTile_channels (s : State) (t : Nat) (f : Tile → Tile) : (s.onTile t f).channels = s.channels := rfl
@[simp] theorem onTile_fieldData (s : State) (t : Nat) (f : Tile → Tile) : (s.onTile t f).fieldData = s.fieldData := rfl
@[simp] theorem onTile_fieldCheck (s : State) (t : Nat) (f : Tile → Tile) : (s.onTile t f).fieldCheck = s.fieldCheck := rfl
@[simp] theorem onTile_barnData (s : State) (t : Nat) (f : Tile → Tile) : (s.onTile t f).barnData = s.barnData := rfl
@[simp] theorem onTile_barnCheck (s : State) (t : Nat) (f : Tile → Tile) : (s.onTile t f).barnCheck = s.barnCheck := rfl
@[simp] theorem onTile_gangs (s : State) (t : Nat) (f : Tile → Tile) : (s.onTile t f).gangs = s.gangs := rfl
@[simp] theorem onTile_lastQueue (s : State) (t : Nat) (f : Tile → Tile) : (s.onTile t f).lastQueue = s.lastQueue := rfl
@[simp] theorem onTile_disp (s : State) (t : Nat) (f : Tile → Tile) : (s.onTile t f).disp = s.disp := rfl
@[simp] theorem onTile_mesh (s : State) (t : Nat) (f : Tile → Tile) : (s.onTile t f).mesh = s.mesh := rfl
@[simp] theorem onTile_lastSource (s : State) (t : Nat) (f : Tile → Tile) : (s.onTile t f).lastSource = s.lastSource := rfl
@[simp] theorem onTile_lastHead (s : State) (t : Nat) (f : Tile → Tile) : (s.onTile t f).lastHead = s.lastHead := rfl
@[simp] theorem onTile_pllLost (s : State) (t : Nat) (f : Tile → Tile) (k : Nat) : (s.onTile t f).pllLost k = s.pllLost k := rfl
@[simp] theorem onTile_tally (s : State) (t : Nat) (f : Tile → Tile) : (s.onTile t f).tally = s.tally := rfl
@[simp] theorem onTile_h0 (s : State) (t : Nat) (f : Tile → Tile) : (s.onTile t f).h0 = s.h0 := rfl
@[simp] theorem onTile_h1 (s : State) (t : Nat) (f : Tile → Tile) : (s.onTile t f).h1 = s.h1 := rfl
@[simp] theorem onTile_events (s : State) (t : Nat) (f : Tile → Tile) : (s.onTile t f).events = s.events := rfl
@[simp] theorem onTile_locHeld (s : State) (t : Nat) (f : Tile → Tile) : (s.onTile t f).locHeld = s.locHeld := rfl
@[simp] theorem onTile_fuses (s : State) (t : Nat) (f : Tile → Tile) : (s.onTile t f).fuses = s.fuses := rfl
@[simp] theorem onTile_sensed (s : State) (t : Nat) (f : Tile → Tile) : (s.onTile t f).sensed = s.sensed := rfl
@[simp] theorem onTile_fence (s : State) (t : Nat) (f : Tile → Tile) : (s.onTile t f).fence = s.fence := rfl
@[simp] theorem onTile_ridge (s : State) (t : Nat) (f : Tile → Tile) : (s.onTile t f).ridge = s.ridge := rfl
@[simp] theorem onTile_tithe (s : State) (t : Nat) (f : Tile → Tile) : (s.onTile t f).tithe = s.tithe := rfl
@[simp] theorem onTile_traceQ (s : State) (t : Nat) (f : Tile → Tile) : (s.onTile t f).traceQ = s.traceQ := rfl
@[simp] theorem onTile_straps (s : State) (t : Nat) (f : Tile → Tile) : (s.onTile t f).straps = s.straps := rfl
@[simp] theorem onTile_st (s : State) (t : Nat) (f : Tile → Tile) : (s.onTile t f).st = s.st := rfl
@[simp] theorem onTile_out (s : State) (t : Nat) (f : Tile → Tile) : (s.onTile t f).out = s.out := rfl
@[simp] theorem onTile_pillar (s : State) (t : Nat) (f : Tile → Tile) (u : Nat) : (s.onTile t f).pillar u = s.pillar u := rfl
@[simp] theorem onTile_channel (s : State) (t : Nat) (f : Tile → Tile) (u : Nat) : (s.onTile t f).channel u = s.channel u := rfl
@[simp] theorem onTile_gang (s : State) (t : Nat) (f : Tile → Tile) (u : Nat) : (s.onTile t f).gang u = s.gang u := rfl
@[simp] theorem onTile_reg (s : State) (t : Nat) (f : Tile → Tile) (u : Nat) : (s.onTile t f).reg u = s.reg u := rfl
@[simp] theorem onTile_getF (s : State) (t : Nat) (f : Tile → Tile) (u j k : Nat) : (s.onTile t f).getF u j k = s.getF u j k := rfl
@[simp] theorem onTile_host (s : State) (t : Nat) (f : Tile → Tile) (u : Nat) : (s.onTile t f).host u = s.host u := rfl
@[simp] theorem onTile_ptileOf (s : State) (t : Nat) (f : Tile → Tile) (u : Nat) : (s.onTile t f).ptileOf u = s.ptileOf u := rfl

/-! ### onPillar -/

@[simp] theorem onPillar_pending (s : State) (t : Nat) (f : Pillar → Pillar) : (s.onPillar t f).pending = s.pending := rfl
@[simp] theorem onPillar_fresh (s : State) (t : Nat) (f : Pillar → Pillar) : (s.onPillar t f).fresh = s.fresh := rfl
@[simp] theorem onPillar_regs (s : State) (t : Nat) (f : Pillar → Pillar) : (s.onPillar t f).regs = s.regs := rfl
@[simp] theorem onPillar_tiles (s : State) (t : Nat) (f : Pillar → Pillar) : (s.onPillar t f).tiles = s.tiles := rfl
@[simp] theorem onPillar_channels (s : State) (t : Nat) (f : Pillar → Pillar) : (s.onPillar t f).channels = s.channels := rfl
@[simp] theorem onPillar_fieldData (s : State) (t : Nat) (f : Pillar → Pillar) : (s.onPillar t f).fieldData = s.fieldData := rfl
@[simp] theorem onPillar_fieldCheck (s : State) (t : Nat) (f : Pillar → Pillar) : (s.onPillar t f).fieldCheck = s.fieldCheck := rfl
@[simp] theorem onPillar_barnData (s : State) (t : Nat) (f : Pillar → Pillar) : (s.onPillar t f).barnData = s.barnData := rfl
@[simp] theorem onPillar_barnCheck (s : State) (t : Nat) (f : Pillar → Pillar) : (s.onPillar t f).barnCheck = s.barnCheck := rfl
@[simp] theorem onPillar_gangs (s : State) (t : Nat) (f : Pillar → Pillar) : (s.onPillar t f).gangs = s.gangs := rfl
@[simp] theorem onPillar_lastQueue (s : State) (t : Nat) (f : Pillar → Pillar) : (s.onPillar t f).lastQueue = s.lastQueue := rfl
@[simp] theorem onPillar_disp (s : State) (t : Nat) (f : Pillar → Pillar) : (s.onPillar t f).disp = s.disp := rfl
@[simp] theorem onPillar_mesh (s : State) (t : Nat) (f : Pillar → Pillar) : (s.onPillar t f).mesh = s.mesh := rfl
@[simp] theorem onPillar_lastSource (s : State) (t : Nat) (f : Pillar → Pillar) : (s.onPillar t f).lastSource = s.lastSource := rfl
@[simp] theorem onPillar_lastHead (s : State) (t : Nat) (f : Pillar → Pillar) : (s.onPillar t f).lastHead = s.lastHead := rfl
@[simp] theorem onPillar_pllLost (s : State) (t : Nat) (f : Pillar → Pillar) (k : Nat) : (s.onPillar t f).pllLost k = s.pllLost k := rfl
@[simp] theorem onPillar_tally (s : State) (t : Nat) (f : Pillar → Pillar) : (s.onPillar t f).tally = s.tally := rfl
@[simp] theorem onPillar_h0 (s : State) (t : Nat) (f : Pillar → Pillar) : (s.onPillar t f).h0 = s.h0 := rfl
@[simp] theorem onPillar_h1 (s : State) (t : Nat) (f : Pillar → Pillar) : (s.onPillar t f).h1 = s.h1 := rfl
@[simp] theorem onPillar_events (s : State) (t : Nat) (f : Pillar → Pillar) : (s.onPillar t f).events = s.events := rfl
@[simp] theorem onPillar_locHeld (s : State) (t : Nat) (f : Pillar → Pillar) : (s.onPillar t f).locHeld = s.locHeld := rfl
@[simp] theorem onPillar_fuses (s : State) (t : Nat) (f : Pillar → Pillar) : (s.onPillar t f).fuses = s.fuses := rfl
@[simp] theorem onPillar_sensed (s : State) (t : Nat) (f : Pillar → Pillar) : (s.onPillar t f).sensed = s.sensed := rfl
@[simp] theorem onPillar_fence (s : State) (t : Nat) (f : Pillar → Pillar) : (s.onPillar t f).fence = s.fence := rfl
@[simp] theorem onPillar_ridge (s : State) (t : Nat) (f : Pillar → Pillar) : (s.onPillar t f).ridge = s.ridge := rfl
@[simp] theorem onPillar_tithe (s : State) (t : Nat) (f : Pillar → Pillar) : (s.onPillar t f).tithe = s.tithe := rfl
@[simp] theorem onPillar_traceQ (s : State) (t : Nat) (f : Pillar → Pillar) : (s.onPillar t f).traceQ = s.traceQ := rfl
@[simp] theorem onPillar_straps (s : State) (t : Nat) (f : Pillar → Pillar) : (s.onPillar t f).straps = s.straps := rfl
@[simp] theorem onPillar_st (s : State) (t : Nat) (f : Pillar → Pillar) : (s.onPillar t f).st = s.st := rfl
@[simp] theorem onPillar_out (s : State) (t : Nat) (f : Pillar → Pillar) : (s.onPillar t f).out = s.out := rfl
@[simp] theorem onPillar_tile (s : State) (t : Nat) (f : Pillar → Pillar) (u : Nat) : (s.onPillar t f).tile u = s.tile u := rfl
@[simp] theorem onPillar_channel (s : State) (t : Nat) (f : Pillar → Pillar) (u : Nat) : (s.onPillar t f).channel u = s.channel u := rfl
@[simp] theorem onPillar_gang (s : State) (t : Nat) (f : Pillar → Pillar) (u : Nat) : (s.onPillar t f).gang u = s.gang u := rfl
@[simp] theorem onPillar_reg (s : State) (t : Nat) (f : Pillar → Pillar) (u : Nat) : (s.onPillar t f).reg u = s.reg u := rfl
@[simp] theorem onPillar_getF (s : State) (t : Nat) (f : Pillar → Pillar) (u j k : Nat) : (s.onPillar t f).getF u j k = s.getF u j k := rfl
@[simp] theorem onPillar_host (s : State) (t : Nat) (f : Pillar → Pillar) (u : Nat) : (s.onPillar t f).host u = s.host u := rfl
@[simp] theorem onPillar_ptileOf (s : State) (t : Nat) (f : Pillar → Pillar) (u : Nat) : (s.onPillar t f).ptileOf u = s.ptileOf u := rfl

/-! ### onChannel -/

@[simp] theorem onChannel_pending (s : State) (c : Nat) (f : Channel → Channel) : (s.onChannel c f).pending = s.pending := rfl
@[simp] theorem onChannel_fresh (s : State) (c : Nat) (f : Channel → Channel) : (s.onChannel c f).fresh = s.fresh := rfl
@[simp] theorem onChannel_regs (s : State) (c : Nat) (f : Channel → Channel) : (s.onChannel c f).regs = s.regs := rfl
@[simp] theorem onChannel_tiles (s : State) (c : Nat) (f : Channel → Channel) : (s.onChannel c f).tiles = s.tiles := rfl
@[simp] theorem onChannel_pillars (s : State) (c : Nat) (f : Channel → Channel) : (s.onChannel c f).pillars = s.pillars := rfl
@[simp] theorem onChannel_fieldData (s : State) (c : Nat) (f : Channel → Channel) : (s.onChannel c f).fieldData = s.fieldData := rfl
@[simp] theorem onChannel_fieldCheck (s : State) (c : Nat) (f : Channel → Channel) : (s.onChannel c f).fieldCheck = s.fieldCheck := rfl
@[simp] theorem onChannel_barnData (s : State) (c : Nat) (f : Channel → Channel) : (s.onChannel c f).barnData = s.barnData := rfl
@[simp] theorem onChannel_barnCheck (s : State) (c : Nat) (f : Channel → Channel) : (s.onChannel c f).barnCheck = s.barnCheck := rfl
@[simp] theorem onChannel_gangs (s : State) (c : Nat) (f : Channel → Channel) : (s.onChannel c f).gangs = s.gangs := rfl
@[simp] theorem onChannel_lastQueue (s : State) (c : Nat) (f : Channel → Channel) : (s.onChannel c f).lastQueue = s.lastQueue := rfl
@[simp] theorem onChannel_disp (s : State) (c : Nat) (f : Channel → Channel) : (s.onChannel c f).disp = s.disp := rfl
@[simp] theorem onChannel_mesh (s : State) (c : Nat) (f : Channel → Channel) : (s.onChannel c f).mesh = s.mesh := rfl
@[simp] theorem onChannel_lastSource (s : State) (c : Nat) (f : Channel → Channel) : (s.onChannel c f).lastSource = s.lastSource := rfl
@[simp] theorem onChannel_lastHead (s : State) (c : Nat) (f : Channel → Channel) : (s.onChannel c f).lastHead = s.lastHead := rfl
@[simp] theorem onChannel_pllLost (s : State) (c : Nat) (f : Channel → Channel) (k : Nat) : (s.onChannel c f).pllLost k = s.pllLost k := rfl
@[simp] theorem onChannel_tally (s : State) (c : Nat) (f : Channel → Channel) : (s.onChannel c f).tally = s.tally := rfl
@[simp] theorem onChannel_h0 (s : State) (c : Nat) (f : Channel → Channel) : (s.onChannel c f).h0 = s.h0 := rfl
@[simp] theorem onChannel_h1 (s : State) (c : Nat) (f : Channel → Channel) : (s.onChannel c f).h1 = s.h1 := rfl
@[simp] theorem onChannel_events (s : State) (c : Nat) (f : Channel → Channel) : (s.onChannel c f).events = s.events := rfl
@[simp] theorem onChannel_locHeld (s : State) (c : Nat) (f : Channel → Channel) : (s.onChannel c f).locHeld = s.locHeld := rfl
@[simp] theorem onChannel_fuses (s : State) (c : Nat) (f : Channel → Channel) : (s.onChannel c f).fuses = s.fuses := rfl
@[simp] theorem onChannel_sensed (s : State) (c : Nat) (f : Channel → Channel) : (s.onChannel c f).sensed = s.sensed := rfl
@[simp] theorem onChannel_fence (s : State) (c : Nat) (f : Channel → Channel) : (s.onChannel c f).fence = s.fence := rfl
@[simp] theorem onChannel_ridge (s : State) (c : Nat) (f : Channel → Channel) : (s.onChannel c f).ridge = s.ridge := rfl
@[simp] theorem onChannel_tithe (s : State) (c : Nat) (f : Channel → Channel) : (s.onChannel c f).tithe = s.tithe := rfl
@[simp] theorem onChannel_traceQ (s : State) (c : Nat) (f : Channel → Channel) : (s.onChannel c f).traceQ = s.traceQ := rfl
@[simp] theorem onChannel_straps (s : State) (c : Nat) (f : Channel → Channel) : (s.onChannel c f).straps = s.straps := rfl
@[simp] theorem onChannel_st (s : State) (c : Nat) (f : Channel → Channel) : (s.onChannel c f).st = s.st := rfl
@[simp] theorem onChannel_out (s : State) (c : Nat) (f : Channel → Channel) : (s.onChannel c f).out = s.out := rfl
@[simp] theorem onChannel_tile (s : State) (c : Nat) (f : Channel → Channel) (u : Nat) : (s.onChannel c f).tile u = s.tile u := rfl
@[simp] theorem onChannel_pillar (s : State) (c : Nat) (f : Channel → Channel) (u : Nat) : (s.onChannel c f).pillar u = s.pillar u := rfl
@[simp] theorem onChannel_gang (s : State) (c : Nat) (f : Channel → Channel) (u : Nat) : (s.onChannel c f).gang u = s.gang u := rfl
@[simp] theorem onChannel_reg (s : State) (c : Nat) (f : Channel → Channel) (u : Nat) : (s.onChannel c f).reg u = s.reg u := rfl
@[simp] theorem onChannel_getF (s : State) (c : Nat) (f : Channel → Channel) (u j k : Nat) : (s.onChannel c f).getF u j k = s.getF u j k := rfl
@[simp] theorem onChannel_host (s : State) (c : Nat) (f : Channel → Channel) (u : Nat) : (s.onChannel c f).host u = s.host u := rfl
@[simp] theorem onChannel_ptileOf (s : State) (c : Nat) (f : Channel → Channel) (u : Nat) : (s.onChannel c f).ptileOf u = s.ptileOf u := rfl

/-! ### onGang -/

@[simp] theorem onGang_pending (s : State) (g : Nat) (f : Gang → Gang) : (s.onGang g f).pending = s.pending := rfl
@[simp] theorem onGang_fresh (s : State) (g : Nat) (f : Gang → Gang) : (s.onGang g f).fresh = s.fresh := rfl
@[simp] theorem onGang_regs (s : State) (g : Nat) (f : Gang → Gang) : (s.onGang g f).regs = s.regs := rfl
@[simp] theorem onGang_tiles (s : State) (g : Nat) (f : Gang → Gang) : (s.onGang g f).tiles = s.tiles := rfl
@[simp] theorem onGang_pillars (s : State) (g : Nat) (f : Gang → Gang) : (s.onGang g f).pillars = s.pillars := rfl
@[simp] theorem onGang_channels (s : State) (g : Nat) (f : Gang → Gang) : (s.onGang g f).channels = s.channels := rfl
@[simp] theorem onGang_fieldData (s : State) (g : Nat) (f : Gang → Gang) : (s.onGang g f).fieldData = s.fieldData := rfl
@[simp] theorem onGang_fieldCheck (s : State) (g : Nat) (f : Gang → Gang) : (s.onGang g f).fieldCheck = s.fieldCheck := rfl
@[simp] theorem onGang_barnData (s : State) (g : Nat) (f : Gang → Gang) : (s.onGang g f).barnData = s.barnData := rfl
@[simp] theorem onGang_barnCheck (s : State) (g : Nat) (f : Gang → Gang) : (s.onGang g f).barnCheck = s.barnCheck := rfl
@[simp] theorem onGang_lastQueue (s : State) (g : Nat) (f : Gang → Gang) : (s.onGang g f).lastQueue = s.lastQueue := rfl
@[simp] theorem onGang_disp (s : State) (g : Nat) (f : Gang → Gang) : (s.onGang g f).disp = s.disp := rfl
@[simp] theorem onGang_mesh (s : State) (g : Nat) (f : Gang → Gang) : (s.onGang g f).mesh = s.mesh := rfl
@[simp] theorem onGang_lastSource (s : State) (g : Nat) (f : Gang → Gang) : (s.onGang g f).lastSource = s.lastSource := rfl
@[simp] theorem onGang_lastHead (s : State) (g : Nat) (f : Gang → Gang) : (s.onGang g f).lastHead = s.lastHead := rfl
@[simp] theorem onGang_pllLost (s : State) (g : Nat) (f : Gang → Gang) (k : Nat) : (s.onGang g f).pllLost k = s.pllLost k := rfl
@[simp] theorem onGang_tally (s : State) (g : Nat) (f : Gang → Gang) : (s.onGang g f).tally = s.tally := rfl
@[simp] theorem onGang_h0 (s : State) (g : Nat) (f : Gang → Gang) : (s.onGang g f).h0 = s.h0 := rfl
@[simp] theorem onGang_h1 (s : State) (g : Nat) (f : Gang → Gang) : (s.onGang g f).h1 = s.h1 := rfl
@[simp] theorem onGang_events (s : State) (g : Nat) (f : Gang → Gang) : (s.onGang g f).events = s.events := rfl
@[simp] theorem onGang_locHeld (s : State) (g : Nat) (f : Gang → Gang) : (s.onGang g f).locHeld = s.locHeld := rfl
@[simp] theorem onGang_fuses (s : State) (g : Nat) (f : Gang → Gang) : (s.onGang g f).fuses = s.fuses := rfl
@[simp] theorem onGang_sensed (s : State) (g : Nat) (f : Gang → Gang) : (s.onGang g f).sensed = s.sensed := rfl
@[simp] theorem onGang_fence (s : State) (g : Nat) (f : Gang → Gang) : (s.onGang g f).fence = s.fence := rfl
@[simp] theorem onGang_ridge (s : State) (g : Nat) (f : Gang → Gang) : (s.onGang g f).ridge = s.ridge := rfl
@[simp] theorem onGang_tithe (s : State) (g : Nat) (f : Gang → Gang) : (s.onGang g f).tithe = s.tithe := rfl
@[simp] theorem onGang_traceQ (s : State) (g : Nat) (f : Gang → Gang) : (s.onGang g f).traceQ = s.traceQ := rfl
@[simp] theorem onGang_straps (s : State) (g : Nat) (f : Gang → Gang) : (s.onGang g f).straps = s.straps := rfl
@[simp] theorem onGang_st (s : State) (g : Nat) (f : Gang → Gang) : (s.onGang g f).st = s.st := rfl
@[simp] theorem onGang_out (s : State) (g : Nat) (f : Gang → Gang) : (s.onGang g f).out = s.out := rfl
@[simp] theorem onGang_tile (s : State) (g : Nat) (f : Gang → Gang) (u : Nat) : (s.onGang g f).tile u = s.tile u := rfl
@[simp] theorem onGang_pillar (s : State) (g : Nat) (f : Gang → Gang) (u : Nat) : (s.onGang g f).pillar u = s.pillar u := rfl
@[simp] theorem onGang_channel (s : State) (g : Nat) (f : Gang → Gang) (u : Nat) : (s.onGang g f).channel u = s.channel u := rfl
@[simp] theorem onGang_reg (s : State) (g : Nat) (f : Gang → Gang) (u : Nat) : (s.onGang g f).reg u = s.reg u := rfl
@[simp] theorem onGang_getF (s : State) (g : Nat) (f : Gang → Gang) (u j k : Nat) : (s.onGang g f).getF u j k = s.getF u j k := rfl
@[simp] theorem onGang_host (s : State) (g : Nat) (f : Gang → Gang) (u : Nat) : (s.onGang g f).host u = s.host u := rfl
@[simp] theorem onGang_ptileOf (s : State) (g : Nat) (f : Gang → Gang) (u : Nat) : (s.onGang g f).ptileOf u = s.ptileOf u := rfl

/-! ### emit -/

@[simp] theorem emit_pending (s : State) (o : Output) : (s.emit o).pending = s.pending := rfl
@[simp] theorem emit_fresh (s : State) (o : Output) : (s.emit o).fresh = s.fresh := rfl
@[simp] theorem emit_regs (s : State) (o : Output) : (s.emit o).regs = s.regs := rfl
@[simp] theorem emit_tiles (s : State) (o : Output) : (s.emit o).tiles = s.tiles := rfl
@[simp] theorem emit_pillars (s : State) (o : Output) : (s.emit o).pillars = s.pillars := rfl
@[simp] theorem emit_channels (s : State) (o : Output) : (s.emit o).channels = s.channels := rfl
@[simp] theorem emit_fieldData (s : State) (o : Output) : (s.emit o).fieldData = s.fieldData := rfl
@[simp] theorem emit_fieldCheck (s : State) (o : Output) : (s.emit o).fieldCheck = s.fieldCheck := rfl
@[simp] theorem emit_barnData (s : State) (o : Output) : (s.emit o).barnData = s.barnData := rfl
@[simp] theorem emit_barnCheck (s : State) (o : Output) : (s.emit o).barnCheck = s.barnCheck := rfl
@[simp] theorem emit_gangs (s : State) (o : Output) : (s.emit o).gangs = s.gangs := rfl
@[simp] theorem emit_lastQueue (s : State) (o : Output) : (s.emit o).lastQueue = s.lastQueue := rfl
@[simp] theorem emit_disp (s : State) (o : Output) : (s.emit o).disp = s.disp := rfl
@[simp] theorem emit_mesh (s : State) (o : Output) : (s.emit o).mesh = s.mesh := rfl
@[simp] theorem emit_lastSource (s : State) (o : Output) : (s.emit o).lastSource = s.lastSource := rfl
@[simp] theorem emit_lastHead (s : State) (o : Output) : (s.emit o).lastHead = s.lastHead := rfl
@[simp] theorem emit_pllLost (s : State) (o : Output) (k : Nat) : (s.emit o).pllLost k = s.pllLost k := rfl
@[simp] theorem emit_tally (s : State) (o : Output) : (s.emit o).tally = s.tally := rfl
@[simp] theorem emit_h0 (s : State) (o : Output) : (s.emit o).h0 = s.h0 := rfl
@[simp] theorem emit_h1 (s : State) (o : Output) : (s.emit o).h1 = s.h1 := rfl
@[simp] theorem emit_events (s : State) (o : Output) : (s.emit o).events = s.events := rfl
@[simp] theorem emit_locHeld (s : State) (o : Output) : (s.emit o).locHeld = s.locHeld := rfl
@[simp] theorem emit_fuses (s : State) (o : Output) : (s.emit o).fuses = s.fuses := rfl
@[simp] theorem emit_sensed (s : State) (o : Output) : (s.emit o).sensed = s.sensed := rfl
@[simp] theorem emit_fence (s : State) (o : Output) : (s.emit o).fence = s.fence := rfl
@[simp] theorem emit_ridge (s : State) (o : Output) : (s.emit o).ridge = s.ridge := rfl
@[simp] theorem emit_tithe (s : State) (o : Output) : (s.emit o).tithe = s.tithe := rfl
@[simp] theorem emit_traceQ (s : State) (o : Output) : (s.emit o).traceQ = s.traceQ := rfl
@[simp] theorem emit_straps (s : State) (o : Output) : (s.emit o).straps = s.straps := rfl
@[simp] theorem emit_st (s : State) (o : Output) : (s.emit o).st = s.st := rfl
@[simp] theorem emit_tile (s : State) (o : Output) (u : Nat) : (s.emit o).tile u = s.tile u := rfl
@[simp] theorem emit_pillar (s : State) (o : Output) (u : Nat) : (s.emit o).pillar u = s.pillar u := rfl
@[simp] theorem emit_channel (s : State) (o : Output) (u : Nat) : (s.emit o).channel u = s.channel u := rfl
@[simp] theorem emit_gang (s : State) (o : Output) (u : Nat) : (s.emit o).gang u = s.gang u := rfl
@[simp] theorem emit_reg (s : State) (o : Output) (u : Nat) : (s.emit o).reg u = s.reg u := rfl
@[simp] theorem emit_getF (s : State) (o : Output) (u j k : Nat) : (s.emit o).getF u j k = s.getF u j k := rfl
@[simp] theorem emit_host (s : State) (o : Output) (u : Nat) : (s.emit o).host u = s.host u := rfl
@[simp] theorem emit_ptileOf (s : State) (o : Output) (u : Nat) : (s.emit o).ptileOf u = s.ptileOf u := rfl

/-! ### setReg -/

@[simp] theorem setReg_pending (s : State) (a v : Nat) : (s.setReg a v).pending = s.pending := rfl
@[simp] theorem setReg_fresh (s : State) (a v : Nat) : (s.setReg a v).fresh = s.fresh := rfl
@[simp] theorem setReg_tiles (s : State) (a v : Nat) : (s.setReg a v).tiles = s.tiles := rfl
@[simp] theorem setReg_pillars (s : State) (a v : Nat) : (s.setReg a v).pillars = s.pillars := rfl
@[simp] theorem setReg_channels (s : State) (a v : Nat) : (s.setReg a v).channels = s.channels := rfl
@[simp] theorem setReg_fieldData (s : State) (a v : Nat) : (s.setReg a v).fieldData = s.fieldData := rfl
@[simp] theorem setReg_fieldCheck (s : State) (a v : Nat) : (s.setReg a v).fieldCheck = s.fieldCheck := rfl
@[simp] theorem setReg_barnData (s : State) (a v : Nat) : (s.setReg a v).barnData = s.barnData := rfl
@[simp] theorem setReg_barnCheck (s : State) (a v : Nat) : (s.setReg a v).barnCheck = s.barnCheck := rfl
@[simp] theorem setReg_gangs (s : State) (a v : Nat) : (s.setReg a v).gangs = s.gangs := rfl
@[simp] theorem setReg_lastQueue (s : State) (a v : Nat) : (s.setReg a v).lastQueue = s.lastQueue := rfl
@[simp] theorem setReg_disp (s : State) (a v : Nat) : (s.setReg a v).disp = s.disp := rfl
@[simp] theorem setReg_mesh (s : State) (a v : Nat) : (s.setReg a v).mesh = s.mesh := rfl
@[simp] theorem setReg_lastSource (s : State) (a v : Nat) : (s.setReg a v).lastSource = s.lastSource := rfl
@[simp] theorem setReg_lastHead (s : State) (a v : Nat) : (s.setReg a v).lastHead = s.lastHead := rfl
@[simp] theorem setReg_pllLost (s : State) (a v : Nat) (k : Nat) : (s.setReg a v).pllLost k = s.pllLost k := rfl
@[simp] theorem setReg_tally (s : State) (a v : Nat) : (s.setReg a v).tally = s.tally := rfl
@[simp] theorem setReg_h0 (s : State) (a v : Nat) : (s.setReg a v).h0 = s.h0 := rfl
@[simp] theorem setReg_h1 (s : State) (a v : Nat) : (s.setReg a v).h1 = s.h1 := rfl
@[simp] theorem setReg_events (s : State) (a v : Nat) : (s.setReg a v).events = s.events := rfl
@[simp] theorem setReg_locHeld (s : State) (a v : Nat) : (s.setReg a v).locHeld = s.locHeld := rfl
@[simp] theorem setReg_fuses (s : State) (a v : Nat) : (s.setReg a v).fuses = s.fuses := rfl
@[simp] theorem setReg_sensed (s : State) (a v : Nat) : (s.setReg a v).sensed = s.sensed := rfl
@[simp] theorem setReg_fence (s : State) (a v : Nat) : (s.setReg a v).fence = s.fence := rfl
@[simp] theorem setReg_ridge (s : State) (a v : Nat) : (s.setReg a v).ridge = s.ridge := rfl
@[simp] theorem setReg_tithe (s : State) (a v : Nat) : (s.setReg a v).tithe = s.tithe := rfl
@[simp] theorem setReg_traceQ (s : State) (a v : Nat) : (s.setReg a v).traceQ = s.traceQ := rfl
@[simp] theorem setReg_straps (s : State) (a v : Nat) : (s.setReg a v).straps = s.straps := rfl
@[simp] theorem setReg_st (s : State) (a v : Nat) : (s.setReg a v).st = s.st := rfl
@[simp] theorem setReg_out (s : State) (a v : Nat) : (s.setReg a v).out = s.out := rfl
@[simp] theorem setReg_tile (s : State) (a v : Nat) (u : Nat) : (s.setReg a v).tile u = s.tile u := rfl
@[simp] theorem setReg_pillar (s : State) (a v : Nat) (u : Nat) : (s.setReg a v).pillar u = s.pillar u := rfl
@[simp] theorem setReg_channel (s : State) (a v : Nat) (u : Nat) : (s.setReg a v).channel u = s.channel u := rfl
@[simp] theorem setReg_gang (s : State) (a v : Nat) (u : Nat) : (s.setReg a v).gang u = s.gang u := rfl
@[simp] theorem setReg_host (s : State) (a v : Nat) (u : Nat) : (s.setReg a v).host u = s.host u := rfl
@[simp] theorem setReg_ptileOf (s : State) (a v : Nat) (u : Nat) : (s.setReg a v).ptileOf u = s.ptileOf u := rfl

/-! ### setF -/

@[simp] theorem setF_pending (s : State) (a hi lo v : Nat) : (s.setF a hi lo v).pending = s.pending := rfl
@[simp] theorem setF_fresh (s : State) (a hi lo v : Nat) : (s.setF a hi lo v).fresh = s.fresh := rfl
@[simp] theorem setF_tiles (s : State) (a hi lo v : Nat) : (s.setF a hi lo v).tiles = s.tiles := rfl
@[simp] theorem setF_pillars (s : State) (a hi lo v : Nat) : (s.setF a hi lo v).pillars = s.pillars := rfl
@[simp] theorem setF_channels (s : State) (a hi lo v : Nat) : (s.setF a hi lo v).channels = s.channels := rfl
@[simp] theorem setF_fieldData (s : State) (a hi lo v : Nat) : (s.setF a hi lo v).fieldData = s.fieldData := rfl
@[simp] theorem setF_fieldCheck (s : State) (a hi lo v : Nat) : (s.setF a hi lo v).fieldCheck = s.fieldCheck := rfl
@[simp] theorem setF_barnData (s : State) (a hi lo v : Nat) : (s.setF a hi lo v).barnData = s.barnData := rfl
@[simp] theorem setF_barnCheck (s : State) (a hi lo v : Nat) : (s.setF a hi lo v).barnCheck = s.barnCheck := rfl
@[simp] theorem setF_gangs (s : State) (a hi lo v : Nat) : (s.setF a hi lo v).gangs = s.gangs := rfl
@[simp] theorem setF_lastQueue (s : State) (a hi lo v : Nat) : (s.setF a hi lo v).lastQueue = s.lastQueue := rfl
@[simp] theorem setF_disp (s : State) (a hi lo v : Nat) : (s.setF a hi lo v).disp = s.disp := rfl
@[simp] theorem setF_mesh (s : State) (a hi lo v : Nat) : (s.setF a hi lo v).mesh = s.mesh := rfl
@[simp] theorem setF_lastSource (s : State) (a hi lo v : Nat) : (s.setF a hi lo v).lastSource = s.lastSource := rfl
@[simp] theorem setF_lastHead (s : State) (a hi lo v : Nat) : (s.setF a hi lo v).lastHead = s.lastHead := rfl
@[simp] theorem setF_pllLost (s : State) (a hi lo v : Nat) (k : Nat) : (s.setF a hi lo v).pllLost k = s.pllLost k := rfl
@[simp] theorem setF_tally (s : State) (a hi lo v : Nat) : (s.setF a hi lo v).tally = s.tally := rfl
@[simp] theorem setF_h0 (s : State) (a hi lo v : Nat) : (s.setF a hi lo v).h0 = s.h0 := rfl
@[simp] theorem setF_h1 (s : State) (a hi lo v : Nat) : (s.setF a hi lo v).h1 = s.h1 := rfl
@[simp] theorem setF_events (s : State) (a hi lo v : Nat) : (s.setF a hi lo v).events = s.events := rfl
@[simp] theorem setF_locHeld (s : State) (a hi lo v : Nat) : (s.setF a hi lo v).locHeld = s.locHeld := rfl
@[simp] theorem setF_fuses (s : State) (a hi lo v : Nat) : (s.setF a hi lo v).fuses = s.fuses := rfl
@[simp] theorem setF_sensed (s : State) (a hi lo v : Nat) : (s.setF a hi lo v).sensed = s.sensed := rfl
@[simp] theorem setF_fence (s : State) (a hi lo v : Nat) : (s.setF a hi lo v).fence = s.fence := rfl
@[simp] theorem setF_ridge (s : State) (a hi lo v : Nat) : (s.setF a hi lo v).ridge = s.ridge := rfl
@[simp] theorem setF_tithe (s : State) (a hi lo v : Nat) : (s.setF a hi lo v).tithe = s.tithe := rfl
@[simp] theorem setF_traceQ (s : State) (a hi lo v : Nat) : (s.setF a hi lo v).traceQ = s.traceQ := rfl
@[simp] theorem setF_straps (s : State) (a hi lo v : Nat) : (s.setF a hi lo v).straps = s.straps := rfl
@[simp] theorem setF_st (s : State) (a hi lo v : Nat) : (s.setF a hi lo v).st = s.st := rfl
@[simp] theorem setF_out (s : State) (a hi lo v : Nat) : (s.setF a hi lo v).out = s.out := rfl
@[simp] theorem setF_tile (s : State) (a hi lo v : Nat) (u : Nat) : (s.setF a hi lo v).tile u = s.tile u := rfl
@[simp] theorem setF_pillar (s : State) (a hi lo v : Nat) (u : Nat) : (s.setF a hi lo v).pillar u = s.pillar u := rfl
@[simp] theorem setF_channel (s : State) (a hi lo v : Nat) (u : Nat) : (s.setF a hi lo v).channel u = s.channel u := rfl
@[simp] theorem setF_gang (s : State) (a hi lo v : Nat) (u : Nat) : (s.setF a hi lo v).gang u = s.gang u := rfl
@[simp] theorem setF_host (s : State) (a hi lo v : Nat) (u : Nat) : (s.setF a hi lo v).host u = s.host u := rfl
@[simp] theorem setF_ptileOf (s : State) (a hi lo v : Nat) (u : Nat) : (s.setF a hi lo v).ptileOf u = s.ptileOf u := rfl

/-! ### addF -/

@[simp] theorem addF_pending (s : State) (a hi lo n : Nat) : (s.addF a hi lo n).pending = s.pending := rfl
@[simp] theorem addF_fresh (s : State) (a hi lo n : Nat) : (s.addF a hi lo n).fresh = s.fresh := rfl
@[simp] theorem addF_tiles (s : State) (a hi lo n : Nat) : (s.addF a hi lo n).tiles = s.tiles := rfl
@[simp] theorem addF_pillars (s : State) (a hi lo n : Nat) : (s.addF a hi lo n).pillars = s.pillars := rfl
@[simp] theorem addF_channels (s : State) (a hi lo n : Nat) : (s.addF a hi lo n).channels = s.channels := rfl
@[simp] theorem addF_fieldData (s : State) (a hi lo n : Nat) : (s.addF a hi lo n).fieldData = s.fieldData := rfl
@[simp] theorem addF_fieldCheck (s : State) (a hi lo n : Nat) : (s.addF a hi lo n).fieldCheck = s.fieldCheck := rfl
@[simp] theorem addF_barnData (s : State) (a hi lo n : Nat) : (s.addF a hi lo n).barnData = s.barnData := rfl
@[simp] theorem addF_barnCheck (s : State) (a hi lo n : Nat) : (s.addF a hi lo n).barnCheck = s.barnCheck := rfl
@[simp] theorem addF_gangs (s : State) (a hi lo n : Nat) : (s.addF a hi lo n).gangs = s.gangs := rfl
@[simp] theorem addF_lastQueue (s : State) (a hi lo n : Nat) : (s.addF a hi lo n).lastQueue = s.lastQueue := rfl
@[simp] theorem addF_disp (s : State) (a hi lo n : Nat) : (s.addF a hi lo n).disp = s.disp := rfl
@[simp] theorem addF_mesh (s : State) (a hi lo n : Nat) : (s.addF a hi lo n).mesh = s.mesh := rfl
@[simp] theorem addF_lastSource (s : State) (a hi lo n : Nat) : (s.addF a hi lo n).lastSource = s.lastSource := rfl
@[simp] theorem addF_lastHead (s : State) (a hi lo n : Nat) : (s.addF a hi lo n).lastHead = s.lastHead := rfl
@[simp] theorem addF_pllLost (s : State) (a hi lo n : Nat) (k : Nat) : (s.addF a hi lo n).pllLost k = s.pllLost k := rfl
@[simp] theorem addF_tally (s : State) (a hi lo n : Nat) : (s.addF a hi lo n).tally = s.tally := rfl
@[simp] theorem addF_h0 (s : State) (a hi lo n : Nat) : (s.addF a hi lo n).h0 = s.h0 := rfl
@[simp] theorem addF_h1 (s : State) (a hi lo n : Nat) : (s.addF a hi lo n).h1 = s.h1 := rfl
@[simp] theorem addF_events (s : State) (a hi lo n : Nat) : (s.addF a hi lo n).events = s.events := rfl
@[simp] theorem addF_locHeld (s : State) (a hi lo n : Nat) : (s.addF a hi lo n).locHeld = s.locHeld := rfl
@[simp] theorem addF_fuses (s : State) (a hi lo n : Nat) : (s.addF a hi lo n).fuses = s.fuses := rfl
@[simp] theorem addF_sensed (s : State) (a hi lo n : Nat) : (s.addF a hi lo n).sensed = s.sensed := rfl
@[simp] theorem addF_fence (s : State) (a hi lo n : Nat) : (s.addF a hi lo n).fence = s.fence := rfl
@[simp] theorem addF_ridge (s : State) (a hi lo n : Nat) : (s.addF a hi lo n).ridge = s.ridge := rfl
@[simp] theorem addF_tithe (s : State) (a hi lo n : Nat) : (s.addF a hi lo n).tithe = s.tithe := rfl
@[simp] theorem addF_traceQ (s : State) (a hi lo n : Nat) : (s.addF a hi lo n).traceQ = s.traceQ := rfl
@[simp] theorem addF_straps (s : State) (a hi lo n : Nat) : (s.addF a hi lo n).straps = s.straps := rfl
@[simp] theorem addF_st (s : State) (a hi lo n : Nat) : (s.addF a hi lo n).st = s.st := rfl
@[simp] theorem addF_out (s : State) (a hi lo n : Nat) : (s.addF a hi lo n).out = s.out := rfl
@[simp] theorem addF_tile (s : State) (a hi lo n : Nat) (u : Nat) : (s.addF a hi lo n).tile u = s.tile u := rfl
@[simp] theorem addF_pillar (s : State) (a hi lo n : Nat) (u : Nat) : (s.addF a hi lo n).pillar u = s.pillar u := rfl
@[simp] theorem addF_channel (s : State) (a hi lo n : Nat) (u : Nat) : (s.addF a hi lo n).channel u = s.channel u := rfl
@[simp] theorem addF_gang (s : State) (a hi lo n : Nat) (u : Nat) : (s.addF a hi lo n).gang u = s.gang u := rfl
@[simp] theorem addF_host (s : State) (a hi lo n : Nat) (u : Nat) : (s.addF a hi lo n).host u = s.host u := rfl
@[simp] theorem addF_ptileOf (s : State) (a hi lo n : Nat) (u : Nat) : (s.addF a hi lo n).ptileOf u = s.ptileOf u := rfl

/-! ### peakF -/

@[simp] theorem peakF_pending (s : State) (a hi lo n : Nat) : (s.peakF a hi lo n).pending = s.pending := rfl
@[simp] theorem peakF_fresh (s : State) (a hi lo n : Nat) : (s.peakF a hi lo n).fresh = s.fresh := rfl
@[simp] theorem peakF_tiles (s : State) (a hi lo n : Nat) : (s.peakF a hi lo n).tiles = s.tiles := rfl
@[simp] theorem peakF_pillars (s : State) (a hi lo n : Nat) : (s.peakF a hi lo n).pillars = s.pillars := rfl
@[simp] theorem peakF_channels (s : State) (a hi lo n : Nat) : (s.peakF a hi lo n).channels = s.channels := rfl
@[simp] theorem peakF_fieldData (s : State) (a hi lo n : Nat) : (s.peakF a hi lo n).fieldData = s.fieldData := rfl
@[simp] theorem peakF_fieldCheck (s : State) (a hi lo n : Nat) : (s.peakF a hi lo n).fieldCheck = s.fieldCheck := rfl
@[simp] theorem peakF_barnData (s : State) (a hi lo n : Nat) : (s.peakF a hi lo n).barnData = s.barnData := rfl
@[simp] theorem peakF_barnCheck (s : State) (a hi lo n : Nat) : (s.peakF a hi lo n).barnCheck = s.barnCheck := rfl
@[simp] theorem peakF_gangs (s : State) (a hi lo n : Nat) : (s.peakF a hi lo n).gangs = s.gangs := rfl
@[simp] theorem peakF_lastQueue (s : State) (a hi lo n : Nat) : (s.peakF a hi lo n).lastQueue = s.lastQueue := rfl
@[simp] theorem peakF_disp (s : State) (a hi lo n : Nat) : (s.peakF a hi lo n).disp = s.disp := rfl
@[simp] theorem peakF_mesh (s : State) (a hi lo n : Nat) : (s.peakF a hi lo n).mesh = s.mesh := rfl
@[simp] theorem peakF_lastSource (s : State) (a hi lo n : Nat) : (s.peakF a hi lo n).lastSource = s.lastSource := rfl
@[simp] theorem peakF_lastHead (s : State) (a hi lo n : Nat) : (s.peakF a hi lo n).lastHead = s.lastHead := rfl
@[simp] theorem peakF_pllLost (s : State) (a hi lo n : Nat) (k : Nat) : (s.peakF a hi lo n).pllLost k = s.pllLost k := rfl
@[simp] theorem peakF_tally (s : State) (a hi lo n : Nat) : (s.peakF a hi lo n).tally = s.tally := rfl
@[simp] theorem peakF_h0 (s : State) (a hi lo n : Nat) : (s.peakF a hi lo n).h0 = s.h0 := rfl
@[simp] theorem peakF_h1 (s : State) (a hi lo n : Nat) : (s.peakF a hi lo n).h1 = s.h1 := rfl
@[simp] theorem peakF_events (s : State) (a hi lo n : Nat) : (s.peakF a hi lo n).events = s.events := rfl
@[simp] theorem peakF_locHeld (s : State) (a hi lo n : Nat) : (s.peakF a hi lo n).locHeld = s.locHeld := rfl
@[simp] theorem peakF_fuses (s : State) (a hi lo n : Nat) : (s.peakF a hi lo n).fuses = s.fuses := rfl
@[simp] theorem peakF_sensed (s : State) (a hi lo n : Nat) : (s.peakF a hi lo n).sensed = s.sensed := rfl
@[simp] theorem peakF_fence (s : State) (a hi lo n : Nat) : (s.peakF a hi lo n).fence = s.fence := rfl
@[simp] theorem peakF_ridge (s : State) (a hi lo n : Nat) : (s.peakF a hi lo n).ridge = s.ridge := rfl
@[simp] theorem peakF_tithe (s : State) (a hi lo n : Nat) : (s.peakF a hi lo n).tithe = s.tithe := rfl
@[simp] theorem peakF_traceQ (s : State) (a hi lo n : Nat) : (s.peakF a hi lo n).traceQ = s.traceQ := rfl
@[simp] theorem peakF_straps (s : State) (a hi lo n : Nat) : (s.peakF a hi lo n).straps = s.straps := rfl
@[simp] theorem peakF_st (s : State) (a hi lo n : Nat) : (s.peakF a hi lo n).st = s.st := rfl
@[simp] theorem peakF_out (s : State) (a hi lo n : Nat) : (s.peakF a hi lo n).out = s.out := rfl
@[simp] theorem peakF_tile (s : State) (a hi lo n : Nat) (u : Nat) : (s.peakF a hi lo n).tile u = s.tile u := rfl
@[simp] theorem peakF_pillar (s : State) (a hi lo n : Nat) (u : Nat) : (s.peakF a hi lo n).pillar u = s.pillar u := rfl
@[simp] theorem peakF_channel (s : State) (a hi lo n : Nat) (u : Nat) : (s.peakF a hi lo n).channel u = s.channel u := rfl
@[simp] theorem peakF_gang (s : State) (a hi lo n : Nat) (u : Nat) : (s.peakF a hi lo n).gang u = s.gang u := rfl
@[simp] theorem peakF_host (s : State) (a hi lo n : Nat) (u : Nat) : (s.peakF a hi lo n).host u = s.host u := rfl
@[simp] theorem peakF_ptileOf (s : State) (a hi lo n : Nat) (u : Nat) : (s.peakF a hi lo n).ptileOf u = s.ptileOf u := rfl

/-! ### onTally -/

@[simp] theorem onTally_pending (s : State) (f : TallyNet → TallyNet) : (s.onTally f).pending = s.pending := rfl
@[simp] theorem onTally_fresh (s : State) (f : TallyNet → TallyNet) : (s.onTally f).fresh = s.fresh := rfl
@[simp] theorem onTally_regs (s : State) (f : TallyNet → TallyNet) : (s.onTally f).regs = s.regs := rfl
@[simp] theorem onTally_tiles (s : State) (f : TallyNet → TallyNet) : (s.onTally f).tiles = s.tiles := rfl
@[simp] theorem onTally_pillars (s : State) (f : TallyNet → TallyNet) : (s.onTally f).pillars = s.pillars := rfl
@[simp] theorem onTally_channels (s : State) (f : TallyNet → TallyNet) : (s.onTally f).channels = s.channels := rfl
@[simp] theorem onTally_fieldData (s : State) (f : TallyNet → TallyNet) : (s.onTally f).fieldData = s.fieldData := rfl
@[simp] theorem onTally_fieldCheck (s : State) (f : TallyNet → TallyNet) : (s.onTally f).fieldCheck = s.fieldCheck := rfl
@[simp] theorem onTally_barnData (s : State) (f : TallyNet → TallyNet) : (s.onTally f).barnData = s.barnData := rfl
@[simp] theorem onTally_barnCheck (s : State) (f : TallyNet → TallyNet) : (s.onTally f).barnCheck = s.barnCheck := rfl
@[simp] theorem onTally_gangs (s : State) (f : TallyNet → TallyNet) : (s.onTally f).gangs = s.gangs := rfl
@[simp] theorem onTally_lastQueue (s : State) (f : TallyNet → TallyNet) : (s.onTally f).lastQueue = s.lastQueue := rfl
@[simp] theorem onTally_disp (s : State) (f : TallyNet → TallyNet) : (s.onTally f).disp = s.disp := rfl
@[simp] theorem onTally_mesh (s : State) (f : TallyNet → TallyNet) : (s.onTally f).mesh = s.mesh := rfl
@[simp] theorem onTally_lastSource (s : State) (f : TallyNet → TallyNet) : (s.onTally f).lastSource = s.lastSource := rfl
@[simp] theorem onTally_lastHead (s : State) (f : TallyNet → TallyNet) : (s.onTally f).lastHead = s.lastHead := rfl
@[simp] theorem onTally_pllLost (s : State) (f : TallyNet → TallyNet) (k : Nat) : (s.onTally f).pllLost k = s.pllLost k := rfl
@[simp] theorem onTally_h0 (s : State) (f : TallyNet → TallyNet) : (s.onTally f).h0 = s.h0 := rfl
@[simp] theorem onTally_h1 (s : State) (f : TallyNet → TallyNet) : (s.onTally f).h1 = s.h1 := rfl
@[simp] theorem onTally_events (s : State) (f : TallyNet → TallyNet) : (s.onTally f).events = s.events := rfl
@[simp] theorem onTally_locHeld (s : State) (f : TallyNet → TallyNet) : (s.onTally f).locHeld = s.locHeld := rfl
@[simp] theorem onTally_fuses (s : State) (f : TallyNet → TallyNet) : (s.onTally f).fuses = s.fuses := rfl
@[simp] theorem onTally_sensed (s : State) (f : TallyNet → TallyNet) : (s.onTally f).sensed = s.sensed := rfl
@[simp] theorem onTally_fence (s : State) (f : TallyNet → TallyNet) : (s.onTally f).fence = s.fence := rfl
@[simp] theorem onTally_ridge (s : State) (f : TallyNet → TallyNet) : (s.onTally f).ridge = s.ridge := rfl
@[simp] theorem onTally_tithe (s : State) (f : TallyNet → TallyNet) : (s.onTally f).tithe = s.tithe := rfl
@[simp] theorem onTally_traceQ (s : State) (f : TallyNet → TallyNet) : (s.onTally f).traceQ = s.traceQ := rfl
@[simp] theorem onTally_straps (s : State) (f : TallyNet → TallyNet) : (s.onTally f).straps = s.straps := rfl
@[simp] theorem onTally_st (s : State) (f : TallyNet → TallyNet) : (s.onTally f).st = s.st := rfl
@[simp] theorem onTally_out (s : State) (f : TallyNet → TallyNet) : (s.onTally f).out = s.out := rfl
@[simp] theorem onTally_tile (s : State) (f : TallyNet → TallyNet) (u : Nat) : (s.onTally f).tile u = s.tile u := rfl
@[simp] theorem onTally_pillar (s : State) (f : TallyNet → TallyNet) (u : Nat) : (s.onTally f).pillar u = s.pillar u := rfl
@[simp] theorem onTally_channel (s : State) (f : TallyNet → TallyNet) (u : Nat) : (s.onTally f).channel u = s.channel u := rfl
@[simp] theorem onTally_gang (s : State) (f : TallyNet → TallyNet) (u : Nat) : (s.onTally f).gang u = s.gang u := rfl
@[simp] theorem onTally_reg (s : State) (f : TallyNet → TallyNet) (u : Nat) : (s.onTally f).reg u = s.reg u := rfl
@[simp] theorem onTally_getF (s : State) (f : TallyNet → TallyNet) (u j k : Nat) : (s.onTally f).getF u j k = s.getF u j k := rfl
@[simp] theorem onTally_host (s : State) (f : TallyNet → TallyNet) (u : Nat) : (s.onTally f).host u = s.host u := rfl
@[simp] theorem onTally_ptileOf (s : State) (f : TallyNet → TallyNet) (u : Nat) : (s.onTally f).ptileOf u = s.ptileOf u := rfl

/-! ### takeFree -/

@[simp] theorem takeFree_pending (s : State) (w : Nat) : (s.takeFree w).2.pending = s.pending := rfl
@[simp] theorem takeFree_regs (s : State) (w : Nat) : (s.takeFree w).2.regs = s.regs := rfl
@[simp] theorem takeFree_tiles (s : State) (w : Nat) : (s.takeFree w).2.tiles = s.tiles := rfl
@[simp] theorem takeFree_pillars (s : State) (w : Nat) : (s.takeFree w).2.pillars = s.pillars := rfl
@[simp] theorem takeFree_channels (s : State) (w : Nat) : (s.takeFree w).2.channels = s.channels := rfl
@[simp] theorem takeFree_fieldData (s : State) (w : Nat) : (s.takeFree w).2.fieldData = s.fieldData := rfl
@[simp] theorem takeFree_fieldCheck (s : State) (w : Nat) : (s.takeFree w).2.fieldCheck = s.fieldCheck := rfl
@[simp] theorem takeFree_barnData (s : State) (w : Nat) : (s.takeFree w).2.barnData = s.barnData := rfl
@[simp] theorem takeFree_barnCheck (s : State) (w : Nat) : (s.takeFree w).2.barnCheck = s.barnCheck := rfl
@[simp] theorem takeFree_gangs (s : State) (w : Nat) : (s.takeFree w).2.gangs = s.gangs := rfl
@[simp] theorem takeFree_lastQueue (s : State) (w : Nat) : (s.takeFree w).2.lastQueue = s.lastQueue := rfl
@[simp] theorem takeFree_disp (s : State) (w : Nat) : (s.takeFree w).2.disp = s.disp := rfl
@[simp] theorem takeFree_mesh (s : State) (w : Nat) : (s.takeFree w).2.mesh = s.mesh := rfl
@[simp] theorem takeFree_lastSource (s : State) (w : Nat) : (s.takeFree w).2.lastSource = s.lastSource := rfl
@[simp] theorem takeFree_lastHead (s : State) (w : Nat) : (s.takeFree w).2.lastHead = s.lastHead := rfl
@[simp] theorem takeFree_tally (s : State) (w : Nat) : (s.takeFree w).2.tally = s.tally := rfl
@[simp] theorem takeFree_h0 (s : State) (w : Nat) : (s.takeFree w).2.h0 = s.h0 := rfl
@[simp] theorem takeFree_h1 (s : State) (w : Nat) : (s.takeFree w).2.h1 = s.h1 := rfl
@[simp] theorem takeFree_events (s : State) (w : Nat) : (s.takeFree w).2.events = s.events := rfl
@[simp] theorem takeFree_locHeld (s : State) (w : Nat) : (s.takeFree w).2.locHeld = s.locHeld := rfl
@[simp] theorem takeFree_fuses (s : State) (w : Nat) : (s.takeFree w).2.fuses = s.fuses := rfl
@[simp] theorem takeFree_sensed (s : State) (w : Nat) : (s.takeFree w).2.sensed = s.sensed := rfl
@[simp] theorem takeFree_fence (s : State) (w : Nat) : (s.takeFree w).2.fence = s.fence := rfl
@[simp] theorem takeFree_ridge (s : State) (w : Nat) : (s.takeFree w).2.ridge = s.ridge := rfl
@[simp] theorem takeFree_tithe (s : State) (w : Nat) : (s.takeFree w).2.tithe = s.tithe := rfl
@[simp] theorem takeFree_traceQ (s : State) (w : Nat) : (s.takeFree w).2.traceQ = s.traceQ := rfl
@[simp] theorem takeFree_straps (s : State) (w : Nat) : (s.takeFree w).2.straps = s.straps := rfl
@[simp] theorem takeFree_st (s : State) (w : Nat) : (s.takeFree w).2.st = s.st := rfl
@[simp] theorem takeFree_out (s : State) (w : Nat) : (s.takeFree w).2.out = s.out := rfl
@[simp] theorem takeFree_tile (s : State) (w : Nat) (u : Nat) : (s.takeFree w).2.tile u = s.tile u := rfl
@[simp] theorem takeFree_pillar (s : State) (w : Nat) (u : Nat) : (s.takeFree w).2.pillar u = s.pillar u := rfl
@[simp] theorem takeFree_channel (s : State) (w : Nat) (u : Nat) : (s.takeFree w).2.channel u = s.channel u := rfl
@[simp] theorem takeFree_gang (s : State) (w : Nat) (u : Nat) : (s.takeFree w).2.gang u = s.gang u := rfl
@[simp] theorem takeFree_reg (s : State) (w : Nat) (u : Nat) : (s.takeFree w).2.reg u = s.reg u := rfl
@[simp] theorem takeFree_getF (s : State) (w : Nat) (u j k : Nat) : (s.takeFree w).2.getF u j k = s.getF u j k := rfl
@[simp] theorem takeFree_host (s : State) (w : Nat) (u : Nat) : (s.takeFree w).2.host u = s.host u := rfl
@[simp] theorem takeFree_ptileOf (s : State) (w : Nat) (u : Nat) : (s.takeFree w).2.ptileOf u = s.ptileOf u := rfl

/-! ### onHost -/

@[simp] theorem onHost_pending (s : State) (h : Nat) (f : HostPort → HostPort) : (s.onHost h f).pending = s.pending := by
  unfold State.onHost; split <;> rfl
@[simp] theorem onHost_fresh (s : State) (h : Nat) (f : HostPort → HostPort) : (s.onHost h f).fresh = s.fresh := by
  unfold State.onHost; split <;> rfl
@[simp] theorem onHost_regs (s : State) (h : Nat) (f : HostPort → HostPort) : (s.onHost h f).regs = s.regs := by
  unfold State.onHost; split <;> rfl
@[simp] theorem onHost_tiles (s : State) (h : Nat) (f : HostPort → HostPort) : (s.onHost h f).tiles = s.tiles := by
  unfold State.onHost; split <;> rfl
@[simp] theorem onHost_pillars (s : State) (h : Nat) (f : HostPort → HostPort) : (s.onHost h f).pillars = s.pillars := by
  unfold State.onHost; split <;> rfl
@[simp] theorem onHost_channels (s : State) (h : Nat) (f : HostPort → HostPort) : (s.onHost h f).channels = s.channels := by
  unfold State.onHost; split <;> rfl
@[simp] theorem onHost_fieldData (s : State) (h : Nat) (f : HostPort → HostPort) : (s.onHost h f).fieldData = s.fieldData := by
  unfold State.onHost; split <;> rfl
@[simp] theorem onHost_fieldCheck (s : State) (h : Nat) (f : HostPort → HostPort) : (s.onHost h f).fieldCheck = s.fieldCheck := by
  unfold State.onHost; split <;> rfl
@[simp] theorem onHost_barnData (s : State) (h : Nat) (f : HostPort → HostPort) : (s.onHost h f).barnData = s.barnData := by
  unfold State.onHost; split <;> rfl
@[simp] theorem onHost_barnCheck (s : State) (h : Nat) (f : HostPort → HostPort) : (s.onHost h f).barnCheck = s.barnCheck := by
  unfold State.onHost; split <;> rfl
@[simp] theorem onHost_gangs (s : State) (h : Nat) (f : HostPort → HostPort) : (s.onHost h f).gangs = s.gangs := by
  unfold State.onHost; split <;> rfl
@[simp] theorem onHost_lastQueue (s : State) (h : Nat) (f : HostPort → HostPort) : (s.onHost h f).lastQueue = s.lastQueue := by
  unfold State.onHost; split <;> rfl
@[simp] theorem onHost_disp (s : State) (h : Nat) (f : HostPort → HostPort) : (s.onHost h f).disp = s.disp := by
  unfold State.onHost; split <;> rfl
@[simp] theorem onHost_mesh (s : State) (h : Nat) (f : HostPort → HostPort) : (s.onHost h f).mesh = s.mesh := by
  unfold State.onHost; split <;> rfl
@[simp] theorem onHost_lastSource (s : State) (h : Nat) (f : HostPort → HostPort) : (s.onHost h f).lastSource = s.lastSource := by
  unfold State.onHost; split <;> rfl
@[simp] theorem onHost_lastHead (s : State) (h : Nat) (f : HostPort → HostPort) : (s.onHost h f).lastHead = s.lastHead := by
  unfold State.onHost; split <;> rfl
@[simp] theorem onHost_pllLost (s : State) (h : Nat) (f : HostPort → HostPort) (k : Nat) : (s.onHost h f).pllLost k = s.pllLost k := by
  unfold State.onHost; split <;> rfl
@[simp] theorem onHost_tally (s : State) (h : Nat) (f : HostPort → HostPort) : (s.onHost h f).tally = s.tally := by
  unfold State.onHost; split <;> rfl
@[simp] theorem onHost_events (s : State) (h : Nat) (f : HostPort → HostPort) : (s.onHost h f).events = s.events := by
  unfold State.onHost; split <;> rfl
@[simp] theorem onHost_locHeld (s : State) (h : Nat) (f : HostPort → HostPort) : (s.onHost h f).locHeld = s.locHeld := by
  unfold State.onHost; split <;> rfl
@[simp] theorem onHost_fuses (s : State) (h : Nat) (f : HostPort → HostPort) : (s.onHost h f).fuses = s.fuses := by
  unfold State.onHost; split <;> rfl
@[simp] theorem onHost_sensed (s : State) (h : Nat) (f : HostPort → HostPort) : (s.onHost h f).sensed = s.sensed := by
  unfold State.onHost; split <;> rfl
@[simp] theorem onHost_fence (s : State) (h : Nat) (f : HostPort → HostPort) : (s.onHost h f).fence = s.fence := by
  unfold State.onHost; split <;> rfl
@[simp] theorem onHost_ridge (s : State) (h : Nat) (f : HostPort → HostPort) : (s.onHost h f).ridge = s.ridge := by
  unfold State.onHost; split <;> rfl
@[simp] theorem onHost_tithe (s : State) (h : Nat) (f : HostPort → HostPort) : (s.onHost h f).tithe = s.tithe := by
  unfold State.onHost; split <;> rfl
@[simp] theorem onHost_traceQ (s : State) (h : Nat) (f : HostPort → HostPort) : (s.onHost h f).traceQ = s.traceQ := by
  unfold State.onHost; split <;> rfl
@[simp] theorem onHost_straps (s : State) (h : Nat) (f : HostPort → HostPort) : (s.onHost h f).straps = s.straps := by
  unfold State.onHost; split <;> rfl
@[simp] theorem onHost_st (s : State) (h : Nat) (f : HostPort → HostPort) : (s.onHost h f).st = s.st := by
  unfold State.onHost; split <;> rfl
@[simp] theorem onHost_out (s : State) (h : Nat) (f : HostPort → HostPort) : (s.onHost h f).out = s.out := by
  unfold State.onHost; split <;> rfl
@[simp] theorem onHost_tile (s : State) (h : Nat) (f : HostPort → HostPort) (u : Nat) :
    (s.onHost h f).tile u = s.tile u := by
  unfold State.onHost; split <;> rfl
@[simp] theorem onHost_pillar (s : State) (h : Nat) (f : HostPort → HostPort) (u : Nat) :
    (s.onHost h f).pillar u = s.pillar u := by
  unfold State.onHost; split <;> rfl
@[simp] theorem onHost_channel (s : State) (h : Nat) (f : HostPort → HostPort) (u : Nat) :
    (s.onHost h f).channel u = s.channel u := by
  unfold State.onHost; split <;> rfl
@[simp] theorem onHost_gang (s : State) (h : Nat) (f : HostPort → HostPort) (u : Nat) :
    (s.onHost h f).gang u = s.gang u := by
  unfold State.onHost; split <;> rfl
@[simp] theorem onHost_reg (s : State) (h : Nat) (f : HostPort → HostPort) (u : Nat) :
    (s.onHost h f).reg u = s.reg u := by
  unfold State.onHost; split <;> rfl
@[simp] theorem onHost_getF (s : State) (h : Nat) (f : HostPort → HostPort) (u j k : Nat) :
    (s.onHost h f).getF u j k = s.getF u j k := by
  unfold State.onHost; split <;> rfl
@[simp] theorem onHost_ptileOf (s : State) (h : Nat) (f : HostPort → HostPort) (u : Nat) :
    (s.onHost h f).ptileOf u = s.ptileOf u := by
  unfold State.onHost; split <;> rfl

end Sys2Proof.Machine.State
end

