-- ==== Sys2Proof/Laws/Ops.lean ====
section
/-! SUPPORT. What the shared operations do: units read back as they were written, registers and their fields, logging,
and storing a codeword. -/

namespace Sys2Proof.Machine

theorem SMap.drop_of_no_key {α : Type} (m : SMap α) (k : Nat) (h : ∀ c ∈ m, c.1 ≠ k) : SMap.drop m k = m := by
  induction m with
  | nil => rfl
  | cons c m ih => unfold SMap.drop; simp_all

namespace State

/-! ### Units -/

theorem tile_onTile (s : State) (t u : Nat) (f : Tile → Tile) :
    (s.onTile t f).tile u = if u = t then f (s.tile t) else s.tile u := by
  simp only [onTile, setTile, tile, SMap.look_put]

@[simp] theorem tile_onTile_self (s : State) (t : Nat) (f : Tile → Tile) : (s.onTile t f).tile t = f (s.tile t) := by
  simp [tile_onTile]

@[simp] theorem tile_onTile_ne (s : State) (t u : Nat) (f : Tile → Tile) (h : u ≠ t) :
    (s.onTile t f).tile u = s.tile u := by simp [tile_onTile, h]

theorem pillar_onPillar (s : State) (t u : Nat) (f : Pillar → Pillar) :
    (s.onPillar t f).pillar u = if u = t then f (s.pillar t) else s.pillar u := by
  simp only [onPillar, pillar, SMap.look_put]

@[simp] theorem pillar_onPillar_self (s : State) (t : Nat) (f : Pillar → Pillar) :
    (s.onPillar t f).pillar t = f (s.pillar t) := by simp [pillar_onPillar]

theorem channel_onChannel (s : State) (c u : Nat) (f : Channel → Channel) :
    (s.onChannel c f).channel u = if u = c then f (s.channel c) else s.channel u := by
  simp only [onChannel, channel, SMap.look_put]

@[simp] theorem channel_onChannel_self (s : State) (c : Nat) (f : Channel → Channel) :
    (s.onChannel c f).channel c = f (s.channel c) := by simp [channel_onChannel]

theorem gang_onGang (s : State) (g u : Nat) (f : Gang → Gang) :
    (s.onGang g f).gang u = if u = g then f (s.gang g) else s.gang u := by
  simp only [onGang, gang, SMap.look_put]

@[simp] theorem gang_onGang_self (s : State) (g : Nat) (f : Gang → Gang) : (s.onGang g f).gang g = f (s.gang g) := by
  simp [gang_onGang]

/-! ### Registers -/

theorem reg_lt (s : State) (a : Nat) : s.reg a < 2 ^ 64 := BitVec.isLt _

theorem reg_setReg (s : State) (a v b : Nat) :
    (s.setReg a v).reg b = if b = a then v % 2 ^ 64 else s.reg b := by
  by_cases h : b = a
  · subst h; simp [setReg, reg]
  · simp only [setReg, reg, h, if_false]; rw [SMap.look_put_ne _ _ _ _ h]

@[simp] theorem reg_setReg_self (s : State) (a v : Nat) : (s.setReg a v).reg a = v % 2 ^ 64 := by simp [reg_setReg]

@[simp] theorem reg_setReg_ne (s : State) (a v b : Nat) (h : b ≠ a) : (s.setReg a v).reg b = s.reg b := by
  simp [reg_setReg, h]

/-- A field write changes no other register. -/
@[simp] theorem reg_setF_ne (s : State) (a hi lo v b : Nat) (h : b ≠ a) : (s.setF a hi lo v).reg b = s.reg b := by
  simp [setF, h]

@[simp] theorem getF_setF_ne (s : State) (a hi lo v b j k : Nat) (h : b ≠ a) :
    (s.setF a hi lo v).getF b j k = s.getF b j k := by simp [getF, h]

@[simp] theorem reg_addF_ne (s : State) (a hi lo n b : Nat) (h : b ≠ a) : (s.addF a hi lo n).reg b = s.reg b := by
  simp [addF, h]

@[simp] theorem reg_peakF_ne (s : State) (a hi lo n b : Nat) (h : b ≠ a) : (s.peakF a hi lo n).reg b = s.reg b := by
  simp [peakF, h]

end State

theorem add_mul_lt {a b m n : Nat} (ha : a < m) (hb : b < n) : a + m * b < m * n :=
  calc a + m * b < m + m * b := by omega
    _ = m * (b + 1) := by ring
    _ ≤ m * n := Nat.mul_le_mul_left _ hb

theorem bits_lt (v hi lo : Nat) : bits v hi lo < 2 ^ (hi + 1 - lo) := Nat.mod_lt _ (by positivity)

/-- A number with one field replaced: the field, the bits below it and the bits above it. -/
theorem replaceField (old hi lo v : Nat) (h : lo ≤ hi) :
    old - bits old hi lo * 2 ^ lo + v % 2 ^ (hi + 1 - lo) * 2 ^ lo =
      old % 2 ^ lo + 2 ^ lo * (v % 2 ^ (hi + 1 - lo) + 2 ^ (hi + 1 - lo) * (old / 2 ^ (hi + 1))) := by
  have hp : 2 ^ (hi + 1) = 2 ^ lo * 2 ^ (hi + 1 - lo) := by rw [← pow_add]; congr 1; omega
  have h1 : old = old % 2 ^ lo + 2 ^ lo * (old / 2 ^ lo) := (Nat.mod_add_div _ _).symm
  have h2 : old / 2 ^ lo = old / 2 ^ lo % 2 ^ (hi + 1 - lo) + 2 ^ (hi + 1 - lo) * (old / 2 ^ lo / 2 ^ (hi + 1 - lo)) :=
    (Nat.mod_add_div _ _).symm
  have h3 : bits old hi lo = old / 2 ^ lo % 2 ^ (hi + 1 - lo) := by rw [bits, Nat.shiftRight_eq_div_pow]
  rw [hp, ← Nat.div_div_eq_div_mul, h3]
  have h4 : old / 2 ^ lo % 2 ^ (hi + 1 - lo) * 2 ^ lo ≤ old := by
    calc _ ≤ old / 2 ^ lo * 2 ^ lo := Nat.mul_le_mul_right _ (Nat.mod_le _ _)
      _ ≤ old := Nat.div_mul_le_self _ _
  have h5 : old = old % 2 ^ lo + 2 ^ lo * (old / 2 ^ lo % 2 ^ (hi + 1 - lo)) +
      2 ^ lo * (2 ^ (hi + 1 - lo) * (old / 2 ^ lo / 2 ^ (hi + 1 - lo))) := by
    rw [add_assoc, ← Nat.mul_add, ← h2]; exact h1
  rw [Nat.mul_add, Nat.mul_comm (v % _) (2 ^ lo), Nat.mul_comm (_ % _) (2 ^ lo)] at *
  omega

namespace State

/-- A field written reads back, reduced to its width. -/
@[simp] theorem getF_setF_self (s : State) (a hi lo v : Nat) (h : lo ≤ hi) (hw : hi < 64) :
    (s.setF a hi lo v).getF a hi lo = v % 2 ^ (hi + 1 - lo) := by
  have hb := s.reg_lt a
  have hp : 2 ^ (hi + 1) = 2 ^ lo * 2 ^ (hi + 1 - lo) := by rw [← pow_add]; congr 1; omega
  have h64 : (2 : Nat) ^ 64 = 2 ^ (hi + 1) * 2 ^ (63 - hi) := by rw [← pow_add]; congr 1; omega
  have hr := replaceField (s.reg a) hi lo v h
  simp only [getF, setF, reg_setReg_self]
  rw [hr]
  have hlt : s.reg a % 2 ^ lo + 2 ^ lo * (v % 2 ^ (hi + 1 - lo) + 2 ^ (hi + 1 - lo) * (s.reg a / 2 ^ (hi + 1))) < 2 ^ 64 := by
    have a1 : s.reg a % 2 ^ lo < 2 ^ lo := Nat.mod_lt _ (by positivity)
    have a2 : v % 2 ^ (hi + 1 - lo) < 2 ^ (hi + 1 - lo) := Nat.mod_lt _ (by positivity)
    have a3 : s.reg a / 2 ^ (hi + 1) < 2 ^ (63 - hi) := by
      apply Nat.div_lt_of_lt_mul; rw [← h64]; exact hb
    rw [h64, hp, Nat.mul_assoc]
    exact add_mul_lt a1 (add_mul_lt a2 (hp ▸ a3))
  rw [Nat.mod_eq_of_lt hlt, bits, Nat.shiftRight_eq_div_pow,
    Nat.add_mul_div_left _ _ (by positivity : 0 < 2 ^ lo), Nat.div_eq_of_lt (Nat.mod_lt _ (by positivity)), zero_add,
    Nat.add_mul_mod_self_left, Nat.mod_mod]

/-- A whole 64-bit counter counts with saturation (R53). -/
theorem reg_addF_whole (s : State) (a n : Nat) : (s.addF a 63 0 n).reg a = min (2 ^ 64 - 1) (s.reg a + n) := by
  have hb := s.reg_lt a
  have hg : ∀ s : State, s.getF a 63 0 = s.reg a := fun s => by
    simpa [getF, bits] using Nat.mod_eq_of_lt (s.reg_lt a)
  have := getF_setF_self s a 63 0 (min (2 ^ (63 + 1 - 0) - 1) (s.getF a 63 0 + n)) (by omega) (by omega)
  rw [hg] at this
  rw [addF, this, hg]
  exact Nat.mod_eq_of_lt (by omega)

end State

end Sys2Proof.Machine
end

