-- ==== Sys2Proof/Laws/Memory.lean ====
section
/-! SUPPORT. What the operations over the field and barn memories do: what a stored codeword reads as, that no other
codeword changes, and that each keeps the memories in canonical form (R57, R61, R296). -/

namespace Sys2Proof.Machine

/-- The encoder's register keeps its eight symbols. -/
theorem rsStep_length (r : List Nat) (d : Nat) (h : r.length = 8) : (rsStep r d).length = 8 := by
  have hs : (r.tail ++ [0]).length = 8 := by simp [h]
  have hg : rsGen.length = 8 := by decide +kernel
  unfold rsStep
  dsimp only
  split
  · exact hs
  · rw [List.length_zipWith, hs, hg]; rfl

@[simp] theorem rsCheck_length (d : List Byte) : (rsCheck d).length = 8 := by
  have h : ∀ (d : List Byte) (r : List Nat), r.length = 8 → (d.foldl (fun r d => rsStep r d.toNat) r).length = 8 := by
    intro d
    induction d with
    | nil => exact fun _ h => h
    | cons x d ih => exact fun r h => ih _ (rsStep_length r _ h)
  rw [rsCheck, List.length_map]
  exact h d _ rfl

@[simp] theorem storedCheck_length (d : List Byte) (b : Bool) : (storedCheck d b).length = 8 := by
  unfold storedCheck
  split
  · simp [blightB]
  · simp

variable (s : State) (barn : Bool) (cw : Nat) (l : Line)

/-- A stored codeword is found as it was stored. -/
theorem storedCw_storeCw_self (hl : l.data.length = 64) :
    (s.storeCw barn cw l).storedCw barn cw = (l.data, storedCheck l.data l.blight) := by
  have h8 : (storedCheck l.data l.blight).length = 8 := storedCheck_length _ _
  have hd := fun m => readBytes_writeBytes_self m (64 * cw) l.data
  have hc := fun m => readBytes_writeBytes_self m (8 * cw) (storedCheck l.data l.blight)
  rw [hl] at hd
  rw [h8] at hc
  cases barn <;> simp [State.storedCw, State.storeCw, hd, hc]

/-- Storing one codeword leaves every other one of that memory. -/
theorem storedCw_storeCw_ne (hl : l.data.length = 64) (k : Nat) (h : k ≠ cw) :
    (s.storeCw barn cw l).storedCw barn k = s.storedCw barn k := by
  have h8 : (storedCheck l.data l.blight).length = 8 := storedCheck_length _ _
  have hd := fun m => readBytes_writeBytes_outside m (64 * cw) (64 * k) 64 l.data (by omega)
  have hc := fun m => readBytes_writeBytes_outside m (8 * cw) (8 * k) 8 (storedCheck l.data l.blight) (by omega)
  cases barn <;> simp [State.storedCw, State.storeCw, hd, hc]

/-- Storing into one memory leaves the other. -/
theorem storedCw_storeCw_other (k : Nat) : (s.storeCw barn cw l).storedCw (!barn) k = s.storedCw (!barn) k := by
  cases barn <;> rfl

/-- Storing a codeword changes the memories alone. -/
theorem storeCw_rest :
    { s.storeCw barn cw l with
      fieldData := s.fieldData, fieldCheck := s.fieldCheck, barnData := s.barnData, barnCheck := s.barnCheck } = s := by
  cases barn <;> rfl

/-- Storing a codeword keeps the memories in canonical form. -/
theorem storeCw_canonical (h : MemoriesCanonical s) : MemoriesCanonical (s.storeCw barn cw l) := by
  obtain ⟨h1, h2, h3, h4⟩ := h
  cases barn
  · exact ⟨writeBytes_wf _ _ _ h1, writeBytes_wf _ _ _ h2, h3, h4⟩
  · exact ⟨h1, h2, writeBytes_wf _ _ _ h3, writeBytes_wf _ _ _ h4⟩

/-- A changed symbol keeps the memories in canonical form. -/
theorem upsetOne_canonical (u : Upset) (h : MemoriesCanonical s) : MemoriesCanonical (State.upsetOne u s) := by
  obtain ⟨h1, h2, h3, h4⟩ := h
  unfold State.upsetOne
  split <;> dsimp only <;> split
  · exact ⟨h1, h2, SMap.wf_put 0 _ _ _ h3, h4⟩
  · exact ⟨SMap.wf_put 0 _ _ _ h1, h2, h3, h4⟩
  · exact ⟨h1, h2, h3, SMap.wf_put 0 _ _ _ h4⟩
  · exact ⟨h1, SMap.wf_put 0 _ _ _ h2, h3, h4⟩

/-- So do all the upsets an access finds. -/
theorem upset_canonical (env : Env) (h : MemoriesCanonical s) : MemoriesCanonical (s.upset env) := by
  unfold State.upset
  generalize env.ups = us
  induction us generalizing s with
  | nil => exact h
  | cons u us ih => exact ih _ (upsetOne_canonical s u h)

/-- With nothing upset, nothing changes. -/
@[simp] theorem upset_none : s.upset Env.none = s := rfl

/-! ### What does not reach the memories -/

/-- The memories, which only storing a codeword and an upset change. -/
def memories (s : State) : SMap Byte × SMap Byte × SMap Byte × SMap Byte :=
  (s.fieldData, s.fieldCheck, s.barnData, s.barnCheck)

theorem canonical_of_memories {s s' : State} (e : memories s' = memories s) (h : MemoriesCanonical s) :
    MemoriesCanonical s' := by
  simp only [memories, Prod.mk.injEq] at e
  obtain ⟨e1, e2, e3, e4⟩ := e
  unfold MemoriesCanonical
  rw [e1, e2, e3, e4]
  exact h

@[simp] theorem setReg_memories (a v : Nat) : memories (s.setReg a v) = memories s := rfl
@[simp] theorem setF_memories (a hi lo v : Nat) : memories (s.setF a hi lo v) = memories s := rfl
@[simp] theorem addF_memories (a hi lo n : Nat) : memories (s.addF a hi lo n) = memories s := rfl
@[simp] theorem onTile_memories (t : Nat) (f : Tile → Tile) : memories (s.onTile t f) = memories s := rfl
@[simp] theorem onPillar_memories (t : Nat) (f : Pillar → Pillar) : memories (s.onPillar t f) = memories s := rfl
@[simp] theorem onChannel_memories (c : Nat) (f : Channel → Channel) : memories (s.onChannel c f) = memories s := rfl
@[simp] theorem emit_memories (o : Output) : memories (s.emit o) = memories s := rfl
@[simp] theorem onHost_memories (k : Nat) (f : HostPort → HostPort) : memories (s.onHost k f) = memories s := by
  unfold State.onHost; split <;> rfl

@[simp] theorem raise_memories (v : Nat) : memories (s.raise v) = memories s := by
  unfold State.raise State.sendVector
  dsimp only
  repeat' split
  all_goals simp

/-- Logging a cause changes registers and sends vectors. -/
@[simp] theorem logAs_memories (p : Page) (c : Cause) (i : Bool) (d : Nat) : memories (s.logAs p c i d).2 = memories s := by
  unfold State.logAs
  dsimp only
  repeat' split
  all_goals simp

@[simp] theorem log_memories (p : Page) (c : Cause) : memories (s.log p c) = memories s := logAs_memories s p c _ _

@[simp] theorem logAt_memories (p : Page) (c : Cause) (o l : Nat) : memories (s.logAt p c o l) = memories s := by
  unfold State.logAt
  dsimp only
  split
  · exact logAs_memories s p c _ _
  · exact logAs_memories s p c _ _

@[simp] theorem addEvent_memories (b : EventBody) : memories (s.addEvent b) = memories s := by
  unfold State.addEvent
  dsimp only
  repeat' split
  all_goals first | rfl | exact raise_memories _ _

/-- A request handed on is in a queue or lane: no memory changes. -/
theorem handOn_memories (r : MemReq) (s' : State) (h : s.handOn r = some s') : memories s' = memories s := by
  unfold State.handOn at h
  dsimp only at h
  repeat' split at h
  all_goals first | (cases h; rfl) | cases h

@[simp] theorem drainMesh_memories : memories s.drainMesh = memories s := by
  unfold State.drainMesh
  have key : ∀ (rs : List MemReq) (acc : State × List MemReq × List Nat),
      memories (rs.foldl (fun (acc : State × List MemReq × List Nat) r =>
        let k := s.meshStop r
        if acc.2.2.contains k then (acc.1, acc.2.1 ++ [r], acc.2.2)
        else
          match acc.1.handOn r with
          | some s' => (s', acc.2)
          | none => (acc.1, acc.2.1 ++ [r], k :: acc.2.2)) acc).1 = memories acc.1 := by
    intro rs
    induction rs with
    | nil => exact fun _ => rfl
    | cons r rs ih =>
      intro acc
      rw [List.foldl_cons, ih]
      dsimp only
      split
      · rfl
      · split
        · exact handOn_memories _ _ _ ‹_›
        · rfl
  exact key s.mesh (s, [], [])

@[simp] theorem sendMesh_memories (rs : List MemReq) : memories (s.sendMesh rs) = memories s :=
  drainMesh_memories _

@[simp] theorem cper_memories (i : CperInfo) : memories (s.cper i) = memories s := by
  unfold State.cper State.postLines
  dsimp only
  split
  · rfl
  · split
    · rfl
    · simp

@[simp] theorem fenceAsk_memories (t : Nat) (b : Bool) : memories (s.fenceAsk t b) = memories s := by
  unfold State.fenceAsk; split <;> rfl

/-- A strike of a sweep changes no memory. -/
@[simp] theorem sweepStrike_memories (t : Nat) : memories (s.sweepStrike t) = memories s := by
  unfold State.sweepStrike; dsimp only; split <;> rfl

/-- Reporting an uncorrectable codeword changes no memory. -/
@[simp] theorem fieldUe_memories : memories (s.fieldUe cw) = memories s := by
  unfold State.fieldUe
  extract_lets
  split
  · rw [fenceAsk_memories, sweepStrike_memories, onPillar_memories, addEvent_memories, cper_memories, logAt_memories]
  · rw [sweepStrike_memories, onPillar_memories, addEvent_memories, cper_memories, logAt_memories]

@[simp] theorem barnUe_memories : memories (s.barnUe cw) = memories s := by
  unfold State.barnUe; simp

@[simp] theorem countCorrected_memories : memories (s.countCorrected barn cw) = memories s := by
  unfold State.countCorrected State.autoRetrain
  dsimp only
  repeat' split
  all_goals simp

/-- Reading a codeword keeps the memories in canonical form: at most it writes that codeword back (R64). -/
theorem readCw_canonical (h : MemoriesCanonical s) : MemoriesCanonical (s.readCw barn cw).2 := by
  have hs := fun l => storeCw_canonical s barn cw l h
  unfold State.readCw
  dsimp only
  split
  · exact h
  · exact h
  · exact canonical_of_memories (countCorrected_memories _ _ _) (hs _)
  · exact canonical_of_memories (countCorrected_memories _ _ _) (hs _)
  · dsimp only
    split
    · exact canonical_of_memories (barnUe_memories _ _) (hs _)
    · exact canonical_of_memories (fieldUe_memories _ _) (hs _)

/-- Reads performed before an overwrite keep the memories in canonical form. -/
theorem keepForReads_canonical (o : Nat) (h : MemoriesCanonical s) : MemoriesCanonical (s.keepForReads o) := by
  unfold State.keepForReads
  dsimp only
  split
  · exact canonical_of_memories (onChannel_memories _ _ _) (readCw_canonical s true (o / 64) h)
  · exact h

/-- So does a merge read. -/
theorem mergeAt_canonical (dpa : Nat) (h : MemoriesCanonical s) : MemoriesCanonical (s.mergeAt dpa) := by
  unfold State.mergeAt
  dsimp only
  split
  · exact canonical_of_memories (onChannel_memories _ _ _) (readCw_canonical s true _ h)
  · exact h

/-- A whole barn codeword written by the module keeps the memories in canonical form. -/
theorem barnPut_canonical (o : Nat) (h : MemoriesCanonical s) : MemoriesCanonical (s.barnPut o l) := by
  unfold State.barnPut
  dsimp only
  split
  · exact h
  · apply storeCw_canonical
    have hk := keepForReads_canonical s (o / 64 * 64) h
    split
    · exact hk
    · exact hk

/-- So does reading a line within a row. -/
theorem readLoc_canonical (loc : Loc) (h : MemoriesCanonical s) : MemoriesCanonical (s.readLoc loc).2 := by
  unfold State.readLoc
  split
  · split
    · exact h
    · exact readCw_canonical s _ _ h
  · rename_i o
    have hm := mergeAt_canonical s (o / 64 * 64 + 0x2000000000) h
    extract_lets
    split
    · exact h
    · split
      · exact canonical_of_memories (addF_memories _ _ _ _ _) hm
      · exact readCw_canonical _ _ _ hm

/-- And writing one. -/
theorem writeLoc_canonical (env : Env) (loc : Loc) (h : MemoriesCanonical s) :
    MemoriesCanonical (s.writeLoc env loc l) := by
  have hp : memories (s.parityIn loc) = memories s := by
    cases loc
    · exact (sweepStrike_memories _ _).trans (log_memories _ _ _)
    · exact log_memories _ _ _
  have hc : MemoriesCanonical (if State.encBad env loc = true then s.parityIn loc else s) := by
    split
    · exact canonical_of_memories hp h
    · exact h
  unfold State.writeLoc
  extract_lets bad s₁ l₁
  split
  · split
    · exact hc
    · exact storeCw_canonical _ _ _ _ hc
  · exact barnPut_canonical _ _ _ hc

/-- And writing part of one. -/
theorem mergeLoc_canonical (env : Env) (loc : Loc) (new : List Byte) (mask : Nat) (b : Bool)
    (h : MemoriesCanonical s) : MemoriesCanonical (s.mergeLoc env loc new mask b) := by
  unfold State.mergeLoc
  split
  · exact writeLoc_canonical _ _ _ _ h
  · split
    · exact h
    · exact writeLoc_canonical _ _ _ _ (readLoc_canonical _ _ h)

end Sys2Proof.Machine
end

