-- ==== Sys2Proof/Laws/Yilac.lean ====
section
/-! SUPPORT. What the shared operations of the Yilac rows do, each once: a row of a ready tile runs, retiring goes on
and counts, a jump goes to its target, a register write changes its register. -/

namespace Sys2Proof.Machine

variable (s : State) (t : Nat)

/-! ### Units and ready tiles -/

/-- A command on a unit that exists answers its effect. -/
theorem guardUnit_true (b : Bool) (s' : State) (h : b = true) : guardUnit b s' = .next s' := by
  subst h; rfl

/-- A command on a unit that does not exist stops. -/
theorem guardUnit_false (b : Bool) (s' : State) (h : b = false) : guardUnit b s' = .fault .noSuchUnit := by
  subst h; rfl

/-- What a tile does for itself in a clock domain that runs is its own effect. -/
theorem asRun_plain (f : Nat → State → State) (h : Plain s t) : s.asRun t f = f t s := by
  simp [State.asRun, State.inClock, h.own, h.clock]

/-- A row of a domain whose clock stands still changes nothing (R476). -/
theorem inClock_lost (k : Nat) (s' : State) (h : s.pllLost k = true) : s.inClock k s' = s := by
  simp [State.inClock, h]

/-- A row of a domain whose clock runs takes its effect. -/
theorem inClock_runs (k : Nat) (s' : State) (h : s.pllLost k = false) : s.inClock k s' = s' := by
  simp [State.inClock, h]

/-- A Yilac row of a ready tile performs its effect. -/
theorem yilac_ready (i : Instr) (f : Nat → State → State) (hr : Ready s t i) :
    yilac t (encodeYilac i) s f = .next (f t s) := by
  obtain ⟨hp, hc, hw⟩ := hr
  have ht := hp.tile
  simp [yilac, guardUnit, isTile, ht, asRun_plain s t _ hp, State.about, hc, hw]

/-- A Yilac row of a tile that is not about to execute it changes nothing. -/
theorem yilac_idle (w : Option Word) (f : Nat → State → State) (hp : Plain s t) (h : s.about t w = false) :
    yilac t w s f = .next s := by
  have ht := hp.tile
  simp [yilac, guardUnit, isTile, ht, asRun_plain s t _ hp, h]

/-! ### Register writes -/

@[simp] theorem Tile.rd_zero (x : Tile) : x.rd 0 = 0 := rfl
@[simp] theorem Tile.wr_pc (x : Tile) (r : BitVec 5) (v : Word) : (x.wr r v).pc = x.pc := by
  unfold Tile.wr; split <;> rfl
@[simp] theorem Tile.wr_loops (x : Tile) (r : BitVec 5) (v : Word) : (x.wr r v).loops = x.loops := by
  unfold Tile.wr; split <;> rfl
@[simp] theorem Tile.wr_core (x : Tile) (r : BitVec 5) (v : Word) : (x.wr r v).core = x.core := by
  unfold Tile.wr; split <;> rfl

/-- A register other than g0 reads what was last written to it (R95). -/
@[simp] theorem Tile.rd_wr_self (x : Tile) (r : BitVec 5) (v : Word) (h : r ≠ 0) : (x.wr r v).rd r = v := by
  unfold Tile.rd Tile.wr
  rw [if_neg h, if_neg h]
  simp

/-- A write leaves the other registers. -/
@[simp] theorem Tile.rd_wr_ne (x : Tile) (r q : BitVec 5) (v : Word) (h : q ≠ r) : (x.wr r v).rd q = x.rd q := by
  have hn : q.toNat ≠ r.toNat := by simpa [BitVec.toNat_inj] using h
  unfold Tile.rd Tile.wr
  split
  · rfl
  · split
    · rfl
    · simp [hn]

/-! ### Retiring and jumping -/

/-- An instruction that has changed its tile by `f`, PC and loop units aside, and does not run off the end of instruction
memory, retires (R100, R105, R130). -/
theorem retire_spec (f : Tile → Tile) (hpc : (f (s.tile t)).pc = (s.tile t).pc)
    (hl : (f (s.tile t)).loops = (s.tile t).loops) (h : nextPc (s.tile t) ≠ 0x8000) :
    Retires s ((s.onTile t f).retire t) t (f (s.tile t)) := by
  have h' : nextPc (f (s.tile t)) ≠ 0x8000 := by simpa [nextPc, hpc, hl] using h
  have e : (s.onTile t f).retire t = (((s.onTile t f).countRetired t).onTile t fun x =>
      { x with loops := (loopAct (s.tile t).pc (s.tile t).loops).2 }).onTile t fun x =>
        { x with pc := nextPc (s.tile t) } := by
    simp only [State.retire, State.retireTo, State.goTo, State.tile_onTile_self, hpc, hl, State.countRetired]
    rw [if_neg]
    · rfl
    · exact h
  rw [e]
  constructor
  · simp [State.countRetired]
  · intro u hu; simp [State.countRetired, hu]
  · simp [State.countRetired, retiredReg, State.reg_addF_whole]
  · intro a ha
    simp only [State.countRetired, State.onTile_reg]
    rw [State.reg_addF_ne]
    · rfl
    · exact ha
  · rfl

/-- A row that writes one register of a ready tile retires with the write (R97, R99). -/
theorem alu_spec (i : Instr) (rd : BitVec 5) (v : Tile → Word) (hr : Ready s t i) (h : nextPc (s.tile t) ≠ 0x8000) :
    ∃ s', aluRow t (encodeYilac i) rd v s = .next s' ∧ Retires s s' t ((s.tile t).wr rd (v (s.tile t))) :=
  ⟨_, yilac_ready s t i _ hr, retire_spec s t (fun x => x.wr rd (v x)) (Tile.wr_pc _ _ _) (Tile.wr_loops _ _ _) h⟩

/-- A jump inside instruction memory that links nothing (R100, R108). -/
theorem jumpTo_branch (tgt : Int) (isJ : Bool) (h : inImem tgt) :
    Jumps s (s.jumpTo t tgt isJ none) t
      { s.tile t with pc := tgt.toNat, loops := loopLeave (s.tile t).pc tgt.toNat isJ (s.tile t).loops } := by
  obtain ⟨h0, h1, h2⟩ := h
  have hn : ¬ (tgt < 0 ∨ 0x7FFC < tgt ∨ tgt % 4 ≠ 0) := by omega
  simp only [State.jumpTo, if_neg hn]
  constructor
  · simp [State.countRetired]
  · intro u hu; simp [State.countRetired, hu]
  · simp [State.countRetired, retiredReg, State.reg_addF_whole]
  · intro a ha
    simp only [State.countRetired, State.onTile_reg]
    exact State.reg_addF_ne _ _ _ _ _ _ ha
  · rfl

/-- A jump inside instruction memory that links (R100, R108). -/
theorem jumpTo_link (tgt : Int) (r : BitVec 5) (h : inImem tgt) :
    Jumps s (s.jumpTo t tgt false (some r)) t
      { (s.tile t).wr r (BitVec.ofNat 32 ((s.tile t).pc + 4)) with pc := tgt.toNat } := by
  obtain ⟨h0, h1, h2⟩ := h
  have hn : ¬ (tgt < 0 ∨ 0x7FFC < tgt ∨ tgt % 4 ≠ 0) := by omega
  simp only [State.jumpTo, if_neg hn]
  constructor
  · simp [State.countRetired]
  · intro u hu; simp [State.countRetired, hu]
  · simp [State.countRetired, retiredReg, State.reg_addF_whole]
  · intro a ha
    simp only [State.countRetired, State.onTile_reg]
    exact State.reg_addF_ne _ _ _ _ _ _ ha
  · rfl

end Sys2Proof.Machine
end

