-- ==== Sys2Proof/Tests/Slice0.lean ====
section
/-! SUPPORT. The model's own tests: ill-formed commands are refused, words decode as the formats say, single steps give
what the rules state, and concrete states meet the hypotheses of the statements. -/

namespace Sys2Proof.Tests

open Sys2Proof Sys2Proof.Machine

set_option Elab.async false

/-! ### Small states -/

/-- The block after reset but for tile `t`. -/
def withTile (t : Nat) (x : Tile) : State := { State.reset with tiles := [(t, x)] }

/-- Tile 0 with these registers, running, with the word of `i` at PC 0. -/
def running (i : Instr) (g : SMap Word) : State :=
  withTile 0 { Tile.reset with core := .running, g, imem := [(0, (encodeYilac i).getD 0)] }

/-- A descriptor from its non-zero bytes. -/
def desc (kv : List (Nat × Nat)) : List Byte :=
  (List.range 64).map fun i => BitVec.ofNat 8 ((kv.find? fun p => p.1 = i).elim 0 (·.2))

/-- An entry of queue `q`, started. -/
def entry (q : Nat) (kv : List (Nat × Nat)) : Entry :=
  { id := 0, q, desc := desc kv, tag := 0, pc := 0, qindex := 0, started := true, performed := false, progress := 0,
    taken := [], index := [], asked := [], unplaced := 0, unanswered := [], got := [], own := none, moved := false, outs := [],
    acts := [], inits := none }

/-- Tile 0 with these queue entries. -/
def queued (es : List Entry) : State := withTile 0 { Tile.reset with queue := es }

/-- The state a command answers. -/
def after (i : Instr) (s : State) : State :=
  match exec i s with
  | .next s' => s'
  | _ => State.reset

/-- What it takes for a tile to act for itself, in one line. -/
theorem plain_iff (s : State) (t : Nat) :
    Plain s t ↔ t < 4352 ∧ s.runAt t = none ∧ s.inRun t = false ∧ s.pllLost (paddockOf t) = false :=
  ⟨fun h => ⟨h.tile, h.own, h.noView, h.clock⟩, fun h => ⟨h.1, h.2.1, h.2.2.1, h.2.2.2⟩⟩

/-- The clock of every domain runs after reset, and a tile of the small states acts for itself. -/
theorem witness_clocks : ∀ k, State.reset.pllLost k = false := fun _ => rfl
theorem witness_plain (x : Tile) : Plain (withTile 0 x) 0 := ⟨by decide, rfl, rfl, rfl⟩

/-! ### Ill-formed commands (R18, R20, R461) -/

theorem test_wf_tile : (Instr.add 4352 1 2 3).wf = false ∧ (Instr.add 4351 1 2 3).wf = true := by decide +kernel
theorem test_wf_queue : (Instr.entryStart 0 6).wf = false ∧ (Instr.entryStart 0 5).wf = true := by decide +kernel
theorem test_wf_receiver : (Instr.stageRoomFree 4353).wf = false ∧ (Instr.stageRoomFree 4352).wf = true := by
  decide +kernel
theorem test_wf_sheaf_queue : (Instr.doorbellWrite 0 64 0).wf = false ∧ (Instr.sheafTake 64 Env.none).wf = false := by
  decide +kernel
theorem test_wf_gang : (Instr.sheafComplete 256 Env.none).wf = false := by decide +kernel
theorem test_wf_head : (Instr.memRd 2 0 0).wf = false ∧ (Instr.gangReset 2 0).wf = false := by decide +kernel
theorem test_wf_tile_page : (Instr.tileReset 0 4352 0).wf = false ∧ (Instr.tileReset 2 0 0).wf = false := by
  decide +kernel
theorem test_wf_paddock : (Instr.modeSelect 0 16 0).wf = false ∧ (Instr.vrSettled 16).wf = false := by decide +kernel
theorem test_wf_bank : (Instr.refreshDue 0 8).wf = false ∧ (Instr.barnRefreshDue 0 32).wf = false := by decide +kernel
theorem test_wf_lane : (Instr.hostRequestAge 0 2 0).wf = false := by decide +kernel
theorem test_wf_decoder : (Instr.hdmCommit 0 2 ⟨0, 0, 0, 0, 0, false⟩).wf = false := by decide +kernel
theorem test_wf_vector : (Instr.msixUnmask 0 72 0).wf = false := by decide +kernel
theorem test_wf_tally : (Instr.tallyBind 0 17 0 0).wf = false ∧ (Instr.tallyBind 0 16 64 0).wf = false := by
  decide +kernel
theorem test_wf_crew : (Instr.crewTallyBind 0 64 0).wf = false := by decide +kernel
theorem test_wf_tally_part : (Instr.tallyRelease (.node 16) 0).wf = false ∧ (Instr.tallyArrival 17 0).wf = false := by
  decide +kernel
theorem test_wf_flag : (Instr.flagUpdate 128).wf = false ∧ (Instr.flagWrite 0 128 0).wf = false := by decide +kernel
theorem test_wf_marginal : (Instr.sweepDone [(4352, true)]).wf = false := by decide +kernel
theorem test_wf_channel : (Instr.barnScrub 64 Env.none).wf = false ∧ (Instr.bankhashWrite 0 0 5 0).wf = false := by
  decide +kernel
theorem test_wf_port : (Instr.linkDown 6).wf = false ∧ (Instr.ridgePortDisable 0 6 0).wf = false := by decide +kernel
theorem test_wf_clock : (Instr.pllUnlock 40).wf = false := by decide +kernel
theorem test_wf_virtual_channel : (Instr.rwr 0 8).wf = false ∧ (Instr.creditReturn 0 8 0).wf = false := by
  decide +kernel
theorem test_wf_page : (Instr.errClear 0 0x38000 0).wf = false ∧ (Instr.errClear 0 0x37FFF 0).wf = true := by
  decide +kernel
theorem test_wf_address : (Instr.unmapped 0 0x4000000 true).wf = false ∧ (Instr.unmapped 0 0x3FFFFFF true).wf = true := by
  decide +kernel
theorem test_wf_control : (Instr.registerWrite 0 0x4001000 4 0).wf = false ∧ (Instr.registerWrite 0 0x4000FFC 4 0).wf = true := by
  decide +kernel

/-- A command on a missing unit stops; one on a unit that exists does not. -/
theorem test_missing_tile : exec (.halt 4352) State.reset = .fault .noSuchUnit := rfl

/-! ### Words of each format, written out from R98 and R99 -/

theorem test_word_R : decodeYilac 0 0x0443_1801 = some (.sub 0 2 3 3) := by decide +kernel
theorem test_word_R_unary : decodeYilac 0 0x0443_0011 = some (.clz 0 2 3) ∧ decodeYilac 0 0x0443_1811 = none := by
  decide +kernel
theorem test_word_I : decodeYilac 0 0x08A7_FFFF = some (.addi 0 5 7 0xFFFF) := by decide +kernel
theorem test_word_shift : decodeYilac 0 0x2043_001F = some (.slli 0 2 3 31) ∧ decodeYilac 0 0x2043_0020 = none := by
  decide +kernel
theorem test_word_lui : decodeYilac 0 0x2C20_1234 = some (.lui 0 1 0x1234) ∧ decodeYilac 0 0x2C21_1234 = none := by
  decide +kernel
theorem test_word_load : decodeYilac 0 0x3022_0004 = some (.ldw 0 1 2 4 false) := by decide +kernel
theorem test_word_store : decodeYilac 0 0x48E4_0010 = some (.sth 0 7 4 0x10 false) := by decide +kernel
theorem test_word_branch : decodeYilac 0 0x5022_0003 = some (.beq 0 1 2 3) := by decide +kernel
theorem test_word_J : decodeYilac 0 0x6C00_0004 = some (.jal 0 4) := by decide +kernel
theorem test_word_L : decodeYilac 0 0x7686_4003 = some (.loop 0 2 1 100 3) := by decide +kernel
theorem test_word_Q : decodeYilac 0 0x8285_ABCD = some (.enq 0 5 5 0xABCD false) := by decide +kernel
theorem test_word_S : decodeYilac 0 0x8400_003F = some (.waitq 0 0x3F) ∧ decodeYilac 0 0x8800_0000 = some (.commit 0) := by
  decide +kernel

/-! ### Yilac -/

/-- The alphabet of the retiring rows: hypotheses of the register, immediate and shift rows. -/
theorem witness_alu_rows :
    (∀ row ∈ regRows, Ready (running (row.1 0 1 2 3) []) 0 (row.1 0 1 2 3) ∧
      nextPc ((running (row.1 0 1 2 3) []).tile 0) ≠ 0x8000) ∧
    (∀ row ∈ immRows, Ready (running (row.1 0 1 2 0xFFFF) []) 0 (row.1 0 1 2 0xFFFF) ∨
      Ready (running (row.1 0 1 0 0xFFFF) []) 0 (row.1 0 1 0 0xFFFF)) ∧
    ∀ row ∈ shiftRows, Ready (running (row.1 0 1 2 31) []) 0 (row.1 0 1 2 31) := by
  unfold Ready regRows immRows shiftRows; simp only [plain_iff]; decide +kernel

theorem test_add_wraps :
    ((after (.add 0 3 1 2) (running (.add 0 3 1 2) [(1, 0xFFFFFFFF), (2, 2)])).tile 0).rd 3 = 1 := by decide +kernel
theorem test_sub_wraps : ((after (.sub 0 3 1 2) (running (.sub 0 3 1 2) [(2, 1)])).tile 0).rd 3 = 0xFFFFFFFF := by
  decide +kernel
theorem test_g0_discards : ((after (.add 0 0 1 1) (running (.add 0 0 1 1) [(1, 5)])).tile 0).rd 0 = 0 := by
  decide +kernel
theorem test_sll_takes_five_bits : ((after (.sll 0 3 1 2) (running (.sll 0 3 1 2) [(1, 3), (2, 33)])).tile 0).rd 3 = 6 := by
  decide +kernel
theorem test_sra_fills : ((after (.sra 0 3 1 2) (running (.sra 0 3 1 2) [(1, 0x80000000), (2, 31)])).tile 0).rd 3 = 0xFFFFFFFF := by
  decide +kernel
theorem test_srl_fills : ((after (.srl 0 3 1 2) (running (.srl 0 3 1 2) [(1, 0x80000000), (2, 31)])).tile 0).rd 3 = 1 := by
  decide +kernel
theorem test_slt_signed : ((after (.slt 0 3 1 2) (running (.slt 0 3 1 2) [(1, 0xFFFFFFFF), (2, 1)])).tile 0).rd 3 = 1 := by
  decide +kernel
theorem test_sltu_unsigned : ((after (.sltu 0 3 1 2) (running (.sltu 0 3 1 2) [(1, 0xFFFFFFFF), (2, 1)])).tile 0).rd 3 = 0 := by
  decide +kernel
theorem test_min_max :
    ((after (.min 0 3 1 2) (running (.min 0 3 1 2) [(1, 0xFFFFFFFF), (2, 1)])).tile 0).rd 3 = 0xFFFFFFFF ∧
      ((after (.maxu 0 3 1 2) (running (.maxu 0 3 1 2) [(1, 0xFFFFFFFF), (2, 1)])).tile 0).rd 3 = 0xFFFFFFFF ∧
      ((after (.max 0 3 1 2) (running (.max 0 3 1 2) [(1, 0xFFFFFFFF), (2, 1)])).tile 0).rd 3 = 1 ∧
      ((after (.minu 0 3 1 2) (running (.minu 0 3 1 2) [(1, 0xFFFFFFFF), (2, 1)])).tile 0).rd 3 = 1 := by decide +kernel
theorem test_mul_high :
    ((after (.mulh 0 3 1 2) (running (.mulh 0 3 1 2) [(1, 0xFFFFFFFF), (2, 2)])).tile 0).rd 3 = 0xFFFFFFFF ∧
      ((after (.mulhu 0 3 1 2) (running (.mulhu 0 3 1 2) [(1, 0xFFFFFFFF), (2, 2)])).tile 0).rd 3 = 1 ∧
      ((after (.mul 0 3 1 2) (running (.mul 0 3 1 2) [(1, 0xFFFFFFFF), (2, 2)])).tile 0).rd 3 = 0xFFFFFFFE := by
  decide +kernel
theorem test_clz_zero : ((after (.clz 0 3 1) (running (.clz 0 3 1) [])).tile 0).rd 3 = 32 := by decide +kernel
theorem test_popc : ((after (.popc 0 3 1) (running (.popc 0 3 1) [(1, 0xF00F)])).tile 0).rd 3 = 8 := by decide +kernel
theorem test_immediates :
    ((after (.addi 0 3 1 0xFFFF) (running (.addi 0 3 1 0xFFFF) [(1, 1)])).tile 0).rd 3 = 0 ∧
      ((after (.andi 0 3 1 0xFFFF) (running (.andi 0 3 1 0xFFFF) [(1, 0x12345678)])).tile 0).rd 3 = 0x5678 ∧
      ((after (.sltiu 0 3 1 0xFFFF) (running (.sltiu 0 3 1 0xFFFF) [(1, 0x10000)])).tile 0).rd 3 = 0 ∧
      ((after (.lui 0 3 0x8000) (running (.lui 0 3 0x8000) [])).tile 0).rd 3 = 0x80000000 := by decide +kernel

/-- LDW of g1 plus 0. -/
def loadAt (a : Word) : State := running (.ldw 0 2 1 0 false) [(1, a)]

theorem witness_loads :
    ∀ a ∈ [0x44000, 0x3FFFD, 0x3FFFC, 0x40000, 0x43FFC],
      Ready (loadAt (BitVec.ofNat 32 a)) 0 (.ldw 0 2 1 0 false) ∧
        dataAddr ((loadAt (BitVec.ofNat 32 a)).tile 0) 1 0 = a ∧ nextPc ((loadAt (BitVec.ofNat 32 a)).tile 0) ≠ 0x8000 := by
  unfold Ready; simp only [plain_iff]; decide +kernel

theorem witness_stores :
    ∀ row ∈ storeRows, ∀ a ∈ [0x3FFFC, 0x40000, 0x43FFC],
      Ready (running (row.1 0 2 1 0 false) [(1, BitVec.ofNat 32 a)]) 0 (row.1 0 2 1 0 false) ∧
        nextPc ((running (row.1 0 2 1 0 false) [(1, BitVec.ofNat 32 a)]).tile 0) ≠ 0x8000 ∧
        dataAddr ((running (row.1 0 2 1 0 false) [(1, BitVec.ofNat 32 a)]).tile 0) 1 0 < 0x44000 ∧
        dataAddr ((running (row.1 0 2 1 0 false) [(1, BitVec.ofNat 32 a)]).tile 0) 1 0 % row.2 = 0 := by
  unfold Ready storeRows; simp only [plain_iff]; decide +kernel

/-- Stores outside the bin and the crib and misaligned ones, at the edges. -/
theorem witness_store_faults :
    ∀ row ∈ storeRows, ∀ a ∈ [0x44000, 0x3FFFD],
      Ready (running (row.1 0 2 1 0 false) [(1, BitVec.ofNat 32 a)]) 0 (row.1 0 2 1 0 false) ∧
        (row.2 ≠ 1 → 0x44000 ≤ dataAddr ((running (row.1 0 2 1 0 false) [(1, BitVec.ofNat 32 a)]).tile 0) 1 0 ∨
          dataAddr ((running (row.1 0 2 1 0 false) [(1, BitVec.ofNat 32 a)]).tile 0) 1 0 % row.2 ≠ 0) := by
  unfold Ready storeRows; simp only [plain_iff]; decide +kernel

theorem test_store_faults :
    ((after (.stb 0 2 1 0 false) (running (.stb 0 2 1 0 false) [(1, 0x44000)])).tile 0).fcode = 0x04 ∧
      ((after (.sth 0 2 1 0 false) (running (.sth 0 2 1 0 false) [(1, 0x3FFFD)])).tile 0).fcode = 0x03 := by decide +kernel

/-- Little-endian, and sign extension of the halfword at a bin address (R13, R96). -/
theorem test_ldh_extends :
    ((after (.ldh 0 2 1 0 false) (withTile 0
      { Tile.reset with
        core := .running, bin := [(1, 0x80)], imem := [(0, (encodeYilac (.ldh 0 2 1 0 false)).getD 0)] })).tile 0).rd 2 =
      0xFFFF8000 := by decide +kernel
theorem test_stw_little_endian :
    ((after (.stw 0 2 1 0) (running (.stw 0 2 1 0) [(1, 0x40000), (2, 0x01020304)])).tile 0).crib =
      [(0, 4), (1, 3), (2, 2), (3, 1)] := by decide +kernel
theorem test_load_address_first : ((after (.ldw 0 2 1 0 false) (loadAt 0x44001)).tile 0).fcode = 0x04 := by
  decide +kernel
theorem test_load_alignment : ((after (.ldw 0 2 1 0 false) (loadAt 0x3FFFD)).tile 0).fcode = 0x03 := by decide +kernel

/-- A taken and an untaken branch, and a target at either end of instruction memory. -/
theorem witness_branches :
    (∀ row ∈ branchRows, Ready (running (row.1 0 1 2 0x1FFF) []) 0 (row.1 0 1 2 0x1FFF)) ∧
      inImem (((running (.beq 0 1 2 0x1FFF) []).tile 0).pc + 4 * (0x1FFF : BitVec 16).toInt) ∧
      ¬ inImem (((running (.beq 0 1 2 0x2000) []).tile 0).pc + 4 * (0x2000 : BitVec 16).toInt) ∧
      Ready (running (.beq 0 1 2 0x2000) []) 0 (.beq 0 1 2 0x2000) ∧
      Ready (running (.j 0 0x1FFF) []) 0 (.j 0 0x1FFF) ∧ Ready (running (.j 0 0x3FFFFFF) []) 0 (.j 0 0x3FFFFFF) ∧
      ¬ inImem (((running (.j 0 0x3FFFFFF) []).tile 0).pc + 4 * (0x3FFFFFF : BitVec 26).toInt) ∧
      Ready (running (.jal 0 0x1FFF) []) 0 (.jal 0 0x1FFF) ∧ Ready (running (.jal 0 0x2000) []) 0 (.jal 0 0x2000) ∧
      Ready (running (.jalr 0 1 2) [(2, 0x7FFC)]) 0 (.jalr 0 1 2) ∧ inImem (0x7FFC : Nat) ∧
      Ready (running (.jalr 0 1 2) [(2, 0x7FFE)]) 0 (.jalr 0 1 2) ∧ ¬ inImem (0x7FFE : Nat) := by
  unfold Ready inImem branchRows; simp only [plain_iff]; refine ⟨?_, ?_, ?_, ?_, ?_, ?_⟩ <;> decide +kernel

theorem test_jal_links : ((after (.jal 0 2) (running (.jal 0 2) [])).tile 0).rd 31 = 4 ∧
    ((after (.jal 0 2) (running (.jal 0 2) [])).tile 0).pc = 8 := by decide +kernel
theorem test_branch_back_faults :
    ((after (.beq 0 1 2 0xFFFF) (running (.beq 0 1 2 0xFFFF) [])).tile 0).fcode = 0x02 := by decide +kernel

/-- LOOP: malformed, a body that ends at 0x7FFC or beyond, a unit already armed, a count and a zero count. -/
theorem witness_loop :
    Ready (running (.loop 0 1 0 5 3) []) 0 (.loop 0 1 0 5 3) ∧
      Ready (running (.loop 0 1 1 5 0xFFF) []) 0 (.loop 0 1 1 5 0xFFF) ∧
      Ready (running (.loop 0 1 1 0 3) []) 0 (.loop 0 1 1 0 3) ∧
      (∀ p ∈ [(0x7FF8, 0), (0x7FF4, 1)], Ready (withTile 0 { Tile.reset with
        core := .running, pc := p.1, loops := [⟨1, 4, 8, 2⟩],
        imem := [(p.1 / 4, (encodeYilac (.loop 0 1 1 5 (BitVec.ofNat 12 p.2))).getD 0)] }) 0
          (.loop 0 1 1 5 (BitVec.ofNat 12 p.2))) := by
  unfold Ready; simp only [plain_iff]; decide +kernel

theorem test_loop_arms : ((after (.loop 0 1 1 5 3) (running (.loop 0 1 1 5 3) [])).tile 0).loops = [⟨1, 4, 16, 5⟩] := by
  decide +kernel
theorem test_loop_zero_skips : ((after (.loop 0 1 1 0 3) (running (.loop 0 1 1 0 3) [])).tile 0).pc = 20 := by
  decide +kernel
/-- A LOOP that is the last instruction of an outer body that goes round again (R105). -/
def outerLoop (cnt : BitVec 11) : State :=
  withTile 0 { Tile.reset with
    core := .running, pc := 4, loops := [⟨1, 0, 4, 2⟩], imem := [(1, (encodeYilac (.loop 0 0 1 cnt 3)).getD 0)] }

theorem witness_loop_at_body_end :
    Ready (outerLoop 5) 0 (.loop 0 0 1 5 3) ∧ nextPc ((outerLoop 5).tile 0) ≠ 0x8000 ∧
      Ready (running (.loop 0 0 1 0 3) []) 0 (.loop 0 0 1 0 3) ∧
      (∀ l ∈ ((running (.loop 0 0 1 0 3) []).tile 0).loops, l.last ≠ 0) := by unfold Ready; simp only [plain_iff]; decide +kernel

theorem test_loop_at_body_end :
    ((after (.loop 0 0 1 5 3) (outerLoop 5)).tile 0).loops = [⟨0, 8, 20, 5⟩, ⟨1, 0, 4, 1⟩] ∧
      ((after (.loop 0 0 1 5 3) (outerLoop 5)).tile 0).pc = 0 := by decide +kernel

theorem test_loop_repeats :
    loopAct 16 [⟨1, 4, 16, 2⟩, ⟨0, 0, 16, 3⟩] = (some 4, [⟨1, 4, 16, 1⟩, ⟨0, 0, 16, 3⟩]) ∧
      loopAct 16 [⟨1, 4, 16, 1⟩, ⟨0, 0, 16, 3⟩] = (some 0, [⟨0, 0, 16, 2⟩]) := by decide +kernel

/-- An instruction in the last word of instruction memory. -/
def atEnd (i : Instr) (g : SMap Word) : State :=
  withTile 0 { Tile.reset with core := .running, pc := 0x7FFC, g, imem := [(0x1FFF, (encodeYilac i).getD 0)] }

theorem witness_past_the_end :
    (∀ i ∈ [Instr.add 0 1 2 3, .addi 0 1 2 3, .slli 0 1 2 3, .ldw 0 1 2 0 false, .stw 0 1 2 0, .bne 0 1 2 8, .mfts 0 1 6,
        .mtts 0 1 0x10, .trace 0 7, .waitq 0 0x3F], Ready (atEnd i []) 0 i ∧ nextPc ((atEnd i []).tile 0) = 0x8000) ∧
      dataAddr ((atEnd (.ldw 0 1 2 0 false) []).tile 0) 2 0 = 0 ∧ (atEnd (.trace 0 7) []).tileBlocked 0 3 = false := by
  unfold Ready; simp only [plain_iff]; decide +kernel

/-- An ENQ there with a legal descriptor, and a skip of a body that ends there. -/
theorem witness_enq_past_the_end :
    let s := withTile 0 { (atEnd (.enq 0 5 1 9 false) [(1, 0x40000)]).tile 0 with crib := [(0, 3)] }
    let l := withTile 0 { Tile.reset with
      core := .running, pc := 0x7FF8, imem := [(0x1FFE, (encodeYilac (.loop 0 0 1 0 0)).getD 0)] }
    Ready s 0 (.enq 0 5 1 9 false) ∧ s.enqCheck 0 5 0x40000 false = none ∧ s.tileBlocked 0 1 = false ∧
      ((s.tile 0).entriesOf 5).length < queueDepth 5 ∧ nextPc (s.tile 0) = 0x8000 ∧ Ready l 0 (.loop 0 0 1 0 0) ∧
      (loopAct (l.tile 0).pc (l.tile 0).loops).1.getD ((l.tile 0).pc + 8) = 0x8000 := by
  unfold Ready; simp only [plain_iff]; decide +kernel

theorem test_past_the_end :
    ((after (.addi 0 1 0 5) (atEnd (.addi 0 1 0 5) [])).tile 0).fcode = 0x02 ∧
      ((after (.addi 0 1 0 5) (atEnd (.addi 0 1 0 5) [])).tile 0).pc = 0x8000 ∧
      ((after (.addi 0 1 0 5) (atEnd (.addi 0 1 0 5) [])).tile 0).rd 1 = 5 := by decide +kernel

/-- Loop counts: LC0 and LC3 written, LREM of an armed and of a disarmed unit. -/
theorem witness_loop_counts :
    (∀ k ∈ [0, 3], Ready (running (.mtts 0 1 (BitVec.ofNat 16 (0x10 + k))) []) 0 (.mtts 0 1 (BitVec.ofNat 16 (0x10 + k))) ∧
      Ready (running (.mtts 0 1 (BitVec.ofNat 16 (0x14 + k))) []) 0 (.mtts 0 1 (BitVec.ofNat 16 (0x14 + k))) ∧
      Ready (running (.mfts 0 1 (BitVec.ofNat 16 (0x14 + k))) []) 0 (.mfts 0 1 (BitVec.ofNat 16 (0x14 + k)))) ∧
    ∀ k ∈ [0, 3], Ready (withTile 0 { Tile.reset with
        core := .running, lc := [(k, 9)], imem := [(0, (encodeYilac (.loop 0 (BitVec.ofNat 2 k) 0 0 7)).getD 0)] }) 0
          (.loop 0 (BitVec.ofNat 2 k) 0 0 7) := by
  unfold Ready; simp only [plain_iff]; decide +kernel

theorem witness_state_registers :
    (∀ row ∈ stateRows, Ready (running (.mfts 0 1 (BitVec.ofNat 16 row.1)) []) 0 (.mfts 0 1 (BitVec.ofNat 16 row.1)) ∧
      nextPc ((running (.mfts 0 1 (BitVec.ofNat 16 row.1)) []).tile 0) ≠ 0x8000) ∧
    (∀ n ∈ [0, 2, 4, 13, 0xF, 0x18],
      Ready (running (.mfts 0 1 (BitVec.ofNat 16 n)) []) 0 (.mfts 0 1 (BitVec.ofNat 16 n))) ∧
    (∀ n ∈ [0xF, 0x14],
      Ready (running (.mtts 0 1 (BitVec.ofNat 16 n)) []) 0 (.mtts 0 1 (BitVec.ofNat 16 n))) ∧
    (13 : BitVec 16).toNat ∉ stateNumbers ∧ (0x18 : BitVec 16).toNat ∉ stateNumbers := by
  unfold Ready stateRows; simp only [plain_iff]; decide +kernel

theorem witness_ltile : State.reset.ltileOf 0 = some 0 := by decide +kernel

theorem witness_fault_trace_illegal :
    Ready (running (.faultI 0 7) []) 0 (.faultI 0 7) ∧ Ready (running (.trace 0 7) []) 0 (.trace 0 7) ∧
      (running (.trace 0 7) []).tmodeOf 0 = 0 ∧ ((running (.halt 0) []).tile 0).core = .running ∧
      decodeYilac 0 ((withTile 0 { Tile.reset with core := .running }).fetched 0) = none := by
  unfold Ready; simp only [plain_iff]; decide +kernel

/-- Tile 0 at an instruction, its gang 5 tracing in mode `mode`, with `n` records in an enabled ring of sixteen. -/
def traced (i : Instr) (mode n : Nat) : State :=
  { (((running i []).setF 0x6048 0 0 1).setF 0x604C 31 0 n) with
    tiles := [(0, { Tile.reset with core := .running, gang := some 5, gangId := 5, imem := [(0, (encodeYilac i).getD 0)] })]
    gangs := [(5, { Gang.reset with live := true, tiles := [0], tmode := mode })] }

/-- Mode 3 with a full ring, mode 2 with a full one and with room. -/
theorem witness_trace_mode :
    (Ready (traced (.trace 0 7) 3 16) 0 (.trace 0 7) ∧ ((traced (.trace 0 7) 3 16).tile 0).gang = some 5 ∧
      ((traced (.trace 0 7) 3 16).gang 5).tmode = 3 ∧ nextPc ((traced (.trace 0 7) 3 16).tile 0) ≠ 0x8000 ∧
      (traced (.trace 0 7) 3 16).tileBlocked 0 3 = false) ∧
    Ready (traced (.trace 0 7) 2 16) 0 (.trace 0 7) ∧ (traced (.trace 0 7) 2 16).tileBlocked 0 3 = true ∧
      (traced (.trace 0 7) 2 15).tileBlocked 0 3 = false := by unfold Ready; simp only [plain_iff]; decide +kernel

/-- In mode 2 the event waits while the ring is full (R174). -/
theorem test_trace_waits_for_room :
    ((after (.trace 0 7) (traced (.trace 0 7) 2 16)).tile 0).pc = 0 ∧
      (after (.trace 0 7) (traced (.trace 0 7) 2 15)).traceQ.length = 1 := by decide +kernel

theorem test_user_fault : ((after (.faultI 0 7) (running (.faultI 0 7) [])).tile 0).fcode = 0x0C := by decide +kernel

/-- ENQ addresses at each edge of the crib, and a queue that does not exist. -/
theorem witness_enq :
    (∀ a ∈ [0x3FFC0, 0x40000, 0x40001, 0x43FC0, 0x44000],
      Ready (running (.enq 0 5 1 9 false) [(1, BitVec.ofNat 32 a)]) 0 (.enq 0 5 1 9 false) ∧
        ((running (.enq 0 5 1 9 false) [(1, BitVec.ofNat 32 a)]).tile 0).rd 1 = BitVec.ofNat 32 a) ∧
    Ready (running (.enq 0 6 1 9 false) []) 0 (.enq 0 6 1 9 false) ∧
    Ready (running (.enq 0 5 1 9 true) [(1, 0x40000)]) 0 (.enq 0 5 1 9 true) := by
  unfold Ready; simp only [plain_iff]; decide +kernel

/-- A tile whose crib holds a legal FLAG_ADD descriptor at 0x40000, with `n` entries queued. -/
def enqReady (n : Nat) : State :=
  withTile 0 { Tile.reset with
    core := .running, g := [(1, 0x40000)], crib := [(0, 3)], queue := List.replicate n (entry 5 [(0, 3)]),
    imem := [(0, (encodeYilac (.enq 0 5 1 9 false)).getD 0)] }

theorem witness_enq_places :
    (∀ n ∈ [0, 7, 8], Ready (enqReady n) 0 (.enq 0 5 1 9 false) ∧ (enqReady n).enqCheck 0 5 0x40000 false = none ∧
      nextPc ((enqReady n).tile 0) ≠ 0x8000) ∧
    (((enqReady 7).tile 0).entriesOf 5).length < queueDepth 5 ∧ ¬ (((enqReady 8).tile 0).entriesOf 5).length < queueDepth 5 := by
  unfold Ready; simp only [plain_iff]; decide +kernel

/-- A tile of a module of grade `grade` at an ENQ to queue `q` of the descriptor `kv`. -/
def enqOf (grade : BitVec 4) (q : BitVec 3) (kv : List (Nat × Nat)) : State :=
  { withTile 0 { Tile.reset with
      core := .running, g := [(1, 0x40000)], crib := kv.map fun p => (p.1, BitVec.ofNat 8 p.2),
      imem := [(0, (encodeYilac (.enq 0 q 1 9 false)).getD 0)] } with
    fuses := { State.reset.fuses with grade } }

/-- FUSED on a CM384-G, an illegal field, a stream in MEMORY mode, an operand past the bin, and an entry that passes. -/
theorem witness_enq_entry :
    (∀ x ∈ [((3 : BitVec 4), (0 : BitVec 3), ([(0, 2)] : List (Nat × Nat))), (1, 5, [(0, 9)]),
        (1, 4, [(0, 1), (12, 1), (14, 1)]), (1, 0, [(0, 2), (8, 2), (9, 2), (10, 0), (12, 32), (14, 1), (16, 1), (20, 0xC0),
          (21, 0xFF), (22, 3)]), (1, 5, [(0, 3)])],
      Ready (enqOf x.1 x.2.1 x.2.2) 0 (.enq 0 x.2.1 1 9 false)) ∧
    (illegalFields ((enqOf 1 5 [(0, 9)]).newEntry 0 5 0x40000 9) ≠ []) ∧
    (enqOf 1 4 [(0, 1), (12, 1), (14, 1)]).modeOf 0 = 0 ∧
    illegalFields ((enqOf 1 4 [(0, 1), (12, 1), (14, 1)]).newEntry 0 4 0x40000 9) = [] := by
  unfold Ready; simp only [plain_iff]; decide +kernel

theorem test_enq_entry :
    (after (.enq 0 0 1 9 false) (enqOf 3 0 [(0, 2)])).tiles.map (·.2.fcode) = [0x09] ∧
      (after (.enq 0 5 1 9 false) (enqOf 1 5 [(0, 9)])).tiles.map (·.2.fcode) = [0x0E] ∧
      (after (.enq 0 4 1 9 false) (enqOf 1 4 [(0, 1), (12, 1), (14, 1)])).tiles.map (·.2.fcode) = [0x08] := by decide +kernel

theorem witness_bounds :
    binBounds 1 0x3FFC0 1 0 65 ≠ none ∧ binBounds 1 0x3FFC0 1 0 64 = none := by decide +kernel

theorem witness_enq_stall_end :
    let s := withTile 0 { Tile.reset with core := .stalled, stalledEntry := some (entry 5 [(0, 3)]) }
    (s.tile 0).core = .stalled ∧ (s.tile 0).stalledEntry = some (entry 5 [(0, 3)]) ∧
      ((s.tile 0).entriesOf 5).length < queueDepth 5 ∧ nextPc (s.tile 0) ≠ 0x8000 ∧ s.tileBlocked 0 1 = false := by
  decide +kernel

/-- A traced ENQ with room for its record and with none. -/
theorem witness_enq_traced :
    let s := fun (n : Nat) => { traced (.enq 0 5 1 9 false) 2 n with
      tiles := [(0, { (enqReady 0).tile 0 with gang := some 5 })] }
    Ready (s 16) 0 (.enq 0 5 1 9 false) ∧ (s 16).enqCheck 0 5 0x40000 false = none ∧ (s 16).tileBlocked 0 1 = true ∧
      (s 15).tileBlocked 0 1 = false := by unfold Ready; simp only [plain_iff]; decide +kernel

theorem test_enq_places : (((after (.enq 0 5 1 9 false) (enqReady 0)).tile 0).queue.map fun e => (e.q, e.tag, e.qindex)) =
    [(5, 9, 0)] := by decide +kernel
theorem test_enq_stalls : ((after (.enq 0 5 1 9 false) (enqReady 8)).tile 0).core = .stalled := by decide +kernel

/-- A tile at an instruction with queue entries. -/
def runningWith (i : Instr) (es : List Entry) (words : List SinkWord) (dirty : Bool) : State :=
  withTile 0 { Tile.reset with
    core := .running, queue := es, sink0 := words, dirty, imem := [(0, (encodeYilac i).getD 0)] }

/-- WAITQ over an empty queue, over one that will move and over one that never can. -/
theorem witness_waitq :
    Ready (runningWith (.waitq 0 0x3F) [] [] false) 0 (.waitq 0 0x3F) ∧
      Ready (runningWith (.waitq 0 0x3F) [entry 5 [(0, 3)]] [] false) 0 (.waitq 0 0x3F) ∧
      Ready (runningWith (.waitq 0 1) [entry 0 [(0, 1), (10, 3), (11, 1), (12, 32), (14, 1)]] [] false) 0 (.waitq 0 1) ∧
      stuck { (runningWith (.waitq 0 1) [entry 0 [(0, 1), (10, 3), (11, 1), (12, 32), (14, 1)]] [] false).tile 0 with
        core := .waitq 1 } = some 0x10 ∧
      ((withTile 0 { Tile.reset with core := .waitq 0x3F }).tile 0).core = .waitq 0x3F := by
  unfold Ready; simp only [plain_iff]; decide +kernel

theorem witness_commit_halt :
    Ready (runningWith (.commit 0) [] [] true) 0 (.commit 0) ∧ stepsUsedUp (runningWith (.commit 0) [] [] true) 0 = false ∧
      Ready (runningWith (.commit 0) [] [⟨0, ⟨zeros 64, false⟩⟩] true) 0 (.commit 0) ∧
      Ready (runningWith (.commit 0) [entry 5 [(0, 3)]] [] true) 0 (.commit 0) ∧
      Ready (runningWith (.halt 0) [] [] false) 0 (.halt 0) ∧ Ready (runningWith (.halt 0) [] [] true) 0 (.halt 0) := by
  unfold Ready; simp only [plain_iff]; decide +kernel

/-- A tile whose gang's sheaf allows no further step. -/
theorem witness_step_limit :
    let s := { runningWith (.commit 0) [] [] true with
      tiles := [(0, { Tile.reset with
        core := .running, gang := some 5, stepsDone := 2, imem := [(0, (encodeYilac (.commit 0)).getD 0)] })]
      gangs := [(5, { Gang.reset with
        live := true, tiles := [0],
        sheaf := some ⟨0, 0, 0, 2, false, false, [], 0, 0, 0, 0, false⟩ })] }
    Ready s 0 (.commit 0) ∧ stepsUsedUp s 0 = true := by
  unfold Ready; simp only [plain_iff]; decide +kernel

theorem test_commit_gate : ((after (.commit 0) (runningWith (.commit 0) [] [] true)).tile 0).core = .atGate := by
  decide +kernel
theorem test_halt_uncommitted : ((after (.halt 0) (runningWith (.halt 0) [] [] true)).tile 0).fcode = 0x0B := by
  decide +kernel

theorem witness_loop_well_formed :
    encodeYilac (.loop 0 1 0 5 3) = some 0x75005003 ∧ encodeYilac (.add 0 1 2 3) = some 0x04221800 ∧
      decodeYilac 0 0x04221800 = some (.add 0 1 2 3) := by decide +kernel


/-! ### Engine queues -/

/-- An entry that has not started. -/
def waiting (q id : Nat) (kv : List (Nat × Nat)) : Entry := { entry q kv with id, started := false }

/-- A head entry that has not started: alone, and behind an earlier entry that its DEPS name. -/
theorem witness_entry_start :
    ((queued [waiting 5 0 [(0, 3)]]).headEntry 0 5 = some (waiting 5 0 [(0, 3)]) ∧
      Startable ((queued [waiting 5 0 [(0, 3)]]).tile 0) (waiting 5 0 [(0, 3)]) ∧
      stuck ((queued [entry 5 [(0, 3)]]).tile 0) = none) ∧
    (queued [entry 4 [(0, 1)], waiting 5 1 [(0, 3), (2, 0x10)]]).headEntry 0 5 = some (waiting 5 1 [(0, 3), (2, 0x10)]) ∧
      ¬ Startable ((queued [entry 4 [(0, 1)], waiting 5 1 [(0, 3), (2, 0x10)]]).tile 0) (waiting 5 1 [(0, 3), (2, 0x10)]) := by
  unfold Startable; decide +kernel

/-- A STREAM_MM whose start lets a core that waits for it see that no stream will feed it. -/
def starving : List (Nat × Nat) := [(0, 1), (10, 3), (11, 1), (12, 32), (14, 1)]

theorem witness_entry_start_stuck :
    let s := withTile 0 { Tile.reset with core := .waitq 1, queue := [waiting 0 0 starving] }
    s.headEntry 0 0 = some (waiting 0 0 starving) ∧ Startable (s.tile 0) (waiting 0 0 starving) ∧
      State.needsLattice (waiting 0 0 starving) = false ∧
      stuck { s.tile 0 with queue := [entry 0 starving] } = some 0x10 := by
  unfold Startable; decide +kernel

/-- A performed entry, one with a write to be placed, the last one of a draining step, one whose trace record must wait,
and the last one of a step with codewords left in a sink. -/
theorem witness_entry_complete :
    let e := { entry 2 [(0, 1)] with performed := true }
    let s := { traced (.commit 0) 2 16 with
      tiles := [(0, { Tile.reset with core := .draining, gang := some 5, queue := [e] })]
      gangs := [(5, { Gang.reset with
        live := true, tiles := [0], tmode := 2 })] }
    let w := withTile 0 { Tile.reset with core := .draining, queue := [e], sink0 := [⟨0, ⟨zeros 64, false⟩⟩] }
    ((queued [e]).headEntry 0 2 = some e ∧ e.performed = true ∧ e.unplaced = 0 ∧ e.unanswered = [] ∧
      (queued [e]).tileBlocked 0 2 = false ∧ stuck { (queued [e]).tile 0 with queue := [] } = none) ∧
    ((queued [{ e with unplaced := 1 }]).headEntry 0 2 = some { e with unplaced := 1 } ∧
      stuck { { (queued [e]).tile 0 with core := .draining } with queue := [] } = none) ∧
    (s.headEntry 0 2 = some e ∧ s.tileBlocked 0 2 = true) ∧
    (w.headEntry 0 2 = some e ∧ w.tileBlocked 0 2 = false ∧ stuck { w.tile 0 with queue := [] } = none ∧
      (w.tile 0).sink0 ≠ []) := by decide +kernel

theorem test_entry_start_complete :
    ((after (.entryStart 0 5) (queued [{ entry 5 [(0, 3)] with started := false }])).headEntry 0 5).map (·.started) =
        some true ∧
      ((after (.entryComplete 0 2) (queued [{ entry 2 [(0, 1)] with performed := true }])).tile 0).queue = [] := by
  decide +kernel

/-- A state with a queued entry that steps. -/
theorem witness_queues_checked :
    QueuesChecked (withTile 0 { (queued [entry 5 [(0, 3)]]).tile 0 with nextId := 1 }) ∧
      step (queued [entry 5 [(0, 3)]]) = .next (queued [entry 5 [(0, 3)]]) := by
  refine ⟨⟨fun t => ?_, fun p hp => (by cases hp)⟩, rfl⟩
  by_cases h : t = 0
  · subst h; exact ⟨(by unfold Enqueued; decide +kernel), fun e he => (by cases he), by decide +kernel⟩
  · have hl : (withTile 0 { (queued [entry 5 [(0, 3)]]).tile 0 with nextId := 1 }).tile t = Tile.reset := by
      simp [withTile, State.tile, SMap.look, Ne.symm h]
    rw [hl]; exact ⟨fun e he => (by cases he), fun e he => (by cases he), by decide +kernel⟩

/-- A tile whose entries have passed the checks of ENQ makes a state whose queues are checked. -/
theorem queues_checked (x : Tile) (h : TileChecked x) : QueuesChecked (withTile 0 x) := by
  refine ⟨fun t => ?_, fun p hp => (by cases hp)⟩
  by_cases ht : t = 0
  · subst ht; simpa [withTile, State.tile, SMap.look] using h
  · have hl : (withTile 0 x).tile t = Tile.reset := by simp [withTile, State.tile, SMap.look, Ne.symm ht]
    rw [hl]; exact ⟨fun e he => (by cases he), fun e he => (by cases he), by decide +kernel⟩

/-- A tile with one entry, the first that ENQ placed. -/
def one (e : Entry) : Tile := { Tile.reset with queue := [e], nextId := 1 }

theorem one_checked (e : Entry) (h : Enqueued e) (hi : e.id = 0) : QueuesChecked (withTile 0 (one e)) :=
  queues_checked _ ⟨fun o ho => by
    obtain rfl : o = e := by simpa [one] using ho
    exact ⟨h, by rw [hi]; exact Nat.one_pos⟩, fun o ho => (by cases ho), by simp [one]⟩

/-- Entries of the sources of own-pillar accesses, alone at the tile port: a stream to the bin and to a sink, copies and carts. -/
def portEntries : List (Nat × Entry) :=
  [(0, entry 4 [(0, 1), (12, 2), (14, 1), (20, 2), (24, 64)]), (0, { entry 4 [(0, 1), (12, 2), (14, 1)] with progress := 1 }),
    (1, entry 2 [(0, 1)]), (1, entry 2 [(0, 2)]), (1, { entry 2 [(0, 1)] with moved := true }),
    (2, entry 3 [(0, 1), (8, 2), (10, 4), (12, 1)]), (2, { entry 3 [(0, 1), (8, 2), (10, 4), (12, 1)] with progress := 1, index := [0] })]

theorem witness_port : ∀ x ∈ portEntries, PortFree (withTile 0 (one x.2)) 0 x.1 ∧ Enqueued x.2 ∧ x.2.id = 0 := by
  unfold PortFree Enqueued; decide +kernel

theorem witness_not_begun (q : Nat) (kv : List (Nat × Nat)) : NotBegun (entry q kv) ∧ UnitsLeft (entry q kv) :=
  ⟨⟨rfl, rfl, rfl⟩, fun o ho => (by cases ho)⟩

/-- An entry whose writes are left, one to the own pillar. -/
theorem witness_units_left :
    UnitsLeft { entry 2 [(0, 1)] with moved := true, outs := [.unit (.own 64) 1 ⟨zeros 64, false⟩] } := by
  intro o ho; exact ⟨_, _, _, by simpa using ho⟩

/-- The port serves the stream and the copy engine in turn, a codeword each (R120). -/
theorem test_port_turns :
    let c := { entry 2 [(0, 1)] with id := 1, own := some [64] }
    let s := withTile 0 { Tile.reset with queue := [entry 4 [(0, 1), (12, 2), (14, 1), (20, 2), (24, 64)], c] }
    ((after (.pillarStreamRead 0 Env.none) s).headEntry 0 4).map (·.progress) = some 1 ∧
      ((after (.pillarStreamRead 0 Env.none) s).tile 0).portTurn = some 1 := by decide +kernel

/-- A legal descriptor of each row of `engineRows`. -/
def engineDescs : List (List (Nat × Nat)) :=
  [[(0, 2), (8, 2), (9, 2), (10, 0)], [(0, 1), (8, 0), (9, 2), (10, 17)], [(0, 2), (8, 1), (9, 2), (10, 17)],
    [(0, 3), (8, 1), (9, 2), (10, 17)], [(0, 5)], [(0, 7)], [(0, 8), (8, 12)]]

theorem witness_engines :
    ∀ p ∈ engineRows.zip engineDescs,
      (queued [entry p.1.2.1 p.2]).headEntry 0 p.1.2.1 = some (entry p.1.2.1 p.2) ∧
        field (entry p.1.2.1 p.2).desc 0 1 = p.1.2.2.1 ∧ Enqueued (entry p.1.2.1 p.2) := by
  unfold Enqueued; decide +kernel

/-- EW on INT32: `fn` of A at 0 and B at 64, two rows of one word, into D at 128. -/
def ewDesc (fn : Nat) : List (Nat × Nat) :=
  [(0, 1), (8, fn), (9, 2), (10, 0x11), (12, 2), (14, 1), (20, 4), (24, 64), (28, 4), (40, 128), (44, 4)]

theorem witness_ew_int :
    ∀ r ∈ ewIntRows,
      let e := entry 1 (ewDesc r.1)
      let c := veCmd e.desc
      (queued [e]).headEntry 0 1 = some e ∧ field e.desc 0 1 = 1 ∧ c.itype = 2 ∧ c.fn = r.1 ∧ c.ofmt = 0x11 ∧ c.bmode = 0 ∧
        c.cols * 4 ≤ c.ds ∧ overlap (byteRange c.d c.rows c.ds (c.cols * 4)) (byteRange c.a c.rows c.as_ (c.cols * 4)) = false ∧
        overlap (byteRange c.d c.rows c.ds (c.cols * 4)) (byteRange c.b c.rows c.bs (c.cols * 4)) = false := by
  decide +kernel

theorem test_ew_add :
    binWord ((after (.ew 0 Env.none) (withTile 0 { Tile.reset with
      bin := [(4, 3), (68, 0xFF), (69, 0xFF), (70, 0xFF), (71, 0xFF)], queue := [entry 1 (ewDesc 1)] })).tile 0) 132 = 2 := by
  decide +kernel

/-- A stream of two codewords to the bin, and one to sink 0 that has read one of two. -/
theorem witness_pillar_stream :
    (let e := entry 4 [(0, 1), (12, 2), (14, 1), (20, 2), (24, 64)]
     (queued [e]).headEntry 0 4 = some e ∧ Enqueued e ∧ field e.desc 0 1 = 1 ∧ (psCmd e.desc).sink = 2 ∧
      (psCmd e.desc).total = 2 ∧ (∀ k, k < 2 → CleanAt (queued [e]) 0 ((psCmd e.desc).place k).1) ∧
      ((psCmd e.desc).place 0).2 + 64 ≤ ((psCmd e.desc).place 1).2) ∧
    (let e := { entry 4 [(0, 1), (12, 2), (14, 1)] with progress := 1 }
     (queued [e]).headEntry 0 4 = some e ∧ Enqueued e ∧ (psCmd e.desc).sink = 0 ∧
      ∀ k, k < (psCmd e.desc).total → CleanAt (queued [e]) 0 ((psCmd e.desc).place k).1) := by
  unfold Enqueued CleanAt; decide +kernel

/-- A STREAM_MM of one codeword (format 2), and of sixteen of a codebook (format 10). -/
def streamDesc (w : Nat) : List (Nat × Nat) := [(0, 1), (8, w), (9, 2), (11, 1), (12, 32), (14, 1)]

/-- A codeword of zeros in a sink, from pillar offset `off`. -/
def word (off : Nat) : SinkWord := ⟨off, ⟨zeros 64, false⟩⟩

/-- No codeword there, one there, and the first of a codebook command not at a row's head. -/
theorem witness_stream_mm :
    (∀ w ∈ [2, 10],
      (queued [entry 0 (streamDesc w)]).headEntry 0 0 = some (entry 0 (streamDesc w)) ∧ Enqueued (entry 0 (streamDesc w)) ∧
        field (entry 0 (streamDesc w)).desc 0 1 = 1 ∧ (teCmd (desc (streamDesc w))).empty = false) ∧
    (teCmd (desc (streamDesc 2))).codewords = 1 ∧ isCq (teCmd (desc (streamDesc 2))).w = false ∧
    ¬ (weightBytes false [] false [word 0]).length < (teCmd (desc (streamDesc 2))).totalBytes ∧
    isCq (teCmd (desc (streamDesc 10))).w = true ∧ (word 64).off / 64 % 16 ≠ 0 := by
  unfold Enqueued; decide +kernel

theorem test_stream_mm_waits :
    ((after (.streamMm 0 Env.none) (queued [entry 0 (streamDesc 2)])).headEntry 0 0).map (·.performed) = some false := by
  decide +kernel
theorem test_stream_mm_row_head :
    ((after (.streamMm 0 Env.none) (withTile 0 { Tile.reset with
      queue := [entry 0 (streamDesc 10)], sink0 := [word 64] })).tile 0).fcode = 0x21 := by decide +kernel

/-- An ATTN over records of sink 1 that wants codewords, and one over the bin. -/
theorem witness_attn :
    ∀ kv ∈ [[(0, 6), (8, 2), (9, 0), (10, 1), (12, 1), (14, 32)], [(0, 6), (8, 2), (9, 0), (10, 1), (11, 1), (12, 1), (14, 32)]],
      (queued [entry 1 kv]).headEntry 0 1 = some (entry 1 kv) ∧ Enqueued (entry 1 kv) ∧ field (desc kv) 0 1 = 6 ∧
        (attnCmd (desc kv)).nq ≠ 0 ∧ (attnCmd (desc kv)).dim ≠ 0 ∧ 0 ≤ (attnCmd (desc kv)).codewords := by
  unfold Enqueued; decide +kernel

/-- Copies of the bin, and of four bytes of barn memory before and after the codeword they lie in has come. -/
def barnCopy : List (Nat × Nat) := [(0, 1), (8, 4), (16, 4), (18, 1), (20, 1), (40, 0x20)]
def barnSource (got : List (Nat × Nat × Line)) : State :=
  queued [{ entry 2 barnCopy with asked := if got = [] then [0x2000000000] else [], got }]

theorem witness_copy_over_the_mesh :
    let got := [(meshNode, 0x2000000000, (⟨zeros 64, false⟩ : Line))]
    let c := cpCmd (desc barnCopy)
    (barnSource []).headEntry 0 2 = some { entry 2 barnCopy with asked := [0x2000000000] } ∧ c.empty = false ∧
      ((barnSource []).farEnd 0 c).node = none ∧
      ¬ SourcesHere ((barnSource []).upset Env.none) 0 { entry 2 barnCopy with asked := [0x2000000000] }
        (c.moves ((barnSource []).farEnd 0 c)) ∧
      SourcesHere ((barnSource got).upset Env.none) 0 { entry 2 barnCopy with got } (c.moves ((barnSource got).farEnd 0 c)) := by
  unfold SourcesHere; decide +kernel

/-- The codeword comes over the mesh, and the copy runs when it has. -/
theorem test_copy_asks :
    ((after (.copy 0 Env.none) (queued [entry 2 barnCopy])).channel 0).lane2.map (·.dpa) = [0x2000000000] ∧
      ((after (.copy 0 Env.none) (barnSource [(meshNode, 0x2000000000, ⟨5 :: zeros 63, false⟩)])).tile 0).bin = [(0, 5)] := by
  decide +kernel

theorem witness_copy_cart :
    (∀ op ∈ [1, 2], (queued [entry 2 [(0, op)]]).headEntry 0 2 = some (entry 2 [(0, op)]) ∧ field (desc [(0, op)]) 0 1 = op ∧
      ((queued [entry 2 [(0, op)]]).farEnd 0 (cpCmd (desc [(0, op)]))).node = none ∧
      ((queued [entry 2 [(0, op)]]).farEnd 0 (cpCmd (desc [(0, op)]))).far ≤ 1 ∧
      SourcesHere ((queued [entry 2 [(0, op)]]).upset Env.none) 0 (entry 2 [(0, op)])
        ((cpCmd (desc [(0, op)])).moves ((queued [entry 2 [(0, op)]]).farEnd 0 (cpCmd (desc [(0, op)]))))) ∧
    (∀ op ∈ [1, 2], ∀ n ∈ [0, 1],
      let e := entry 3 [(0, op), (8, 2), (10, 4), (12, n)]
      (queued [e]).headEntry 0 3 = some e ∧ field e.desc 0 1 = op ∧ (ctCmd e.desc).empty = decide (n = 0)) := by
  unfold SourcesHere; decide +kernel

/-- A gather whose index lies in a marked line fails its check. -/
theorem test_gather_blighted_index :
    ((after (.gather 0 Env.none) (withTile 0 { Tile.reset with
      binBlight := [(0, true)], queue := [entry 3 [(0, 1), (8, 2), (10, 4), (12, 1)]] })).tile 0).fcode = 0x0F := by
  decide +kernel

/-- A copy of four bytes at 64 of the bin to 0. -/
def copyDesc : List (Nat × Nat) := [(0, 1), (16, 4), (18, 1), (20, 1), (36, 64)]

theorem witness_copy_row :
    let c := cpCmd (desc copyDesc)
    (queued [entry 2 copyDesc]).headEntry 0 2 = some (entry 2 copyDesc) ∧ field (desc copyDesc) 0 1 = 1 ∧ c.far = 0 ∧
      c.offmod = false ∧ c.dir = 0 ∧ c.perm = 0 ∧ c.padw = false ∧ c.n1 = 1 ∧ c.n2 = 1 ∧ c.bin + c.n0 * c.sz ≤ c.fa := by
  decide +kernel

theorem test_copy_moves :
    ((after (.copy 0 Env.none) (withTile 0 { Tile.reset with bin := [(66, 7)], queue := [entry 2 copyDesc] })).tile 0).bin =
      [(2, 7), (66, 7)] := by decide +kernel

/-- Sync entries: an arrival whose release has come and one whose has not; a wait met at once and one not met. -/
theorem witness_sync :
    (∀ op ∈ [1, 2, 3, 4],
      (queued [entry 5 [(0, op)]]).headEntry 0 5 = some (entry 5 [(0, op)]) ∧ field (desc [(0, op)]) 0 1 = op ∧
        ((queued [entry 5 [(0, op)]]).padNode (paddockOf 0) (syCmd (desc [(0, op)])).tally).lost = false ∧
        ((queued [entry 5 [(0, op)]]).flag (syCmd (desc [(0, op)])).flag).frozen = false) ∧
    ((queued []).leaf 0 0).released = ((queued []).leaf 0 0).arrival ∧
    ((withTile 0 { Tile.reset with leaves := [(0, ⟨2, 1⟩)] }).leaf 0 0).released ≠
      ((withTile 0 { Tile.reset with leaves := [(0, ⟨2, 1⟩)] }).leaf 0 0).arrival ∧
    serialGE 32 0 0 = true ∧ serialGE 32 0 1 = false ∧ (syCmd (desc [(0, 3), (24, 1)])).value = 1 ∧
    (syCmd (desc [(0, 2), (1, 1), (16, 1)])).explicit = true ∧ (syCmd (desc [(0, 2), (1, 1), (16, 1)])).epoch = 1 := by
  decide +kernel

/-- A replay whose hold says how the sync entry ended; a lost tally with no release on its way; a frozen flag. -/
def heldSync (op : Nat) (r : SyncResult) : State :=
  { queued [entry 5 [(0, op)]] with
    tithe := { Tithe.reset with steps := [(0, { TitheStep.begin Tile.reset with phase := .replay, waits := [⟨0, r, zeros 16⟩] })] } }

def lostTally (op : Nat) : State :=
  { queued [entry 5 [(0, op), (24, 1)]] with
    tally := { TallyNet.reset with
      pad := [(0, { TallyNode.reset with bound := true, lost := true })], flags := [(0, { Flag.reset with frozen := true })] } }

theorem witness_lost_and_held :
    (∀ row ∈ syncRows, ∀ r ∈ [SyncResult.ok, .participantLost],
      (heldSync row.2 r).heldWait 0 (entry 5 [(0, row.2)]) = some ⟨0, r, zeros 16⟩ ∧
        (heldSync row.2 r).headEntry 0 5 = some (entry 5 [(0, row.2)])) ∧
    (∀ op ∈ [1, 2], ((lostTally op).padNode (paddockOf 0) (syCmd (desc [(0, op), (24, 1)])).tally).lost = true ∧
      (lostTally op).tally.msgs = [] ∧ (lostTally op).heldWait 0 (entry 5 [(0, op), (24, 1)]) = none) ∧
    serialGE 32 0 (syCmd (desc [(0, 2), (1, 1), (16, 1)])).epoch.toNat = false ∧
    ((lostTally 4).flag (syCmd (desc [(0, 4), (24, 1)])).flag).frozen = true := by decide +kernel

theorem test_lost_tally : ((after (.arrive 0) (lostTally 1)).tile 0).fcode = 0x3A := by decide +kernel

theorem test_arrive_holds :
    ((after (.arrive 0) (queued [entry 5 [(0, 1)]])).tile 0).gate.held = [.arrival 0 1] := by decide +kernel
theorem test_flag_wait_waits :
    ((after (.flagWait 0) (queued [entry 5 [(0, 4), (24, 1)]])).headEntry 0 5).map (·.progress) = some 1 := by
  decide +kernel

/-- A timeout with a status word at either end of the crib, and with none. -/
theorem witness_sync_timeout :
    ∀ kv ∈ [[(0, 2), (9, 1)], [(0, 2), (9, 1), (22, 4)], [(0, 2), (9, 1), (20, 0xF0), (21, 0x3F), (22, 4)]],
      let e := { entry 5 kv with progress := 1 }
      (queued [e]).headEntry 0 5 = some e ∧ (syCmd e.desc).timeout ≠ 0 ∧
        (0x40000 ≤ (syCmd e.desc).status ∨ (syCmd e.desc).status = 0) := by decide +kernel

theorem test_sync_timeout_faults :
    ((after (.syncTimeout 0) (queued [{ entry 5 [(0, 2), (9, 1)] with progress := 1 }])).tile 0).fcode = 0x3C := by
  decide +kernel

/-- A flag that the host owns with an update on its way, from a gang that does not own it and from one that does. -/
def flagged (kind : Nat) : State :=
  { State.reset with
    tally := { TallyNet.reset with
      flags := [(127, { Flag.reset with kind, ownerId := 5, value := 1 })], flagMsgs := [⟨.tile 1, 127, 2, some 5, 0⟩] } }

theorem witness_flag_update :
    takeOrdered FlagMsg.src (fun m => decide (m.f = 127)) [] (flagged 1).tally.flagMsgs =
        some (⟨.tile 1, 127, 2, some 5, 0⟩, []) ∧
      ((flagged 1).flag 127).kind = 1 ∧ ((flagged 0).flag 127).kind = 0 := by decide +kernel

/-- A later update of the same sender waits for an earlier one, to another flag (R23). -/
theorem test_flag_order :
    takeOrdered FlagMsg.src (fun m => decide (m.f = 5)) [] [⟨.tile 1, 4, 1, none, 0⟩, ⟨.tile 1, 5, 1, none, 0⟩] = none := by
  decide +kernel

theorem test_flag_update : ((after (.flagUpdate 127) (flagged 1)).flag 127).value = 3 ∧
    ((after (.flagUpdate 127) (flagged 0)).flag 127).value = 1 := by decide +kernel

/-! ### The commit gate and staging -/

/-- A tile at its gate. -/
def atGate (ph : GatePhase) (held : List HeldItem) (rs : List Receiver) : State :=
  withTile 0 { Tile.reset with core := .atGate, gate := { phase := ph, held, receivers := rs, awaiting := rs } }

/-- A sampled step, one with a receiver, one that holds an arrival and a flag update, and one whose record must wait. -/
theorem witness_gate_release :
    ({ atGate .closed [] [] with tithe := { Tithe.reset with steps := [(0, .begin Tile.reset)] } } : State).sampled 0 = true ∧
      (atGate .closed [] [.tile 1]).sampled 0 = false ∧ ((atGate .closed [] [.tile 1]).tile 0).gate.receivers.Nodup ∧
      ((atGate .closed [.arrival 0 1, .flagAdd 0 1 none] []).tile 0).gate.receivers = [] ∧
      nextPc ((atGate .closed [.arrival 0 1, .flagAdd 0 1 none] []).tile 0) ≠ 0x8000 ∧
      (atGate .closed [] []).tileBlocked 0 4 = false ∧
      ({ traced (.commit 0) 2 16 with
        tiles := [(0, { (atGate .closed [] []).tile 0 with gang := some 5 })] } : State).tileBlocked 0 4 = true := by
  decide +kernel

theorem witness_held_here : heldHere [.arrival 0 1, .flagAdd 0 1 none] := by
  intro i hi f v n h
  subst h
  simp at hi

/-- An acknowledgement from a tile, and from the barn, of two and of one awaited. -/
theorem witness_stage_ack :
    ∀ src ∈ [1, 4352], State.recvName src ∈ [Receiver.tile 1, .barn] ∧
      [State.recvName src].erase (State.recvName src) = [] ∧ [Receiver.tile 1, .barn].erase (State.recvName src) ≠ [] := by
  decide +kernel

/-- A release that a reset of its tile has left, with one and with two acknowledgements awaited. -/
def leftRelease (rs : List Receiver) : State :=
  withTile 0 { Tile.reset with acks := [.tile 1], released := [⟨[.arrival 0 1], rs, 0, some 5, 9⟩] }

theorem witness_left_release :
    ∀ rs ∈ [[Receiver.tile 1], [.tile 1, .barn]], ((leftRelease rs).tile 0).released = [⟨[.arrival 0 1], rs, 0, some 5, 9⟩] ∧
      State.recvName 1 ∈ ((leftRelease rs).tile 0).acks ∧ State.recvName 1 ∈ rs := by decide +kernel

theorem test_left_release :
    (after (.stageAck 0 1) (leftRelease [.tile 1])).tally.msgs = [.arrival (.node 0) 0 0 1] ∧
      ((after (.stageAck 0 1) (leftRelease [.tile 1])).tile 0).released = [] := by decide +kernel

theorem test_gate_release_advances :
    ((after (.gateRelease 0) (atGate .closed [.arrival 0 1] [])).tile 0).epoch = 1 ∧
      (after (.gateRelease 0) (atGate .closed [.arrival 0 1] [])).tally.msgs = [.arrival (.node 0) 0 0 1] := by
  decide +kernel
theorem test_gate_abort_discards :
    ((after (.gateAbort 0) (atGate .closed [.arrival 0 1] [])).tile 0).gate.held = [] ∧
      (after (.gateAbort 0) (atGate .closed [.arrival 0 1] [])).tally.msgs = [] := by decide +kernel

/-- A line of the first step of tile 1 to bin line 0, byte 0, with value `v`. -/
def lineTo (a : Nat) (v : Byte) : StageLine :=
  { src := .tile 1, epoch := 0, q := 2, dest := .bin a, mask := 1, line := ⟨v :: zeros 63, false⟩ }

/-- Lines on their way to a tile and to the barn area; a line that waits for room, with room and without. -/
theorem witness_staging :
    (takeFirst (fun l => decide (l.src = .tile 1))
        ((withTile 0 { Tile.reset with inflight := [lineTo 0 1] }).recv 0).inflight = some (lineTo 0 1, [])) ∧
      ((withTile 0 { Tile.reset with inflight := [lineTo 0 1] }).recv 0).stageWait = [] ∧
      (withTile 0 { Tile.reset with inflight := [lineTo 0 1] }).stageFits 0 (lineTo 0 1) = true ∧
      (takeFirst (fun l => decide (l.src = .tile 1))
        (({ State.reset with ridge := { Ridge.reset with inflight := [lineTo 0 1] } } : State).recv 4352).inflight =
          some (lineTo 0 1, [])) ∧
      (withTile 0 { Tile.reset with staging := List.replicate 1024 (lineTo 64 1), stageWait := [lineTo 0 1] }).stageFits 0
        (lineTo 0 1) = false := by decide +kernel

/-- A sender whose one line waits, with its entry at the head of queue 2. -/
theorem witness_stage_full :
    let s := { queued [] with
      tiles := [(0, { Tile.reset with stageWait := [lineTo 0 1] }), (1, { Tile.reset with queue := [entry 2 [(0, 1)]] })] }
    lineTo 0 1 ∈ (s.recv 0).stageWait ∧ (∀ o ∈ (s.recv 0).stageWait, o.src = .tile 1 → o = lineTo 0 1) ∧
      s.headEntry 1 (lineTo 0 1).q = some (entry 2 [(0, 1)]) := by decide +kernel

theorem witness_staged_lines :
    (lineTo 0 1).shares (lineTo 0 2) = true ∧ (lineTo 0 1).shares (lineTo 64 2) = false ∧
      0 < (lineTo 0 1).line.data.length := by decide +kernel

/-- A receiver with a staged line of the step that a commit or abort message names. -/
def received (abort : Bool) : State :=
  withTile 0 { Tile.reset with staging := [lineTo 64 7, { lineTo 64 9 with epoch := 1 }], commits := [⟨.tile 1, 0, abort⟩] }

theorem witness_stage_commit :
    ∀ b ∈ [false, true],
      takeFirst (fun m => decide (m.src = Sender.tile 1)) ((received b).tile 0).commits = some (⟨.tile 1, 0, b⟩, []) ∧
        (((received b).tile 0).staging.filter fun l => l.ofStep (.tile 1) 0) = [lineTo 64 7] ∧
        (lineTo 64 7).line.data.length = 64 ∧ (lineTo 64 7).mask < 2 ^ 64 ∧
        ∀ l ∈ ((received b).tile 0).staging, l.ofStep (.tile 1) 0 = true → l.dest = .bin 64 := by decide +kernel

/-- A receiver with a staged line of its pillar. -/
def pillarLine : StageLine := { lineTo 0 5 with dest := .pillar 128 }
def receivedPillar : State :=
  withTile 0 { Tile.reset with staging := [pillarLine], commits := [⟨.tile 1, 0, false⟩] }

theorem witness_stage_commit_pillar :
    takeFirst (fun m => decide (m.src = Sender.tile 1)) (receivedPillar.tile 0).commits = some (⟨.tile 1, 0, false⟩, []) ∧
      pillarLine ∈ (receivedPillar.tile 0).staging ∧ pillarLine.ofStep (.tile 1) 0 = true ∧
      receivedPillar.ltileOf 0 = some 0 := by decide +kernel

/-- The line goes through the pillar's queue, and no acknowledgement leaves before it is written (R253). -/
theorem test_stage_commit_pillar :
    ((after (.stageCommit 0 1 Env.none) receivedPillar).pillar 0).queue.map (fun r => (r.dpa, decide (r.op = .partialWrite (5 :: zeros 63) 1 false false))) =
        [(128, true)] ∧
      ((after (.stageCommit 0 1 Env.none) receivedPillar).tile 1).acks = [] := by decide +kernel

theorem test_stage_commit : ((after (.stageCommit 0 1 Env.none) (received false)).tile 0).bin = [(64, 7)] := by
  decide +kernel
theorem test_stage_abort : ((after (.stageAbort 0 1) (received true)).tile 0).bin = [] ∧
    ((after (.stageAbort 0 1) (received true)).tile 0).staging.length = 1 := by decide +kernel

/-! ### A module that has booted -/

/-- The module after a full boot: stage 11, both host links and all ridge links up, node address valid, ranges active. -/
def up : State :=
  [(0x1040, 5, 0, 27), (State.linkReg 0, 2, 0, 2), (State.linkReg 1, 2, 0, 2), (0x48100, 18, 16, 7),
    (ridgeBase 0 + 0x44, 2, 0, 2), (ridgeBase 1 + 0x44, 2, 0, 2), (ridgeBase 2 + 0x44, 2, 0, 2),
    (ridgeBase 3 + 0x44, 2, 0, 2), (ridgeBase 4 + 0x44, 2, 0, 2), (ridgeBase 5 + 0x44, 2, 0, 2)].foldl
      (fun s p => s.setF p.1 p.2.1 p.2.2.1 p.2.2.2)
      { State.reset with st := { Steward.reset with
        perst0 := false, perst1 := false, key := some 1, linked := true, fieldActive := true, barnActive := true, i3c := some 1 } }

/-- Every page's registers can be written through either head. -/
theorem witness_bar (h : Nat) (hh : h < 2) (p : Page) : BarReady up h p :=
  ⟨hh, match h, hh with | 0, _ => by decide +kernel | 1, _ => by decide +kernel,
    match h, hh with | 0, _ => by decide +kernel | 1, _ => by decide +kernel,
    match h, hh with | 0, _ => by decide +kernel | 1, _ => by decide +kernel,
    match h, hh with | 0, _ => by decide +kernel | 1, _ => by decide +kernel, by decide +kernel, .inr (by decide +kernel)⟩

/-- The same holds of a state whose registers, host ports and pins are those of `up`. -/
theorem witness_bar_of (s : State) (hr : s.regs = up.regs) (h0 : s.h0 = up.h0) (h1 : s.h1 = up.h1) (h : Nat) (hh : h < 2)
    (p : Page) (hc : s.pllLost 36 = false := by decide +kernel) : BarReady s h p := by
  obtain ⟨a, b, z, c, d, _, e⟩ := witness_bar h hh p
  refine ⟨a, ?_, ?_, ?_, ?_, hc, ?_⟩
  · rw [← b]; unfold State.headUp State.getF State.reg; rw [hr]
  · rw [← z]; unfold State.inD0 State.host; rw [h0, h1]
  · rw [← c]; unfold State.host; rw [h0, h1]
  · rw [← d]; unfold State.host; rw [h0, h1]
  · refine e.imp id fun g => ?_
    unfold State.getF State.reg at g ⊢
    rw [hr]; exact g

/-! ### Dispatch -/

/-- A doorbell on the ring's edge and one past it; a CQ_HEAD that is not ahead and one that is. -/
theorem witness_doorbells :
    (16 : Nat) ≤ 2 ^ max 4 (up.getF (State.dbReg 63 0x40) 11 8) ∧ ¬ (17 : Nat) ≤ 2 ^ max 4 (up.getF (State.dbReg 63 0x40) 11 8) ∧
      serialGT 32 0 (up.reg (State.dbReg 63 0x68)) = false ∧ serialGT 32 1 (up.reg (State.dbReg 63 0x68)) = true := by
  decide +kernel

theorem test_doorbell_range :
    (after (.doorbellWrite 0 63 16) up).reg (State.dbReg 63 0x60) = 16 ∧
      (after (.doorbellWrite 0 63 17) up).reg (State.dbReg 63 0x60) = 0 := by decide +kernel

/-- Queue 0 with its rings and status line in barn memory. -/
def queueSet : State :=
  [(State.dbReg 0 0x48, 38, 0, 0x2000000000), (State.dbReg 0 0x50, 38, 0, 0x2000001000),
    (State.dbReg 0 0x58, 38, 0, 0x2000002000)].foldl (fun s p => s.setF p.1 p.2.1 p.2.2.1 p.2.2.2) up

theorem witness_queue_enable :
    (InBarn (queueSet.getF (State.dbReg 0 0x48) 38 0) 1024 ∧ InBarn (queueSet.getF (State.dbReg 0 0x50) 38 0) 512 ∧
      InBarn (queueSet.getF (State.dbReg 0 0x58) 38 0) 64 ∧ queueSet.getF (State.dbReg 0 0x40) 0 0 = 0 ∧
      queueSet.headUp 0 = true) ∧
    ¬ InBarn (up.getF (State.dbReg 0 0x48) 38 0) 1024 ∧
    up.reg (State.dbReg 0 0x64) = up.reg (State.dbReg 0 0x68) ∧
    (up.setF (State.dbReg 0 0x64) 31 0 1).reg (State.dbReg 0 0x64) ≠
      (up.setF (State.dbReg 0 0x64) 31 0 1).reg (State.dbReg 0 0x68) := by unfold InBarn; decide +kernel

theorem test_queue_enable :
    (after (.queueEnable 0 0 1) queueSet).getF (State.dbReg 0 0x40) 0 0 = 1 ∧
      (after (.queueEnable 0 0 1) up).getF (State.dbReg 0 0x40) 0 0 = 0 := by decide +kernel

/-- Queue 0 enabled over its rings, with one sheaf announced. -/
def announced : State := (queueSet.setF (State.dbReg 0 0x40) 0 0 1).setF (State.dbReg 0 0x60) 31 0 1

/-- A sheaf of format 2; one that forms gang 5 of the tiles of a map for one step. -/
def badSheaf : List Byte := desc [(0, 2)]
def gangSheaf : List Byte := desc [(0, 1), (1, 5), (2, 1), (17, 0x10), (20, 0x20), (32, 1)]

/-- The head sheaf of queue 0 has been read. -/
def headRead (d : List Byte) : State := announced.setHead 0 ⟨[], [(0x2000000000, ⟨d, false⟩)]⟩

/-- Every queue that could be taken is read: queue 0 alone could. -/
theorem reads_of (d : List Byte) (h0 : (headRead d).head 0 ≠ .reset)
    (hn : ((List.range 64).all fun p => p = 0 || !(headRead d).headOpen p) = true) (p : Nat) (hp : p < 64)
    (ho : (headRead d).headOpen p = true) : (headRead d).head p ≠ .reset := by
  have := List.all_eq_true.mp hn p (List.mem_range.mpr hp)
  cases p with
  | zero => exact h0
  | succ p => simp [ho] at this

theorem witness_heads_read :
    DispatcherFree announced ∧ (announced.head 0).got = [] ∧ announced.headOpen 0 = true ∧ announced.head 0 = .reset :=
  ⟨⟨⟨.inr (by decide +kernel), by decide +kernel, by decide +kernel⟩, by decide +kernel, by decide +kernel⟩,
    by decide +kernel, by decide +kernel,
    by decide +kernel⟩

theorem witness_head_taken :
    DispatcherFree (headRead gangSheaf) ∧ (headRead gangSheaf).nextQueue = some 0 ∧
      ((headRead gangSheaf).head 0).got = [(0x2000000000, ⟨gangSheaf, false⟩)] ∧
      ∀ p, p < 64 → (headRead gangSheaf).headOpen p = true → (headRead gangSheaf).head p ≠ .reset :=
  ⟨⟨⟨.inr (by decide +kernel), by decide +kernel, by decide +kernel⟩, by decide +kernel, by decide +kernel⟩,
    by decide +kernel, by decide +kernel,
    reads_of _ (by decide +kernel) (by decide +kernel)⟩

/-- The dispatcher has sheaf `d` of queue 0 in hand and has read these lines for its checks. -/
def inHand (d : List Byte) (got : List (Nat × Line)) : State :=
  announced.onDisp fun x => { x with taking := some ⟨0, 0, d, ⟨[], got⟩⟩ }

/-- The tile map of logical tile 0. -/
def mapOfTile0 : List (Nat × Line) :=
  (State.lineRun 0x2000001000 8).map fun a => (a, ⟨if a = 0x2000001000 then 1 :: zeros 63 else zeros 64, false⟩)

/-- How the checks of a sheaf stand: 0 lines are needed, 1 rejected, 2 passed. -/
def checkKind (s : State) (d : List Byte) (got : List (Nat × Line)) : Nat :=
  match s.checkSheaf (sheafCmd d) got with
  | .need _ => 0
  | .reject _ _ => 1
  | .ok _ => 2

theorem witness_sheaf_in_hand :
    DispatcherOpen (inHand gangSheaf []) ∧ (inHand gangSheaf []).disp.resets = [] ∧
      (inHand gangSheaf []).disp.taking = some ⟨0, 0, gangSheaf, ⟨[], []⟩⟩ ∧
      checkKind (inHand gangSheaf []) gangSheaf [] = 0 ∧ checkKind (inHand badSheaf []) badSheaf [] = 1 ∧
      checkKind (inHand gangSheaf mapOfTile0) gangSheaf mapOfTile0 = 2 ∧
      (sheafCmd gangSheaf).form = true ∧ (sheafCmd gangSheaf).steps ≠ 0 ∧
      (inHand gangSheaf []).startBlocked (sheafCmd gangSheaf) = false :=
  ⟨⟨.inr (by decide +kernel), by decide +kernel, by decide +kernel⟩, by decide +kernel, by decide +kernel,
    by decide +kernel, by decide +kernel, by decide +kernel, by decide +kernel, by decide +kernel, by decide +kernel⟩

/-- A sheaf that fails its format check is rejected; one whose checks pass starts its gang. -/
theorem test_sheaf_in_hand :
    (after (.sheafTake 0 Env.none) (inHand badSheaf [])).getF 0x5054 31 0 = 1 ∧
      ((after (.sheafTake 0 Env.none) (inHand gangSheaf mapOfTile0)).gang 5).tiles = [0] ∧
      ((after (.sheafTake 0 Env.none) (inHand gangSheaf mapOfTile0)).tile 0).core = .running := by decide +kernel

/-- Gang 5 of tile 0 at work on a sheaf of queue 63: running, halted, faulted, and with no steps. -/
def atWork (core : CoreState) (faulted : Bool) (steps : Nat) : State :=
  { up with
    tiles := [(0, { Tile.reset with core, gang := some 5 })]
    gangs := [(5, { Gang.reset with
      live := true, faulted, tiles := [0], sheaf := some ⟨63, 0, 0, steps, true, false, [], 0, 0, 0, 0, false⟩ })] }

theorem witness_sheaf_complete :
    ((atWork .running false 1).gang 5).sheaf ≠ none ∧ (((atWork .running false 1).gang 5).sheaf.map (·.q)) = some 63 ∧
      (atWork .running false 1).mayFinish 5 = true ∧ ((atWork .running false 1).gang 5).faulted = false ∧
      (∃ t ∈ (atWork .running false 1).gangTiles 5, ((atWork .running false 1).tile t).core ≠ .halted) ∧
      (∀ t ∈ (atWork .halted false 1).gangTiles 5, ((atWork .halted false 1).tile t).core = .halted) ∧
      (atWork .halted false 1).snapDue 5 = false ∧ ((atWork .running true 1).gang 5).faulted = true ∧
      (atWork .running true 1).mayFinish 5 = true ∧
      (((atWork .running false 0).gang 5).sheaf.map (·.steps)) = some 0 := by decide +kernel

/-- Gang 5 with all tiles halted, a snapshot of it wanted and so far taken. -/
def snapWanted (p : SnapPhase) : State :=
  (atWork .halted false 1).onGang 5 fun G => { G with checkpoint := true, granary := 0x2000000000, snapWanted := true, snap := p }

theorem witness_snapshot_due :
    (snapWanted .none).mayFinish 5 = true ∧ (snapWanted .none).snapDue 5 = true ∧
      ((snapWanted .none).gang 5).snap = .none ∧ ((snapWanted .taken).gang 5).snap = .taken ∧
      (snapWanted .taken).snapDue 5 = true ∧
      (∀ t ∈ (snapWanted .none).gangTiles 5, ((snapWanted .none).tile t).core = .halted) := by decide +kernel

/-- The trace ring is full, and gang 5 is traced in full. -/
def traceStuck : State :=
  (((atWork .halted false 1).setF 0x6048 0 0 1).setF 0x604C 31 0 16).onGang 5 fun G => { G with tmode := 2 }

theorem witness_sheaf_waits :
    traceStuck.mayFinish 5 = false ∧ traceStuck.snapDue 5 = false ∧
      QueueInBarn ((atWork .halted false 1).setF (State.dbReg 63 0x50) 38 0 0x2000001000) 63 := by
  unfold QueueInBarn InBarn; decide +kernel

/-- The gang has been reset, and its completion waits for room, or no longer. -/
def lastWord : Completion := ⟨0, 2, 0x5A, 5, false, 0, 0, 0, 0, 0⟩
def ended (s : State) : State := s.onGang 5 fun G => { G with ending := some lastWord }

/-- A traced sheaf as the one in hand, with the ring full and with room. -/
def tracedSheaf : List Byte := desc [(0, 1), (1, 5), (2, 5), (17, 0x10), (20, 0x20), (32, 1)]
def tracedInHand (wr : Nat) : State :=
  (((inHand tracedSheaf mapOfTile0).setF 0x5040 1 0 1).setF 0x6048 0 0 1).setF 0x604C 31 0 wr

theorem witness_ending :
    ((ended traceStuck).gang 5).ending = some lastWord ∧
      (∀ f, ((ended traceStuck).gang 5).sheaf = some f →
        (ended traceStuck).traceBlocked ((ended traceStuck).gang 5).tmode f.trace 7 = true) ∧
      (∀ f, ((ended (atWork .halted false 1)).gang 5).sheaf = some f →
        (ended (atWork .halted false 1)).traceBlocked ((ended (atWork .halted false 1)).gang 5).tmode f.trace 7 = false) ∧
      (tracedInHand 16).startBlocked (sheafCmd tracedSheaf) = true ∧ checkKind (tracedInHand 16) tracedSheaf mapOfTile0 = 2 ∧
      (tracedInHand 15).startBlocked (sheafCmd tracedSheaf) = false := by
  refine ⟨by decide +kernel, ?_, ?_, by decide +kernel⟩ <;> intro f hf <;> cases hf <;> decide +kernel

/-- The sheaf waits in hand while the ring is full; a gang that has been reset is gone once its completion has been posted. -/
theorem test_ending :
    (after (.sheafTake 0 Env.none) (tracedInHand 16)).disp.taking.isSome = true ∧
      (after (.sheafTake 0 Env.none) (tracedInHand 15)).disp.taking = none ∧
      (after (.sheafComplete 5 Env.none) (ended traceStuck)).gang 5 = (ended traceStuck).gang 5 ∧
      (after (.sheafComplete 5 Env.none) (ended (atWork .halted false 1))).gang 5 = Gang.reset := by decide +kernel

/-- A tile that serves a check as its shadow, and as its referee. -/
theorem witness_serving (r : Bool) :
    let c : TitheStep := { TitheStep.begin Tile.reset with
      shadow := if r then none else some 528, referee := if r then some 528 else none }
    let s := { up with tithe := { Tithe.reset with steps := [(0, c)] } }
    ¬ ∀ p ∈ s.tithe.steps, p.2.shadow ≠ some 528 ∧ p.2.referee ≠ some 528 := by
  cases r <;> decide +kernel

theorem witness_resets :
    ((atWork .running false 1).gang 5).live = true ∧ ((atWork .running false 1).gang 0).live = false ∧
      (0x105 : BitVec 32).getLsbD 8 = true ∧ (0x105 : BitVec 32).toNat % 256 = 5 ∧
      ((atWork .running false 1).tile 0).gang ≠ none ∧ ((atWork .running false 1).tile 1).gang = none ∧
      (atWork .running false 1).tithe.steps = [] ∧ (atWork .running false 1).disp.taking = none ∧
      ((inHand gangSheaf []).disp.taking.map fun k => (sheafCmd k.bytes).gang) = some 5 := by decide +kernel

theorem witness_resets_bar (h : Nat) (hh : h < 2) (p : Page) : BarReady (atWork .running false 1) h p :=
  witness_bar_of (atWork .running false 1) (by dsimp only [atWork]) (by dsimp only [atWork]) (by dsimp only [atWork]) h hh p

theorem test_tile_reset_busy :
    ((after (.tileReset 0 0 1) (atWork .running false 1)).tile 0).core = .running := by decide +kernel

/-- Each ring inside barn memory, and outside it. -/
theorem witness_rings :
    (∀ row ∈ ringRows, up.getF row.2.1 0 0 = 0 ∧ ¬ InBarn (up.getF row.2.2.1 38 0) (row.2.2.2.1 * 16) ∧
      InBarn ((up.setF row.2.2.1 38 0 0x2000000000).getF row.2.2.1 38 0) (row.2.2.2.1 * 16)) ∧
    up.getF 0x6048 0 0 = 0 ∧ (up.setF 0x6048 0 0 1).getF 0x6048 0 0 ≠ 0 := by unfold InBarn ringRows; decide +kernel

theorem test_flog_enable :
    (after (.flogEnable 0 1) (up.setF 0x5048 38 0 0x2000000000)).getF 0x5050 0 0 = 1 ∧
      (after (.flogEnable 0 1) up).getF 0x5050 0 0 = 0 := by decide +kernel

/-- One trace record of `mode`, with or without a fault of tile 0 that waits for it; the ring enabled in barn memory, with
WR at `n`. -/
def tracing (en mode n : Nat) (fault : Option (Nat × FaultInfo)) : State :=
  { (((up.setF 0x6040 38 0 0x2000000000).setF 0x6048 0 0 en).setF 0x604C 31 0 n) with
      traceQ := [⟨mode, zeros 32, fault⟩]
      tiles := [(0, { Tile.reset with gang := some 5 })], gangs := [(5, { Gang.reset with live := true, tiles := [0] })] }

theorem witness_trace_ring :
    (tracing 1 3 15 none).getF 0x6060 0 0 = 0 ∧ (tracing 1 3 15 none).getF 0x6048 0 0 = 1 ∧
      (tracing 1 3 15 none).ringFull = false ∧ InBarn ((tracing 1 3 15 none).getF 0x6040 38 0) 512 ∧
      (tracing 1 1 16 none).ringFull = true ∧ (∀ e ∈ (tracing 1 1 16 none).traceQ, e.mode = 1 ∨ e.mode = 2) ∧
      (tracing 1 3 16 none).ringFull = true ∧ (tracing 0 1 0 none).getF 0x6048 0 0 = 0 := by
  unfold InBarn; decide +kernel

theorem witness_trace_fault :
    let s := tracing 1 2 15 (some (0, .core 1 0 0 0))
    s.ringFull = false ∧ (s.tile 0).gang = some 5 ∧ (s.gang 5).live = true := by decide +kernel

theorem test_trace_record_waits :
    (after .traceRecord (tracing 1 3 15 none)).reg 0x604C = 16 ∧
      (after .traceRecord (tracing 1 1 16 none)).traceQ.length = 1 ∧
      (after .traceRecord (tracing 1 3 16 none)).reg 0x6058 = 1 := by decide +kernel

/-- A fault whose record waited for room is reported with it. -/
theorem test_trace_reports_fault :
    ((after .traceRecord (tracing 1 2 15 (some (0, .core 1 0 0 0)))).gang 5).faulted = true := by decide +kernel

/-! ### Memory -/

theorem witness_mode_busy :
    ∃ g ∈ (atWork .running false 1).gangs, g.2.live = true ∧ ∃ t ∈ (atWork .running false 1).gangTiles g.1, paddockOf t = 0 := by
  decide +kernel

/-- A paddock whose mode change is under way, with no admitted access and with one. -/
def changing (rs : List MemReq) : State :=
  { (up.setF ((Page.paddock 15).base + 0x40) 9 9 1) with pillars := [(4351, { Pillar.reset with admitted := rs })] }

/-- The clocks of the module stand still, or heat has stopped it. -/
def stopped (k : Nat) : State := { up with st := { up.st with unlocked := [(k, true)] } }
def tripped : State := { up with st := { up.st with thermtrip := true } }

theorem witness_kept (t : Nat) : PillarKept up t ∧ ¬PillarKept (stopped (16 + paddockOf t)) t ∧ ¬PillarKept tripped t ∧
    ¬PillarKept State.reset t :=
  ⟨⟨by decide +kernel, by decide +kernel, rfl⟩,
    fun h => by have := h.clock; simp [stopped, State.pllLost, SMap.look] at this,
    fun h => absurd h.cool (by decide), fun h => absurd h.stage (by decide +kernel)⟩

theorem witness_stopped : (stopped 16).pllLost (16 + paddockOf 0) = true ∧ (stopped 0).pllLost (paddockOf 0) = true ∧
    up.pllLost (16 + paddockOf 0) = false := by decide +kernel

theorem test_clock_stands :
    (after (.slotAdmit 4351) { stopped 31 with pillars := [(4351, { Pillar.reset with queue := [⟨.host 0 0, .read, 0, false⟩] })] }).pillars =
      [(4351, { Pillar.reset with queue := [⟨.host 0 0, .read, 0, false⟩] })] := by decide +kernel

theorem witness_mode_change :
    (∀ g ∈ up.gangs, g.2.live = true → ∀ t ∈ up.gangTiles g.1, paddockOf t ≠ 15) ∧
      up.getF ((Page.paddock 15).base + 0x40) 8 8 ≠ 1 ∧
      (changing []).getF ((Page.paddock 15).base + 0x40) 9 9 = 1 ∧
      (∀ x ∈ (changing []).pillars, paddockOf x.1 = 15 → x.2.admitted = []) ∧
      (∃ x ∈ (changing [⟨.host 0 0, .read, 0, false⟩]).pillars, paddockOf x.1 = 15 ∧ x.2.admitted ≠ []) := by
  decide +kernel

theorem test_mode_select :
    (after (.modeSelect 0 0 1) (atWork .running false 1)).getF ((Page.paddock 0).base + 0x40) 0 0 = 0 ∧
      (after (.modeSelect 0 15 1) up).getF ((Page.paddock 15).base + 0x40) 9 9 = 1 := by decide +kernel

/-- The pillar of tile 0 with these requests, admitted or waiting. -/
def pillarOf (queue admitted : List MemReq) : State :=
  { up with pillars := [(0, { Pillar.reset with queue, admitted })] }

/-- A host read and a whole host write of codeword 1. -/
def hostRead : MemReq := ⟨.host 0 3, .read, 64, false⟩
def hostWrite : MemReq := ⟨.host 0 4, .write (List.replicate 64 7) false false, 64, false⟩
/-- A read of another module. -/
def ridgeRead : MemReq := ⟨.ridge 0 0, .read, 0, false⟩

/-- Host panic held by head 0, its ingress buffer empty by now. -/
def panicking : State :=
  { pillarOf [ridgeRead, hostRead] [] with
    regs := (((up.setF (State.modeReg 0) 8 8 1).setF ((Page.host 0).base + 0x4C) 10 10 1)).regs }

theorem witness_slots :
    (changing []).getF (State.modeReg 4351) 9 9 = 1 ∧ (pillarOf [hostRead, ridgeRead] []).getF (State.modeReg 0) 9 9 = 0 ∧
      ((pillarOf [hostRead, ridgeRead] []).pillar 0).queue = [hostRead, ridgeRead] ∧
      (pillarOf [] []).hostPanic = false ∧ (pillarOf [] []).mesh = [] ∧ (pillarOf [] []).h1.ingress = [] ∧
      (∃ x ∈ (panicking.pillar 0).queue, x.isHost = true) ∧ panicking.hostPanic = true ∧
      takeFirst MemReq.isHost (panicking.pillar 0).queue = some (hostRead, [ridgeRead]) ∧
      panicking.getF (State.modeReg 0) 8 8 = 1 ∧ panicking.h0.ingress = [] := by decide +kernel

theorem test_slot_admit : ((after (.slotAdmit 0) (pillarOf [hostRead, ridgeRead] [])).pillar 0).admitted = [hostRead] := by
  decide +kernel

theorem witness_access_done :
    CleanAt (pillarOf [] [hostRead]) 0 (hostRead.dpa % 2 ^ 25) ∧ (pillarOf [] [hostWrite]).pillarDead 0 = false ∧
      (List.replicate 64 (7 : Byte)).length = 64 := by unfold CleanAt; decide +kernel

/-- A staged line of tile 1 that tile 0 applies as the last one of its commit; a host read behind which an escalated visit
waits, and one that it goes before. -/
def stagedLast : State :=
  { pillarOf [] [⟨.staged 0 ⟨.tile 1, 0, false⟩, .write (List.replicate 64 7) false false, 64, false⟩] with
    tiles := [(0, { Tile.reset with applying := [(⟨.tile 1, 0, false⟩, 1)] })] }
def escalated (n : Nat) : State :=
  { pillarOf [] [hostRead] with pillars := [(0, { Pillar.reset with admitted := [hostRead], gleanAdmitted := some n })] }

theorem witness_access_staged :
    (stagedLast.pillar 0).admitted =
        [⟨.staged 0 ⟨.tile 1, 0, false⟩, .write (List.replicate 64 7) false false, 64, false⟩] ∧
      (stagedLast.tile 0).applying = [(⟨.tile 1, 0, false⟩, 1)] ∧ stagedLast.gleanTurn 0 = false ∧
      stagedLast.pillarDead 0 = false ∧ (escalated 1).gleanTurn 0 = false ∧ (escalated 0).gleanTurn 0 = true := by
  decide +kernel

theorem test_access_staged :
    ((after (.pillarAccessDone 0 Env.none) stagedLast).tile 1).acks = [State.recvName 0] ∧
      ((after (.pillarAccessDone 0 Env.none) stagedLast).tile 0).applying = [] := by decide +kernel

theorem test_access_done :
    (after (.pillarAccessDone 0 Env.none) (pillarOf [] [hostRead])).h0.responses = [(3, .memData ⟨zeros 64, false⟩)] ∧
      (after (.pillarAccessDone 0 Env.none) (pillarOf [] [hostWrite])).h0.responses = [(4, .cmp)] := by decide +kernel

/-- A codeword stored blighted in field memory and one in barn memory. -/
def blighted : State := (up.storeCw false 1 ⟨zeros 64, true⟩).storeCw true 1 ⟨zeros 64, true⟩

theorem witness_blighted_codewords :
    ∀ b ∈ [false, true], (classify (blighted.storedCw b 1).1 (blighted.storedCw b 1).2).cls = .blighted ∧
      (blighted.channel (State.channelOf 64)).dead = false ∧ (blighted.channel (State.channelOf 64)).writes = [] ∧
      blighted.pillarDead 0 = false := by decide +kernel

/-- Field codeword 0 with five symbols in error. -/
def uncorrectable : State :=
  { up with fieldData := [(0, 1), (1, 2), (2, 3), (3, 4), (4, 5)], barnData := [(0, 1), (1, 2), (2, 3), (3, 4), (4, 5)] }

theorem witness_uncorrectable :
    ∀ b ∈ [false, true], (classify (uncorrectable.storedCw b 0).1 (uncorrectable.storedCw b 0).2).cls = .uncorrectable ∧
      uncorrectable.getF 0x3068 0 0 = 0 := by decide +kernel

/-- A codeword of ones and one symbol in error of its data and of its check bytes. -/
theorem test_codeword_corrected :
    classify (setAt (List.replicate 64 1) 63 0x80) (storedCheck (List.replicate 64 1) false) =
        ⟨List.replicate 64 1, .corrected⟩ ∧
      (classify (List.replicate 64 1) (setAt (storedCheck (List.replicate 64 1) false) 7 0)).data = List.replicate 64 1 := by
  decide +kernel

/-- A packet of OP `op` from node 3 for this module: ARGS bytes by offset, LEN and data. -/
def packet (op cls : Nat) (args : List (Nat × Nat)) (data : List Byte) : Packet :=
  { op, cls, vcd := 0, zdir := 0, zset := 0, dst := 0, src := 3, len := data.length, blight := 0,
    args := (List.range 8).map fun i => BitVec.ofNat 8 ((args.find? fun p => p.1 = i + 8).elim 0 (·.2)), data }

theorem witness_packet_fits : PacketFits (packet 0x1C 2 [(8, 127)] (zeros 8)) := by
  constructor <;> decide +kernel

theorem test_packet_bytes :
    Packet.parse (packet 0x1C 2 [(8, 127)] (zeros 8)).bytes = packet 0x1C 2 [(8, 127)] (zeros 8) ∧
      (packet 0x1C 2 [(8, 127)] (zeros 8)).bytes.take 9 = [0x1C, 2, 0, 0, 3, 0, 8, 0, 127] := by decide +kernel

/-- A bank that is idle, one that an access holds and that owes seven or eight refreshes. -/
def owing (n : Nat) : State :=
  { up with pillars := [(0, { Pillar.reset with admitted := [hostRead], owed := [(0, n)] })] }

theorem witness_refresh :
    (pillarOf [] []).bankHeld 0 0 = false ∧ (owing 7).bankHeld 0 0 = true ∧ (owing 7).owed 0 0 = 7 ∧
      (owing 8).bankHeld 0 0 = true ∧ (owing 8).owed 0 0 = 8 ∧ (pillarOf [] []).owed 0 0 ≠ 8 := by decide +kernel

theorem test_refresh :
    (after (.refreshDue 0 0) (owing 7)).owed 0 0 = 8 ∧
      (after (.forcedRefresh 0 0) (owing 8)).reg ((Page.paddock 0).base + 0x50) = 1 := by decide +kernel

theorem witness_glean :
    (up.setF ((Page.paddock 0).base + 0x58) 0 0 0).getF ((Page.paddock (paddockOf 0)).base + 0x58) 0 0 = 0 ∧
      (up.setF ((Page.paddock 0).base + 0x58) 0 0 1).getF ((Page.paddock (paddockOf 0)).base + 0x58) 0 0 = 1 ∧
      up.getF ((Page.paddock (paddockOf 0)).base + 0xC) 1 1 = 0 ∧ (up.pillar 0).gleanAdmitted = none ∧
      up.bankAdmitted 0 ((up.pillar 0).gleanRow % 8) = false ∧ (up.pillar 0).gleanRow % 8 ∉ up.banksNeeded 0 ∧
      ((escalated 0).pillar 0).gleanAdmitted = some 0 ∧ ((escalated 2).pillar 0).gleanAdmitted = some (1 + 1) ∧
      ∀ k, k < 16 → CleanAt up 0 (1024 * (up.pillar 0).gleanRow + 64 * k) := by unfold CleanAt; decide +kernel

theorem test_beat_wrap : (after (.beatCounterWrap 0) up).getF ((Page.tile 0).base + 0xA4) 0 0 = 1 := by decide +kernel

/-! ### Barn channels -/

/-- A host request of tag `tag` on the codeword at barn offset `o`. -/
def barnReq (tag o : Nat) (op : MemOp) : MemReq := ⟨.host 1 tag, op, 0x2000000000 + o, false⟩
/-- A whole write waiting, its line of ones. -/
def barnWrite (o : Nat) (merged : Bool) : WqEntry :=
  { dpa := 0x2000000000 + o, line := ⟨List.replicate 64 1, false⟩, mask := if merged then 2 ^ 64 - 1 else 1, poison := false, merged,
    seq := 0, passed := 0 }
/-- Channel 0 as `ch`. -/
def channelAs (ch : Channel) : State := { up with channels := [(0, ch)] }

/-- The controller of every channel serves `up`, and none after a trip, without its clock or before stage 7. -/
theorem witness_barn_serves : (∀ c, BarnServes up c) ∧ ¬BarnServes tripped 0 ∧ ¬BarnServes (stopped 32) 0 ∧
    ¬BarnServes (up.setF 0x1040 3 0 6) 0 :=
  ⟨fun _ => ⟨by decide +kernel, rfl, rfl⟩, fun h => absurd h.cool (by decide), fun h => absurd h.clock (by decide +kernel),
    fun h => absurd h.stage (by decide +kernel)⟩

/-- Channel 0 with this request in its third lane, which has the turn, as the only one that holds anything. -/
def laned (r : MemReq) : State := channelAs { Channel.reset with lane2 := [r] }

theorem laned_lane (r : MemReq) : (laned r).lane 0 0 = [] ∧ (laned r).lane 0 1 = [] ∧ (laned r).lane 0 2 = [r] := ⟨rfl, rfl, rfl⟩

theorem lane_turn (r : MemReq) (hf : HeadFits (laned r) 0 2) : LaneTurn (laned r) 0 2 where
  fits := hf
  panicsFirst := fun d hd ⟨q, hq, hp⟩ _ => by
    obtain ⟨l0, l1, _⟩ := laned_lane r
    obtain rfl | rfl | rfl : d = 0 ∨ d = 1 ∨ d = 2 := by omega
    · rw [l0] at hq; exact absurd hq List.not_mem_nil
    · rw [l1] at hq; exact absurd hq List.not_mem_nil
    · exact ⟨q, hq, hp⟩
  rotation := by
    obtain ⟨l0, l1, _⟩ := laned_lane r
    have h0 : ((laned r).channel 0).lastLane = 2 := rfl
    refine ⟨2, by decide, by rw [h0], fun j hj ⟨q, rest, hq, _⟩ => ?_⟩
    rw [h0] at hq
    obtain rfl | rfl : j = 0 ∨ j = 1 := by omega
    · rw [show (2 + 1 + 0) % 3 = 0 from rfl, l0] at hq; exact absurd hq (List.cons_ne_nil _ _).symm
    · rw [show (2 + 1 + 1) % 3 = 1 from rfl, l1] at hq; exact absurd hq (List.cons_ne_nil _ _).symm

/-- A read, a whole write and an injected mark have the turn. -/
theorem witness_lane_turn :
    (∀ op ∈ [MemOp.read, .write (zeros 64) true false], LaneTurn (laned (barnReq 1 0 op)) 0 2) ∧
      LaneTurn (laned ⟨.mail 0, .mark, 0x2000000000, false⟩) 0 2 := by
  refine ⟨fun op h => lane_turn _ ?_, lane_turn _ ⟨_, [], rfl, .inl (by decide)⟩⟩
  simp only [List.mem_cons, List.not_mem_nil, or_false] at h
  rcases h with rfl | rfl
  · exact ⟨_, [], rfl, show _ < 8 by decide +kernel⟩
  · exact ⟨_, [], rfl, .inl (by decide)⟩

/-- Two lanes that hold a request take turns; an aged one goes first. -/
theorem test_lane_turns :
    ((after (.barnRequestAccept 0 Env.none) (channelAs { Channel.reset with
        lastLane := 0, lane0 := [barnReq 1 0 .read], lane2 := [barnReq 2 64 .read] })).channel 0).lane2 = [] ∧
      ((after (.barnRequestAccept 0 Env.none) (channelAs { Channel.reset with
        lastLane := 0, lane0 := [{ barnReq 1 0 .read with aged := true }], lane2 := [barnReq 2 64 .read] })).channel 0).lane0 =
        [] := by decide +kernel

theorem witness_barn_accept :
    (∀ op ∈ [MemOp.read, .write (zeros 64) true false], (channelAs { Channel.reset with lane0 := [barnReq 1 0 op] }).accepts 0 = true) ∧
      (channelAs { Channel.reset with lane2 := [barnReq 1 0 .read] }).lane 0 2 = [barnReq 1 0 .read] ∧
      (∀ j, j < 3 → j ≠ 2 → (channelAs { Channel.reset with lane2 := [barnReq 1 0 .read] }).lane 0 j = []) ∧
      ((channelAs Channel.reset).bankReads 0 ((channelAs Channel.reset).bankOf 0)).length < 8 := by decide +kernel

theorem test_barn_accept :
    ((after (.barnRequestAccept 0 Env.none) (channelAs { Channel.reset with
        lane0 := [barnReq 1 0 .read], writes := [barnWrite 0 true], accepted := 1 })).channel 0).reads =
      [⟨barnReq 1 0 .read, some (barnWrite 0 true), none, 1, 0⟩] := by decide +kernel

/-- Channel 0 with one read, that met no write or this one. -/
def barnReading (w : Option WqEntry) : State :=
  channelAs { Channel.reset with reads := [⟨barnReq 1 0 .read, w, none, 0, 15⟩] }

/-- What bank `b` of channel 0 does next: 0 nothing, 1 a read, 2 a merge read, 3 a write. -/
def nextKind (s : State) (b : Nat) : Nat :=
  match s.bankNext 0 b with
  | none => 0
  | some (.read _) => 1
  | some (.merge _) => 2
  | some (.write _) => 3

theorem witness_barn_read :
    ∀ w ∈ [none, some (barnWrite 0 true)],
      (barnReading w).pickBank 0 = some ((barnReading w).bankOf 0) ∧ (barnReading w).bankOf 0 < 32 ∧
        nextKind (barnReading w) ((barnReading w).bankOf 0) = 1 ∧ CleanBarn (barnReading w) (barnReq 1 0 .read).dpa ∧
        (barnReading w).pickBank 0 ≠ some 31 := by unfold CleanBarn; decide +kernel

/-- A bank with a panic read goes before one that the rotation reaches first; with no work no bank is picked. -/
theorem witness_bank_turns :
    (∃ d, (barnReading none).pickBank 0 = some d) ∧ BankReady (barnReading none) 0 ((barnReading none).bankOf 0) ∧
      (channelAs Channel.reset).pickBank 0 = none :=
  ⟨⟨(barnReading none).bankOf 0, by decide +kernel⟩,
    ⟨.read ⟨barnReq 1 0 .read, none, none, 0, 15⟩, rfl, by decide +kernel⟩, by decide +kernel⟩

theorem test_bank_turns :
    let s := channelAs { Channel.reset with
      lastBank := 31, reads := [⟨barnReq 1 0 .read, none, none, 0, 0⟩, ⟨{ barnReq 2 0x20000 .read with aged := true }, none, none, 1, 0⟩] }
    s.bankOf 0 < s.bankOf 0x20000 ∧ s.pickBank 0 = some (s.bankOf 0x20000) := by decide +kernel

theorem witness_barn_next :
    (barnReading none).bankNext 0 ((barnReading none).bankOf 0) = some (.read ⟨barnReq 1 0 .read, none, none, 0, 15⟩) := by
  rfl

/-- A read passed 16 times, which goes before a panic read of its bank; one passed less often, which does not. -/
def panicReads (passed : Nat) : State :=
  channelAs { Channel.reset with
    reads := [⟨barnReq 1 0 .read, none, none, 0, passed⟩, ⟨{ barnReq 2 0 .read with aged := true }, none, none, 1, 0⟩] }

theorem test_panic_limit :
    ((after (.barnReadDone 0 ((panicReads 16).bankOf 0) Env.none) (panicReads 16)).channel 0).reads.map (·.seq) = [1] ∧
      ((after (.barnReadDone 0 ((panicReads 15).bankOf 0) Env.none) (panicReads 15)).channel 0).reads.map (·.passed) =
        [16] := by decide +kernel

/-- Channel 0 with one write waiting, merged or to be merged, in write drain or not. -/
def barnWriting (merged draining : Bool) (rs : List BarnRead) : State :=
  channelAs { Channel.reset with writes := [barnWrite 0 merged], reads := rs, draining }

theorem witness_merge_read :
    ((barnWriting false true []).channel 0).writes[0]? = some (barnWrite 0 false) ∧ (barnWrite 0 false).merged = false ∧
      State.channelOf ((barnWrite 0 false).dpa - 0x2000000000) = 0 ∧
      (barnWriting false true []).pickBank 0 = some ((barnWriting false true []).bankOf 0) ∧
      nextKind (barnWriting false true []) ((barnWriting false true []).bankOf 0) = 2 ∧
      (classify ((barnWriting false true []).storedCw true 0).1 ((barnWriting false true []).storedCw true 0).2).cls =
        .clean := by decide +kernel

theorem witness_merge_next :
    (barnWriting false true []).bankNext 0 ((barnWriting false true []).bankOf 0) = some (.merge (barnWrite 0 false)) := by
  rfl

/-- In drain with no read; out of drain with a read that is ready. -/
theorem witness_write_drain :
    InDrain (barnWriting true true []) 0 ∧
      ((barnWriting true true []).channel 0).writes.find? ((barnWriting true true []).mayDrain 0) = some (barnWrite 0 true) ∧
      (barnWrite 0 true).line.data.length = 64 ∧
      nextKind (barnWriting true true []) ((barnWriting true true []).bankOf 0) = 3 ∧
      (barnWriting true true []).pickBank 0 = some ((barnWriting true true []).bankOf 0) ∧
      ¬ InDrain (barnWriting true false [⟨barnReq 1 64 .read, none, none, 0, 0⟩]) 0 := by
  unfold InDrain; decide +kernel

theorem test_merge_read :
    ((after (.barnMergeReadDone 0 0 Env.none) (barnWriting false true [])).channel 0).writes.map (·.line.data.take 2) =
      [[1, 0]] := by decide +kernel

/-- In drain the oldest entry is written; out of drain with a read ready it stays. -/
theorem test_write_drain :
    ((after (.barnWriteDrain 0 Env.none) (barnWriting true true [])).channel 0).writes = [] ∧
      (after (.barnWriteDrain 0 Env.none) (barnWriting true true [])).barnData.length = 64 ∧
      ((after (.barnWriteDrain 0 Env.none) (barnWriting true false [⟨barnReq 1 64 .read, none, none, 0, 0⟩])).channel
        0).writes.length = 1 := by decide +kernel

/-- A locked page, an illegal mask and a legal one. -/
theorem witness_bank_hash :
    (up.setF ((Page.barn 63).base + 0xC) 2 2 1).getF ((Page.barn 63).base + 0xC) 2 2 = 1 ∧
      up.getF ((Page.barn 63).base + 0xC) 2 2 = 0 ∧ bits (0x1000 : BitVec 32).toNat 15 11 ≠ 2 ^ 0 ∧
      bits (0x30800 : BitVec 32).toNat 15 11 = 2 ^ 0 ∧ Memory.wf up.barnData = true ∧
      ∀ k, k < 5 → bits (up.reg ((Page.barn 63).base + 0x44 + 4 * k)) 15 11 = 2 ^ k := by decide +kernel

theorem test_bank_hash :
    (after (.bankhashWrite 0 63 0 0x30800) up).reg ((Page.barn 63).base + 0x44) = 0x30800 ∧
      (after (.bankhashWrite 0 63 0 0x1000) up).reg ((Page.barn 63).base + 0x44) ≠ 0x1000 := by decide +kernel

/-- The bank of barn offset 0. -/
def bank0 : Nat := up.bankOf 0

theorem witness_barn_refresh :
    (let s := channelAs { Channel.reset with reads := [⟨barnReq 1 0 .read, none, none, 0, 0⟩], owed := [(bank0, 7)] }
     s.bankQueued 0 (s.refreshKey 0 bank0) = true ∧ SMap.look 0 (s.channel 0).owed (s.refreshKey 0 bank0) = 7 ∧
      (s.channel 0).allBank = decide (s.getF ((Page.barn 0).base + 0x40) 2 2 = 1)) ∧
    (channelAs Channel.reset).bankQueued 0 0 = false ∧ ((channelAs Channel.reset).channel 0).selfRefresh = false ∧
    (let s := channelAs { Channel.reset with reads := [⟨barnReq 1 0 .read, none, none, 0, 0⟩], owed := [(bank0, 8)] }
     SMap.look 0 (s.channel 0).owed (s.refreshKey 0 bank0) = 8 ∧ s.bankQueued 0 (s.refreshKey 0 bank0) = true) := by
  decide +kernel

theorem witness_barn_upkeep :
    (channelAs Channel.reset).channelIdle 0 = true ∧
    (up.setF ((Page.barn 63).base + 0x58) 15 0 1).reg ((Page.barn 63).base + 0x58) ≠ 0 ∧
    (let s := channelAs { Channel.reset with selfRefresh := true, lane0 := [barnReq 1 0 .read] }
     (s.channel 0).selfRefresh = true ∧ s.channelIdle 0 = false) ∧
    (let s := channelAs { Channel.reset with selfRefresh := true }
     s.channelIdle 0 = true ∧ (s.channel 0).training = false) ∧
    (up.setF ((Page.barn 0).base + 0x40) 3 3 1).getF ((Page.barn 0).base + 0x40) 3 3 = 1 ∧
    (classify (up.storedCw true (State.scrubOff 0 (up.channel 0).scrub / 64)).1
      (up.storedCw true (State.scrubOff 0 (up.channel 0).scrub / 64)).2).cls = .clean ∧
    ((channelAs { Channel.reset with training := true }).channel 0).training = true := by decide +kernel

/-- Self-refresh is not left for nothing. -/
theorem test_self_refresh_stays :
    ((after (.selfRefreshExit 0) (channelAs { Channel.reset with selfRefresh := true })).channel 0).selfRefresh = true := by
  decide +kernel

theorem test_retrain_dead :
    ((after (.barnRetrain 0 false false) (channelAs { Channel.reset with training := true })).channel 0).dead = true ∧
      ((after (.barnRetrain 0 false true) (channelAs { Channel.reset with training := true })).channel 0).dead = false := by
  decide +kernel

/-- A state with bytes in each memory that steps. -/
theorem witness_canonical :
    MemoriesCanonical { State.reset with fieldData := [(5, 1)], barnData := [(2 ^ 38 - 1, 2)] } ∧
      step { State.reset with fieldData := [(5, 1)], barnData := [(2 ^ 38 - 1, 2)] } =
        .next { State.reset with fieldData := [(5, 1)], barnData := [(2 ^ 38 - 1, 2)] } :=
  ⟨by unfold MemoriesCanonical; decide +kernel, rfl⟩

/-! ### Host ports -/

/-- Head 0 maps host addresses 0 to 2^39 onto device memory, and holds these waiting requests' answers. -/
def mapped (p : HostPort) : State :=
  { up with h0 := { p with hdm0 := ⟨true, false, ⟨0, 0x6000000000, 0, 0, 0, false⟩⟩ } }

/-- A read in field memory, one in barn memory, one that no decoder matches, and one to a range that is not active; a pillar
queue and a host lane with room for one more and with none. -/
theorem witness_mem_requests :
    (MemCommand 0 3 64 (.memRd 0 3 64) .read) ∧ (mapped .reset).memUp 0 = true ∧ (mapped .reset).h0.ingress = [] ∧
      State.decodeHpa ((mapped .reset).host 0) 64 = some 64 ∧
      State.decodeHpa ((mapped .reset).host 0) 0x5FFFFFFFFF = some 0x5FFFFFFFFF ∧
      State.decodeHpa ((mapped .reset).host 0) 0x6000000000 = none ∧ (mapped .reset).rangeActive 64 = true ∧
      ({ mapped .reset with st := State.reset.st } : State).rangeActive 64 = false ∧
      ((pillarOf (List.replicate 15 hostRead) []).pillar 0).queue.length < 16 ∧
      ¬ ((pillarOf (List.replicate 16 hostRead) []).pillar 0).queue.length < 16 ∧
      ((channelAs { Channel.reset with lane0 := List.replicate 15 hostRead }).channel (State.channelOf 0)).lane0.length < 16 ∧
      ¬ ((channelAs { Channel.reset with lane0 := List.replicate 16 hostRead }).channel (State.channelOf 0)).lane0.length <
        16 := ⟨.memRd 64 rfl, by decide +kernel⟩

theorem test_mem_rd :
    ((after (.memRd 0 3 0x47) (mapped .reset)).pillar 0).queue = [⟨.host 0 3, .read, 64, false⟩] ∧
      (after (.memRd 0 3 64) up).out.getLast? = some (.mem 0 3 (.memData ⟨List.replicate 64 0xFF, true⟩) .noOp) := by
  decide +kernel

/-- A buffer with 512 requests takes no more; a staged line that waits at the pillar's stop keeps a request back. -/
theorem witness_mem_request_waits :
    512 ≤ ((mapped { HostPort.reset with ingress := List.replicate 512 (.access hostRead) }).host 0).ingress.length ∧
      (mapped .reset).mesh = [] ∧ ((mapped .reset).tile 0).stageWait = [] ∧
      ((withTile 0 { Tile.reset with stageWait := [⟨.tile 1, 0, 2, .bin 0, 1, ⟨[], false⟩⟩] }).tile 0).stageWait ≠ [] := by
  decide +kernel

/-- A request whose crossing stands still waits in the buffer. -/
def crossingStopped (k : Nat) : State := { mapped .reset with st := (stopped k).st }

theorem witness_crossings :
    (crossingStopped 0).crossingRuns hostRead = false ∧ (crossingStopped 0).pllLost 36 = false ∧
      (crossingStopped 36).pllLost 36 = true ∧ (mapped .reset).crossingRuns hostRead = true ∧
      (crossingStopped 32).crossingRuns (barnReq 1 0 .read) = false := by decide +kernel

theorem test_crossing_waits :
    ((after (.memRd 0 3 64) (crossingStopped 0)).host 0).ingress.length = 1 ∧
      (after (.memRd 0 3 64) (crossingStopped 36)).h0 = (crossingStopped 36).h0 := by decide +kernel

theorem witness_responses :
    up.memUp 1 = true ∧
      ((mapped { HostPort.reset with responses := [(7, .cmp)] }).host 0).responses = [(7, .cmp)] ∧
      (mapped { HostPort.reset with responses := [(7, .memData ⟨zeros 64, true⟩)] }).headUp 0 = true := by
  decide +kernel

theorem test_mem_spec_rd_dropped : (after (.memSpecRd 0 3 64) up).out = [] ∧ (after (.memInv 1 3 64) up).out = [.mem 1 3 .cmp .noOp] := by
  decide +kernel

/-- Requests in both lanes; decoders locked, allowed, and refused at the edge of capacity. -/
theorem witness_lanes_decoders :
    (0 : Nat) < ((channelAs { Channel.reset with lane0 := [hostRead], lane1 := [ridgeRead] }).lane 0 1).length ∧
      ((barnReading none).channel 0).reads.filter (fun x => x.req.lane = 0) = [⟨barnReq 1 0 .read, none, none, 0, 15⟩] ∧
      up.inD0 0 = true ∧
      (let s := mapped .reset
       (decoderOf (s.host 0) 0).committed = true ∧ (decoderOf (s.host 0) 0).cfg.lockOnCommit = false) := by
  decide +kernel

theorem witness_hdm_allowed :
    HdmAllowed (up.host 0) 0 ⟨0, 0x6000000000, 0, 1, 6, true⟩ ∧ ¬ HdmAllowed (up.host 0) 0 ⟨0, 0x6010000000, 0, 0, 0, false⟩ ∧
      ¬ HdmAllowed (up.host 0) 1 ⟨0, 0x10000000, 0, 0, 0, false⟩ := by unfold HdmAllowed; decide +kernel

theorem test_hdm_commit :
    (decoderOf ((after (.hdmCommit 0 0 ⟨0, 0x6000000000, 0, 1, 6, true⟩) up).host 0) 0).committed = true ∧
      (decoderOf ((after (.hdmCommit 0 1 ⟨0, 0x10000000, 0, 0, 0, false⟩) up).host 0) 1).err = true := by decide +kernel

theorem witness_links :
    (up.setF (State.linkReg 1) 2 0 1).getF ((Page.host 1).base + 0x40) 2 0 = 1 ∧ up.headUp 1 = true ∧
      up.st.powered = true := by decide +kernel

theorem test_link_width :
    (after (.hostLinkUp 1 .gt32 8 false) (up.setF (State.linkReg 1) 2 0 1)).memUp 1 = true ∧
      (after (.hostLinkUp 1 .gt32 4 false) (up.setF (State.linkReg 1) 2 0 1)).memUp 1 = false := by decide +kernel

/-- Vector 71 pending, with MSI-X enabled and without. -/
def pendingVector (en : Bool) : State := { up with h0 := { HostPort.reset with msixEnable := en, msixPending := [71] } }

theorem witness_vectors :
    71 ∈ ((pendingVector true).host 0).msixPending ∧ ((pendingVector true).host 0).msixEnable = true ∧
      ((pendingVector true).host 0).functionMask = false ∧ (pendingVector true).headUp 0 = true ∧
      ((pendingVector true).host 0).pendingLow = none ∧ (0 : BitVec 32).getLsbD 0 = false := by decide +kernel

theorem test_unmask_sends :
    (after (.msixUnmask 0 71 0) (pendingVector true)).out = [.msix 0 71] ∧
      (after (.msixUnmask 0 71 0) (pendingVector false)).out = [] := by decide +kernel

/-- Head 0 with the lower half of a 64-bit register written. -/
def halfOpen : State := up.onHost 0 fun p => { p with pendingLow := some (0x5048, 0x40) }

/-- One record in event log 3. -/
def oneEvent : State := { up with events := { EventLogs.reset with recs := [(3, [⟨1, .thermal 90⟩])], nextHandle := 2 } }

theorem witness_events :
    oneEvent.headUp 0 = true ∧ oneEvent.inD0 0 = true ∧ (3 : BitVec 8).toNat < 4 ∧
      (SMap.look [] oneEvent.events.recs 3).head? = some ⟨1, .thermal 90⟩ ∧
      ((SMap.look [] oneEvent.events.recs 3).take 1).map (fun r => BitVec.ofNat 16 r.handle) = [1] ∧
      ((SMap.look [] oneEvent.events.recs 3).take 1).map (fun r => BitVec.ofNat 16 r.handle) ≠ [2] ∧
      ([1, 0, 1, 0] : List Byte).length = 4 ∧ ∀ b ∈ ([1, 0, 1, 0] : List Byte), b.toNat % 4 ≤ 1 := by decide +kernel

theorem test_clear_event :
    SMap.look [] (after (.clearEventRecords 0 3 false [1]) oneEvent).events.recs 3 = [] := by decide +kernel

theorem witness_mailbox :
    beBytes 16 (BitVec.ofNat 128 (State.uuidCel.foldl (fun n b => 256 * n + b.toNat) 0)).toNat = State.uuidCel ∧
      (0x7FFF : BitVec 16).toNat ∉ State.celRows.map (·.1) ∧ (zeros 12).length = 12 ∧
      0 + State.celBytes.length ≤ State.celBytes.length := by decide +kernel

/-- The codeword of a poison command has come to the front of its pillar, and to the front of a lane of its channel. -/
def poisoning (op : MemOp) : State :=
  { pillarOf [] [⟨.mail 0, op, 64, false⟩] with h0 := { up.h0 with mailBusy := true } }
def barnPoisoning (op : MemOp) : State :=
  { laned ⟨.mail 0, op, 0x2000000000, false⟩ with h0 := { up.h0 with mailBusy := true } }

theorem witness_mail :
    (∀ h, h < 2 → MailReady up h) ∧
      (∀ op ∈ [MemOp.mark, .write (zeros 64) false false],
        (poisoning op).gleanTurn 0 = false ∧ ((poisoning op).host 0).mailBusy = true ∧ CleanAt (poisoning op) 0 64 ∧
          (poisoning op).pllLost 16 = false ∧ ((barnPoisoning op).host 0).mailBusy = true ∧ (barnPoisoning op).accepts 0 = true ∧
          ((barnPoisoning op).channel 0).dead = false) ∧
      halfOpen.headUp 0 = true ∧ halfOpen.inD0 0 = true ∧ (halfOpen.host 0).pendingLow = some (0x5048, 0x40) := by
  refine ⟨fun h hh => ⟨witness_bar h hh _, ?_⟩, by unfold CleanAt; decide +kernel⟩
  match h, hh with
  | 0, _ => rfl
  | 1, _ => rfl

/-- The command ends once its write has been made; while it is in progress no other is taken; a doorbell ends a half access. -/
theorem test_mail :
    (after (.pillarAccessDone 0 Env.none) (poisoning .mark)).out = [.mailbox 0 0 []] ∧
      (storedAt (after (.pillarAccessDone 0 Env.none) (poisoning .mark)) 64).2 = storedCheck (zeros 64) true ∧
      (after (.barnRequestAccept 0 Env.none) (barnPoisoning .mark)).out = [.mailbox 0 0 []] ∧
      (after (.getPartitionInfo 0) (poisoning .mark)).out = [] ∧
      ((after (.getPartitionInfo 0) halfOpen).host 0).pendingLow = none ∧
      (after (.getPartitionInfo 0) halfOpen).getF 0x14 7 0 = Cause.accessWidth.row.1 := by decide +kernel

theorem witness_poison :
    CleanDpa up 64 ∧ CleanDpa up 0x2000000040 := by unfold CleanDpa CleanBarn CleanAt; decide +kernel

theorem test_inject_poison :
    ((after (.injectPoison 0 64 Env.none) up).pillar 0).queue = [⟨.mail 0, .mark, 64, false⟩] ∧
      ((after (.injectPoison 0 64 Env.none) up).host 0).mailBusy = true := by decide +kernel

/-! ### DOE and SPDM -/

/-- A signature by the private scalar 5 verifies, and not over another message. -/
def signed : List Byte := ecdsaSign 5 7 [1, 2, 3]
theorem test_sign : ecdsaOk (publicPoint 5) (signed.take 66) (signed.drop 66) [1, 2, 3] = true := by decide +kernel
theorem test_sign_other : ecdsaOk (publicPoint 5) (signed.take 66) (signed.drop 66) [1, 2, 4] = false := by decide +kernel
/-- The first bytes of test case 2 of RFC 4231. -/
theorem test_hmac :
    (hmacSha512 (textBytes "Jefe") (textBytes "what do ya want for nothing?")).take 4 = [0x16, 0x4B, 0x7A, 0x7B] := by
  decide +kernel

/-- The DOE transport of head 0 in phase `ph`. -/
def spdmIn (ph : SpdmPhase) : State := { up with st := { up.st with doe := { Spdm.reset with phase := ph } } }

theorem witness_doe :
    (State.doeProtocols 0)[(0 : BitVec 8).toNat]? ≠ none ∧ (State.doeProtocols 1)[(0 : BitVec 8).toNat]? ≠ none ∧
      (State.cdatHeader :: State.cdatBody)[(0 : BitVec 16).toNat]? = some State.cdatHeader := by decide +kernel

theorem witness_spdm :
    (∀ ph ∈ [SpdmPhase.start, .versioned, .capable, .negotiated], (spdmIn ph).spdmReach .doe0 = true ∧
      ((spdmIn ph).spdm .doe0).phase = ph ∧ (spdmIn ph).opened = false) ∧ up.spdmReach .mctp = true ∧
      (up.setF 0x1040 8 8 1).opened = true ∧ (0x60 : BitVec 8).toNat ∉ State.spdmCodes ∧ up.st.key ≠ none ∧
      0 < up.certChain.length := by decide +kernel

/-- No key is held, and requests that need the identity come too early or after the debug port has been opened. -/
theorem witness_identity_errors :
    (let s := { spdmIn .negotiated with st := { (spdmIn .negotiated).st with key := none } }
     s.opened = false ∧ s.st.key = none ∧ (s.spdm .doe0).phase = .negotiated) ∧
      (let s := (spdmIn .negotiated).setF 0x1040 8 8 1
       s.opened = true ∧ s.spdmReach .doe0 = true) ∧ ((spdmIn .capable).spdm .doe0).phase ≠ .negotiated ∧
      (identityRequests .doe0).length = 4 := by decide +kernel

/-- The transcript keeps the requests and answers that the signature covers. -/
theorem test_transcript :
    ((after (.getVersion .doe0) up).spdm .doe0).vca.length = 12 ∧
      (after (.challenge .doe0 0 0 0) ((spdmIn .negotiated).setF 0x1040 8 8 1)).out = [.spdm .doe0 [0x13, 0x7F, 0x05, 0x01]] := by
  decide +kernel

theorem test_get_version :
    (after (.getVersion .doe0) up).out = [.spdm .doe0 [0x10, 0x04, 0, 0, 0, 1, 0x00, 0x13]] := by decide +kernel
theorem test_get_digests_early :
    (after (.getDigests .doe0) up).out = [.spdm .doe0 [0x13, 0x7F, 0x04, 0]] := by decide +kernel

/-! ### Tallies -/

/-- Gang 5 of tiles 0 and 1; paddock tally 63 of paddock 0 bound to it with `n` of two counted. -/
def tallied (bound : Bool) (counted : List Nat) (msgs : List TallyMsg) : State :=
  { up with
    tiles := [(0, { Tile.reset with gang := some 5 }), (1, { Tile.reset with gang := some 5 })]
    gangs := [(5, { Gang.reset with live := true, tiles := [0, 1] })]
    tally := { TallyNet.reset with
      pad := [(63, { TallyNode.reset with bound, gang := 5, expected := 2, counted })], msgs } }

theorem witness_tally_bind :
    ((tallied false [] []).padNode 0 63).bound = false ∧ ((tallied true [] []).padNode 0 63).bound = true ∧
      ((tallied false [] []).gang 5).live = true ∧ (tallied false [] []).gangIn 5 0 = [0, 1] ∧
      (tallied false [] []).gangIn 5 15 = [] ∧ ((tallied false [] []).gang 4).live = false ∧
      (tallied true [] []).tallyBusy [0] 63 5 = false ∧ (tallied true [0] []).tallyBusy [0] 63 5 = true ∧
      ((tallied true [] []).devNode 63).bound = false := by decide +kernel

theorem witness_tally_bar (b : Bool) (c : List Nat) (m : List TallyMsg) (h : Nat) (hh : h < 2) (p : Page) :
    BarReady (tallied b c m) h p := witness_bar_of (tallied b c m) (by dsimp only [tallied]) (by dsimp only [tallied]) (by dsimp only [tallied]) h hh p rfl

/-- A crew tally that is bound, one whose bind is right (level 0, local), and one with no gang. -/
theorem witness_crew_bind :
    (up.crew 63).bound = false ∧
      (tallied false [] []).crewOk { Crew.reset with gang := 5, isLocal := true, level := 1, expRow := 1 } = true ∧
      up.crewOk { Crew.reset with gang := 5, isLocal := true, level := 1, expRow := 1 } = false ∧
      (0xB000000 : BitVec 64).getLsbD 27 = true := by decide +kernel

/-- Device tally 63 and crew tally 63, bound, idle or counting, their parts in paddock 0 bound. -/
def deviceTallied (xs : List Nat) : State :=
  { tallied false [] [] with tally := { (tallied false [] []).tally with
      dev := [(63, { TallyNode.reset with bound := true, gang := 5, expected := 1, counted := xs })]
      padDev := [(63, { TallyNode.reset with bound := true, gang := 5, expected := 2 })]
      crew := [(63, { Crew.reset with bound := true, gang := 5, isLocal := true, level := 1, expRow := 1, rowCount := xs })]
      padCrew := [(63, { TallyNode.reset with bound := true, gang := 5, expected := 2 })] } }

theorem witness_unbinds :
    ((deviceTallied []).devNode 63).bound = true ∧ ((deviceTallied []).devNode 63).counted = [] ∧
      ((deviceTallied [0]).devNode 63).counted ≠ [] ∧ (deviceTallied []).tallyBusy (List.range 16) (64 + 63) 5 = false ∧
      ((deviceTallied []).padNode 0 (64 + 63)).bound = true ∧ ((deviceTallied []).crew 63).bound = true ∧
      ((deviceTallied [0]).crew 63).rowCount ≠ [] ∧ ((deviceTallied []).crew 63).acreCount = [] ∧
      (deviceTallied []).tallyBusy (List.range 16) (128 + 63) 5 = false ∧
      ((deviceTallied []).padNode 0 (128 + 63)).bound = true ∧ (0x3000000 : BitVec 64).getLsbD 27 = false := by decide +kernel

theorem witness_unbinds_bar (xs : List Nat) (h : Nat) (hh : h < 2) (p : Page) : BarReady (deviceTallied xs) h p :=
  witness_bar_of (deviceTallied xs) (by dsimp only [deviceTallied, tallied]) (by dsimp only [deviceTallied, tallied])
    (by dsimp only [deviceTallied, tallied]) h hh p rfl

theorem test_unbinds :
    ((after (.tallyUnbind 0 16 63 0) (deviceTallied [])).padNode 0 (64 + 63)).bound = false ∧
      ((after (.tallyUnbind 0 16 63 0) (deviceTallied [0])).devNode 63).bound = true ∧
      ((after (.registerWrite 0 (0x60400 + 8 * 63) 8 0) (deviceTallied [])).crew 63).bound = false ∧
      ((after (.registerWrite 0 (0x60400 + 8 * 63) 8 0) (deviceTallied [])).padNode 0 (128 + 63)).bound = false ∧
      ((after (.registerWrite 0 (0x60400 + 8 * 63) 8 0) (deviceTallied [0])).crew 63).bound = true := by decide +kernel

/-- A node whose clock stands still takes nothing; an unbound part logs a release and passes it on to its gang's tiles. -/
theorem test_tally_parts :
    (after (.tallyArrival 0 63) { tallied true [0] [.arrival (.node 0) 63 1 1] with st := (stopped 0).st }).tally.msgs =
        [.arrival (.node 0) 63 1 1] ∧
      (after (.tallyRelease (.node 0) 63) (tallied false [] [.release (.node 0) 63 1])).tally.msgs =
        [.release (.leaf 0) 63 1, .release (.leaf 1) 63 1] ∧
      (after (.tallyRelease (.node 0) 63) (tallied false [] [.release (.node 0) 63 1])).getF ((Page.tally 16).base + 0x14) 7 0 =
        Cause.tallyStray.row.1 := by decide +kernel

theorem witness_arrivals :
    (∀ b ∈ [true, false],
      takeOrdered TallyMsg.path (State.isArrival 0 63) [] (tallied b [0] [.arrival (.node 0) 63 1 1]).tally.msgs =
        some (.arrival (.node 0) 63 1 1, [])) ∧
      ((tallied true [0] []).padNode 0 63).lost = false ∧ ([0, 1] : List Nat).length = ((tallied true [0] []).padNode 0 63).expected ∧
      takeOrdered TallyMsg.path (State.isRelease (.leaf 0) 63) [] (tallied true [] [.release (.leaf 0) 63 1]).tally.msgs =
        some (.release (.leaf 0) 63 1, []) ∧ (tallied true [] []).waiter 0 = none ∧
      takeOrdered TallyMsg.path (State.isRelease (.node 0) 63) [] (tallied true [] [.release (.node 0) 63 1]).tally.msgs =
        some (.release (.node 0) 63 1, []) ∧
      takeOrdered TallyMsg.path (State.isWithdrawal 0 63) [] (tallied true [] [.withdrawal (.node 0) 63 1]).tally.msgs =
        some (.withdrawal (.node 0) 63 1, []) := by decide +kernel

/-- A withdrawal does not overtake an arrival of its tile at the same part; that of another tile does. -/
theorem test_tally_order :
    (∀ n ∈ [1, 2], (takeOrdered TallyMsg.path (State.isWithdrawal 0 63) []
      [.arrival (.node 0) 7 1 1, .withdrawal (.node 0) 63 n]).isSome = decide (n = 2)) := by decide +kernel

theorem test_last_arrival_releases :
    (after (.tallyArrival 0 63) (tallied true [0] [.arrival (.node 0) 63 1 1])).tally.msgs =
        [.release (.leaf 0) 63 1, .release (.leaf 1) 63 1] ∧
      ((after (.tallyArrival 0 63) (tallied true [] [.arrival (.node 0) 63 1 1])).padNode 0 63).counted = [1] := by
  decide +kernel
theorem test_withdrawal :
    ((after (.tallyWithdrawal 0 63) (tallied true [0] [.withdrawal (.node 0) 63 1])).padNode 0 63).lost = true := by
  decide +kernel

/-! ### Tithe, fences and sweeps -/

/-- The step of tile 0 of gang 5 under check. -/
def checked (c : TitheStep) (core : CoreState) : State :=
  { atWork core false 1 with tithe := { Tithe.reset with steps := [(0, c)] } }

/-- A check in phase `ph` with shadow tile 528, of paddock 1. -/
def inPhase (ph : CheckPhase) : TitheStep := { TitheStep.begin Tile.reset with phase := ph, shadow := some 528 }

/-- A primary that asks, with a free place of another paddock. -/
theorem witness_grant :
    (checked (.begin Tile.reset) .running).check 0 = some (.begin Tile.reset) ∧ (TitheStep.begin Tile.reset).phase = .asking ∧
      528 ∈ (checked (.begin Tile.reset) .running).places ∧ (checked (.begin Tile.reset) .running).placeBusy 528 = false ∧
      paddockOf 528 ≠ paddockOf 0 := by decide +kernel

/-- A module none of whose spares passed the test of its compute logic. -/
def noPlaces : State := { checked (.begin Tile.reset) .running with fuses := { fusesReset with pcen := BitVec.zero 4352 } }

theorem witness_no_place : noPlaces.places = [] := by
  have hr : noPlaces.getF 0x3044 15 0 = 0 := by decide +kernel
  have hp : noPlaces.fuses.pcen = BitVec.zero 4352 := rfl
  simp [State.places, State.placesOf, hr, hp, bit]

/-- A hold with room, of which one of two lines has been sent, and one that is full. -/
def heldLines : TitheStep :=
  { inPhase .sampling with lines := [3, 4097], sent := 1, start := { Tile.reset with crib := [(70, 9)] } }
def fullHold : TitheStep := { inPhase .sampling with used := 0xFF8001 }

theorem witness_hold :
    heldLines.complete = false ∧ 0x8000 + 64 * heldLines.lines.length + heldLines.used + 0x1000 + heldLines.extra ≤ 2 ^ 24 ∧
      heldLines.shadow = some 528 ∧ heldLines.lines.drop heldLines.sent = [4097] ∧
      2 ^ 24 < 0x8000 + 64 * fullHold.lines.length + fullHold.used := by decide +kernel

theorem test_hold_complete :
    ((after (.holdSend 0) (checked (inPhase .sampling) .atGate)).check 0).map (·.complete) = some true ∧
      (after (.holdSend 0) (checked fullHold .atGate)).reg 0x3080 = 1 := by
  decide +kernel

/-- The second line, of the crib, goes to the shadow. -/
theorem test_hold_lines :
    SMap.look 0 ((after (.holdSend 0) (checked heldLines .running)).tile 528).crib 70 = 9 ∧
      ((after (.holdSend 0) (checked heldLines .running)).check 0).map (·.sent) = some 2 := by decide +kernel

/-- A complete hold, whose step had this staged line applied to it; its shadow's run has started. -/
def readyToRun (applied : List (Nat × LineDest × Nat × Line)) (syncs : Nat) : TitheStep :=
  { inPhase .sampling with complete := true, lines := [3], applied, syncs }
def shadowRunning (applied : List (Nat × LineDest × Nat × Line)) (syncs : Nat) : TitheStep :=
  { readyToRun applied syncs with runs := [.shadow], sigP := 1 }

/-- The bytes of line 3 of the bin, applied once a sync entry had completed and before any had. -/
def bornLate : List (Nat × LineDest × Nat × Line) := [(1, .bin 192, 2 ^ 64 - 1, ⟨List.replicate 64 5, false⟩)]
def bornEarly : List (Nat × LineDest × Nat × Line) := [(0, .bin 192, 2 ^ 64 - 1, ⟨List.replicate 64 5, false⟩)]

theorem witness_shadow_runs :
    (∀ a ∈ [[], bornEarly, bornLate],
      (checked (readyToRun a 1) .atGate).check 0 = some (readyToRun a 1) ∧ RunKind.shadow ∉ (readyToRun a 1).runs ∧
        (readyToRun a 1).phase = .sampling ∧ 3 ∈ (readyToRun a 1).lines ∧
        ((checked (readyToRun a 1) .atGate).tile 0).core = .atGate) ∧
    (checked (shadowRunning bornLate 1) .atGate).check 0 = some (shadowRunning bornLate 1) ∧
      RunKind.shadow ∈ (shadowRunning bornLate 1).runs ∧ (shadowRunning bornLate 1).writes = [] ∧
      (shadowRunning bornLate 1).shadow = some 528 ∧
      RunSignature.sig (shadowRunning bornLate 1).sigP ≠ .sig 2 := by decide +kernel

/-- A staged line that came before any sync entry completed is there when the run starts; a later one is not. -/
theorem test_shadow_run_starts :
    SMap.look 0 ((after (.titheRunStart 0 .shadow) (checked (readyToRun bornEarly 1) .atGate)).tile 528).bin 192 = 5 ∧
      SMap.look 0 ((after (.titheRunStart 0 .shadow) (checked (readyToRun bornLate 1) .atGate)).tile 528).bin 192 = 0 := by
  decide +kernel

/-- The shadow stands in state `core`, having written nothing. -/
def shadowDone (core : CoreState) : State :=
  (checked (shadowRunning bornLate 1) .atGate).onTile 528 fun x => { x with core }

theorem witness_reports :
    Reports (shadowDone .atGate) (shadowRunning bornLate 1) .shadow .own
      (.sig (stepSig [] { Tile.reset with core := .atGate })) ∧
    Reports (shadowDone .running) (shadowRunning bornLate 1) .shadow .lost .lost :=
  ⟨.inr ⟨rfl, 528, by decide +kernel, by decide +kernel, rfl⟩, .inl ⟨by decide, rfl⟩⟩

/-- The primary's signature ends the check; a run that has faulted is a mismatch, and one that has not ended is no report. -/
theorem test_shadow_judged :
    (after (.titheRunEnd 0 .shadow (.sig 1) Env.none) (shadowDone .running)).check 0 = none ∧
      (after (.titheRunEnd 0 .shadow (.sig 1) Env.none) (shadowDone .running)).reg 0x3078 = 1 ∧
      (after (.titheRunEnd 0 .shadow .own Env.none) (shadowDone .faulted)).reg 0x3088 = 1 ∧
      (after (.titheRunEnd 0 .shadow .own Env.none) (shadowDone .running)).check 0 = some (shadowRunning bornLate 1) := by
  decide +kernel

/-- The shadow's run is at a store of 5 to byte 0 of the bin, whose codeword at pillar offset 64 the run has written before. -/
def shadowStores : State :=
  let c := { shadowRunning [] 1 with recs := [(.shadow, { RunRec.reset with overlay := [(64, ⟨zeros 64, false⟩)] })] }
  { (checked c .atGate) with tiles := [(0, { Tile.reset with core := .atGate, gang := some 5 }), (528, { Tile.reset with
    core := .running, g := [(1, 5)], imem := [(0, (encodeYilac (.stb 0 1 0 0 false)).getD 0)] })] }

theorem witness_runs_for :
    RunsFor shadowStores 528 0 .shadow ((shadowStores.check 0).getD (.begin Tile.reset)) ∧
      ((shadowStores.enterView 528 0 .shadow ((shadowStores.check 0).getD (.begin Tile.reset))).check 0).map
        (fun w => (w.phase, (w.before.lookup 64).isSome)) = some (.run, true) ∧
      ∃ v, exec (.stb 0 1 0 0 false) (shadowStores.enterView 528 0 .shadow ((shadowStores.check 0).getD (.begin Tile.reset))) =
        .next v :=
  ⟨⟨by decide, by decide +kernel, by decide +kernel, by decide +kernel, by decide +kernel⟩, by decide +kernel, _, rfl⟩

/-- The place stores in its own bin, for the run's own record, and the primary's tile stays. -/
theorem test_place_acts :
    let s := after (.stb 528 1 0 0 false) shadowStores
    (s.tile 528).bin = [(0, 5)] ∧ s.tile 0 = shadowStores.tile 0 ∧
      (s.check 0).map (fun c => (c.writes.length, ((c.recs.lookup .shadow).map (·.writes.length)))) = some (0, some 1) := by
  decide +kernel

theorem witness_not_run_in :
    NotRunIn (inPhase .sampling) 528 ∧ NotRunIn (shadowRunning [] 1) 0 := by
  unfold NotRunIn; decide +kernel

/-- A replay with this work: the barn codeword of `barnCopy` is in the hold, and one staged line was logged after the first
sync entry. -/
def replaying (es : List Entry) : State :=
  { queued es with tithe := { Tithe.reset with steps := [(0, { inPhase .replay with
      applied := bornLate, data := [⟨2, 0, meshNode, 0x2000000000, ⟨5 :: zeros 63, false⟩⟩] })] } }

/-- R425: a replay's reads come from the hold. -/
theorem test_replay_reads_the_hold :
    ((after (.copy 0 Env.none) (replaying [entry 2 barnCopy])).tile 0).bin = [(0, 5)] := by decide +kernel

/-- R403: a replay's sync entry completes, and the line logged with that number is applied again. -/
theorem test_replay_applies_lines :
    SMap.look 0 ((after (.entryComplete 0 5) (replaying [{ entry 5 [] with performed := true }])).tile 0).bin 192 = 5 := by
  decide +kernel

theorem witness_referee :
    (let c := inPhase .refereeWanted
     (checked c .atGate).check 0 = some c ∧ 800 ∈ (checked c .atGate).places ∧ (checked c .atGate).placeBusy 800 = false ∧
      paddockOf 800 ≠ paddockOf 0 ∧ paddockOf 800 ≠ paddockOf 528) ∧
    (∀ n ∈ [1, 2, 3],
      let c := { inPhase .refereeRun with
        referee := some 800, runs := [.again], sigP := 1, sigS := some (.sig 2), sigR := some (.sig (BitVec.ofNat 64 n)) }
      (checked c .atGate).check 0 = some c ∧ RunKind.again ∈ c.runs ∧ c.shadow = some 528 ∧
        ((checked c .atGate).tile 0).gang = some 5 ∧ ((checked c .atGate).gang 5).checkpoint = false) ∧
    (let c := inPhase .replayDue
     (checked c .atGate).check 0 = some c ∧ c.phase = .replayDue) := by decide +kernel

theorem test_majority_strikes_shadow :
    (after (.titheRunEnd 0 .again (.sig 2) Env.none) (checked { inPhase .refereeRun with
      referee := some 800, runs := [.again], sigP := 1, sigS := some (.sig 2), sigR := some (.sig 1) } .atGate)).reg 0x3078 = 1 := by
  decide +kernel

theorem witness_stall :
    ∀ ph ∈ [CheckPhase.asking, .sampling, .refereeWanted, .refereeRun],
      (checked (inPhase ph) .atGate).check 0 = some (inPhase ph) ∧ ((checked (inPhase ph) .atGate).tile 0).core = .atGate := by
  decide +kernel

theorem test_stall_unchecked :
    (after (.titheStall 0) (checked (inPhase .sampling) .atGate)).reg 0x3080 = 1 := by decide +kernel

/-- A granary header: set 0 valid, of a gang of one tile. -/
def granaryHeader : List Byte := desc [(0, 1), (2, 1), (4, 1)]

/-- Gang 5 of tile 0 restores from the area at the start of barn memory, whose header is `h`; `rs` are the reads of channel
0 that wait. -/
def granaried (h : List Byte) (restoring : Nat) (rs : List BarnRead) : State :=
  { (up.storeCw true 0 ⟨h, false⟩) with
    tiles := [(0, { Tile.reset with gang := some 5 })]
    gangs := [(5, { Gang.reset with live := true, checkpoint := true, tiles := [0], granary := 0x2000000000, restoring })]
    channels := [(0, { Channel.reset with reads := rs })] }

/-- A read of the granary, of its header or of a line. -/
def granaryRead (src : ReqSrc) : BarnRead := ⟨⟨src, .read, 0x2000000000, false⟩, none, none, 0, 0⟩

theorem witness_restore :
    (∀ n ∈ [0, 1], ((granaried granaryHeader n []).gang 5).live = true ∧
      ((granaried granaryHeader n []).gang 5).checkpoint = true ∧ ((granaried granaryHeader n []).gang 5).sheaf = none ∧
      ((granaried granaryHeader n []).gang 5).restoring = n) ∧
      (0x605 : BitVec 32).getLsbD 10 = true ∧ bits (0x605 : BitVec 32).toNat 9 8 = 2 ∧ (0x605 : BitVec 32).toNat % 256 = 5 ∧
      bits (0x505 : BitVec 32).toNat 9 8 = 1 ∧ (0x505 : BitVec 32).getLsbD 10 = true := by decide +kernel

/-- The header's read, with a usable set and with none, and a line's, each the next work of its channel. -/
theorem witness_granary_reads :
    ∀ h ∈ [granaryHeader, zeros 64], ∀ src ∈ [ReqSrc.restoreHead 5, .restore 5 0 4351],
      (granaried h 1 [granaryRead src]).pickBank 0 = some ((granaried h 1 [granaryRead src]).bankOf 0) ∧
        nextKind (granaried h 1 [granaryRead src]) ((granaried h 1 [granaryRead src]).bankOf 0) = 1 ∧
        CleanBarn (granaried h 1 [granaryRead src]) 0x2000000000 ∧
        ((granaried h 1 [granaryRead src]).gang 5).restoring ≠ 0 ∧
        barnBytes (granaried h 1 [granaryRead src]) 0x2000000000 = h := by unfold CleanBarn; decide +kernel

/-- A line goes to the crib of its tile; a header without a valid set logs GRANARY_INVALID. -/
theorem test_granary_reads :
    SMap.look 0 ((after (.barnReadDone 0 ((granaried (zeros 64) 1 []).bankOf 0) Env.none)
        (granaried (1 :: zeros 63) 1 [granaryRead (.restore 5 0 4096)])).tile 0).crib 0 = 1 ∧
      ((after (.barnReadDone 0 ((granaried (zeros 64) 1 []).bankOf 0) Env.none)
        (granaried (zeros 64) 1 [granaryRead (.restoreHead 5)])).gang 5).restoring = 0 := by decide +kernel

/-- A request for a tile that exists, for none, and while one is in progress. -/
theorem witness_fence_request :
    up.fence.queue = [] ∧ (0x800010FF : BitVec 32).toNat % 2 ^ 13 = 4351 ∧ 4352 ≤ (0x80001100 : BitVec 32).toNat % 2 ^ 13 ∧
      (0x80001100 : BitVec 32).getLsbD 31 = true := by decide +kernel

/-- Physical tile `pt` is to be fenced; the tiles `fallow` are fallow. -/
def fencing (pt : Nat) (fallow : List Nat) : State :=
  { up with fence := { Fence.reset with queue := [⟨pt, false, false, false, false⟩], fallow := fallow.map (·, true) } }

/-- A tile with a free spare, one whose paddock has none, and a spare. -/
theorem witness_fence_remap :
    ((fencing 0 []).fenceMayRun = true ∧ (fencing 0 []).isFallow 0 = false ∧ (fencing 0 []).ltileOf 0 = some 0 ∧
      (fencing 0 []).freeSpare 0 = some 256 ∧ (fencing 0 []).liveGangs (fun t => decide (t = 0)) = []) ∧
    (fencing 0 ((List.range 16).map (· + 256))).sparesFor 0 = [] ∧ (fencing 256 []).ltileOf 256 = none := by
  decide +kernel

theorem readBytes_empty (a n : Nat) : readBytes [] a n = zeros n := by
  induction n generalizing a with
  | zero => rfl
  | succ n ih => simp [readBytes, zeros, SMap.look, List.replicate_succ] at ih ⊢; exact ih _

theorem witness_fence_pillars :
    MemoriesCanonical (fencing 0 []) ∧ ((fencing 0 []).pillar 0).queue = [] ∧ ((fencing 0 []).pillar 256).admitted = [] ∧
      ∀ k, CleanAt (fencing 0 []) 0 (64 * k) := by
  refine ⟨by unfold MemoriesCanonical; decide +kernel, by decide +kernel, by decide +kernel, fun k => ⟨by decide +kernel, ?_⟩⟩
  have h1 : (fencing 0 []).fieldData = [] := by decide +kernel
  have h2 : (fencing 0 []).fieldCheck = [] := by decide +kernel
  simp only [State.storedCw, Bool.false_eq_true, if_false, h1, h2, readBytes_empty]
  decide +kernel

theorem test_fence_remap_spare : ((after (.fenceRemap Env.none) (fencing 256 [])).isFallow 256 = true) := by
  decide +kernel

/-- A requested sweep of paddock 0 with sixteen spares and with two; a sweep under way, and one whose gang runs. -/
theorem witness_sweeps :
    (let s := { up with st := { up.st with sweepDue := [0] } }
     s.st.sweep = none ∧ s.fence.queue = [] ∧ s.upkeepPaddock ≠ some 0 ∧ s.st.fieldActive = true ∧
      s.st.resetWaiting = [] ∧ 3 ≤ (s.spares 0).length) ∧
    (let s := { up with fence := { Fence.reset with fallow := ((List.range 14).map (· + 256)).map (·, true) } }
     ¬ 3 ≤ (s.spares 0).length) ∧
    (let s := { up with st := { up.st with sweep := some 0 } }
     s.sweepStopped 0 = true ∧ s.isFallow 0 = false) ∧
    (let s := { atWork .running false 1 with st := { up.st with sweep := some 0 } }
     s.sweepStopped 0 = false) ∧ (0x20 : BitVec 32).getLsbD 5 = true := by decide +kernel

/-- A sweep of paddock 0 at `step`, whose rail settles or not; tile 3 is of a gang. -/
def sweeping (step : SweepStep) (waits : Bool) (w : SweepWork) : State :=
  { up with
    tiles := [(3, { Tile.reset with core := .halted, gang := some 5, bin := [(64, 7)] })]
    gangs := [(5, { Gang.reset with live := true, tiles := [3] })]
    st := { up.st with sweep := some 0, sweepWork := { w with step }, settling := if waits then [(0, true)] else [] } }
/-- It has saved line 1 of that tile's bin in the first of three spare pillars. -/
def sweepSaved : SweepWork := { SweepWork.reset with pillars := [256, 257, 258], saved := [3], mv := 750, freq := 2500 }
def sweepRestored (skip : Bool) : State :=
  (sweeping .restored false { sweepSaved with skip }).storeCw false (State.savedAt [256, 257, 258] 0 1)
    ⟨7 :: zeros 63, false⟩

theorem witness_sweep_steps :
    (∀ x ∈ [SweepStep.stopping, .lowering, .testing, .restoring, .restored], ∀ w ∈ [true, false],
      Sweeps (sweeping x w sweepSaved) 0 x ∧ (sweeping x w sweepSaved).railWaits 0 = w) ∧
    (sweeping .stopping false .reset).sweepStopped 0 = true ∧
    ((sweeping .stopping false .reset).freePillars 0).take 3 = [256, 257, 258] ∧
    sweptTiles (sweeping .stopping false .reset) 0 = [3] ∧ (sweeping .stopping false .reset).pillarDead 256 = false ∧
    (sweeping .lowering true sweepSaved).bootAt 5 = false ∧ paddockOf 271 = 0 ∧
    (∀ k ∈ [true, false], (sweepRestored k).st.sweepWork.struck = [] ∧
      (sweepRestored k).storedCw false (State.savedAt [256, 257, 258] 0 1) =
        (7 :: zeros 63, storedCheck (7 :: zeros 63) false)) ∧
    sweepSaved.pillars.Nodup ∧ sweepSaved.saved.Nodup := by unfold Sweeps; decide +kernel

/-- Lines are saved and come back; the rail is lowered, TCLK raised and both restored. -/
theorem test_sweep_steps :
    (after (.sweepStart .request 0) (sweeping .stopping false .reset)).vddtOf 0 = (sweeping .stopping false .reset).vddtOf 0 * 95 / 100 ∧
      (after (.sweepStart .request 0) (sweeping .stopping false .reset)).storedCw false (State.savedAt [256, 257, 258] 0 1) =
        (7 :: zeros 63, storedCheck (7 :: zeros 63) false) ∧
      (after (.vrSettled 0) (sweeping .lowering true sweepSaved)).getF ((Page.clock 0).base + 0x40) 15 0 = 2625 ∧
      (after (.sweepDone []) (sweeping .testing false sweepSaved)).vddtOf 0 = 750 ∧
      ((after (.sweepDone []) (sweepRestored false)).tile 3).bin = [(64, 7)] := by decide +kernel

theorem test_sweep_skips :
    (after (.sweepDone []) (sweepRestored true)).st.sweepRetry = [0] ∧
      (after (.vrSettleTimeout 0) (sweeping .lowering true sweepSaved)).st.sweepWork.skip = true ∧
      (after (.sweepDone [(271, true)]) (sweeping .testing false sweepSaved)).getF ((Page.tile 271).base + 0xA0) 15 0 = 1 := by
  decide +kernel

theorem test_sweep_start :
    (after (.sweepStart .request 0) { up with st := { up.st with sweepDue := [0] } }).st.sweep = some 0 := by
  decide +kernel

/-! ### The ridge -/

/-- Ridge port 0 as `q`. -/
def portAs (q : RidgePort) : State := up.onRport 0 fun _ => q

/-- A flit with header byte `b`, its CRC for sequence number 0. -/
def flit (b : Byte) : List Byte := (b :: zeros 251) ++ flitCrc 0 (b :: zeros 251)

/-- DATA, a reserved type and a reserved bit; a CRC that is not right; a port that has asked for a replay and one that has not. -/
theorem witness_flits :
    up.linkAlive 0 = true ∧ (∀ b ∈ [0, 2, 3, 8], (flit (BitVec.ofNat 8 b)).length = 256 ∧
      (flit (BitVec.ofNat 8 b)).drop 252 = flitCrc (up.rport 0).rxSeq ((flit (BitVec.ofNat 8 b)).take 252)) ∧
      field (flit 0) 0 1 = 0 ∧ 2 ≤ field (flit 2) 0 1 % 4 ∧ 8 ≤ field (flit 8) 0 1 ∧
      (zeros 256).drop 252 ≠ flitCrc (up.rport 0).rxSeq ((zeros 256).take 252) ∧ (up.rport 0).nakState = false ∧
      ((portAs { RidgePort.reset with nakState := true }).rport 0).nakState = true := by decide +kernel

theorem test_flit_accepted :
    ((after (.dataFlitReceive 0 (flit 0) true) up).rport 0).rxSeq = 1 ∧
      ((after (.dataFlitReceive 0 (zeros 256) true) up).rport 0).nakState = true := by decide +kernel

/-- Flit 1 not acknowledged, with `n` replays begun at it. -/
def unacked (n : Nat) : State :=
  portAs { RidgePort.reset with txSeq := 2, sent := [⟨1, zeros 252, []⟩], replayFrom := 1, replays := n }

theorem witness_naks :
    ((unacked 14).rport 0).sent = [⟨1, zeros 252, []⟩] ∧ (0 : BitVec 12) = 1 - 1 ∧ ((unacked 14).rport 0).replays < 15 ∧
      ((unacked 15).rport 0).replayFrom = 1 ∧ 15 ≤ ((unacked 15).rport 0).replays ∧
      State.ackOk ((unacked 0).rport 0) 2 = false ∧ (2 : BitVec 12) ≠ 1 - 1 ∧ State.ackOk ((unacked 0).rport 0) 1 = true ∧
      (unacked 0).linkState 0 = 2 ∧ ((unacked 0).rport 0).txq = [] ∧ ((unacked 0).rport 0).tail = [] ∧ (unacked 0).linkAlive 0 = true := by decide +kernel

theorem test_ack_frees : ((after (.ackReceive 0 1) (unacked 0)).rport 0).sent = [] ∧
    (after (.nakReceive 0 0) (unacked 0)).out.length = 1 := by decide +kernel

/-- Port 0 being taken down with flit 1 not acknowledged, its EN clear or set. -/
def drainingPort (en : Nat) : State :=
  ((portAs { RidgePort.reset with txSeq := 2, sent := [⟨1, zeros 252, []⟩], closing := true }).setF (ridgeBase 0 + 0x44) 2 0 4).setF
    (ridgeBase 0 + 0x40) 0 0 en

theorem witness_drained :
    ∀ en ∈ [0, 1], (drainingPort en).linkState 0 = 4 ∧ (drainingPort en).linkAlive 0 = true ∧
      ((drainingPort en).rport 0).closing = true ∧ State.ackOk ((drainingPort en).rport 0) 1 = true ∧
      (∀ g ∈ ((drainingPort en).rport 0).sent, serialGT 12 g.seq.toNat (1 : BitVec 12).toNat = false) ∧
      (∀ g ∈ ((drainingPort en).rport 0).sent.head?, (1 : BitVec 12) ≠ g.seq - 1) ∧ (stopped 37).pllLost 37 = true := by
  decide +kernel

/-- An ACK, and a NAK that acknowledges the last flit, take the link down; without its clock neither does. -/
theorem test_drained :
    (after (.ackReceive 0 1) (drainingPort 0)).linkState 0 = 3 ∧ (after (.nakReceive 0 1) (drainingPort 1)).linkState 0 = 1 ∧
      (after (.nakReceive 0 1) { drainingPort 0 with st := (stopped 37).st }).linkState 0 = 4 := by decide +kernel

/-- A row of each kind is one that LCLK moves. -/
theorem witness_ridge_row : RidgeRow 0 6 0 [] (.ridgeLinkUp 0) ∧ RidgeRow 0 6 0 [] (.lhello 0 6) ∧ RidgeRow 0 6 0 [] (.packetBad 0 6) := by
  unfold RidgeRow; simp

theorem witness_timers :
    State.lcrDue (up.rport 0) = false ∧ State.lcrDue { RidgePort.reset with unacked := 32 } = true ∧
      State.lcrDue { RidgePort.reset with unacked := 31 } = false ∧
      ((portAs { RidgePort.reset with unacked := 1 }).rport 0).unacked ≠ 0 ∧ (up.rport 0).txq = [] ∧
      (up.rport 0).tail = [] ∧
      (up.setF (ridgeBase 5 + 0x44) 2 0 3).linkAlive 5 = false := by decide +kernel

theorem test_ack_timer :
    ((after (.ackTimer 0) (portAs { RidgePort.reset with unacked := 1 })).rport 0).unacked = 0 := by decide +kernel

/-- Two packets of 24 bytes leave end to end in one flit. -/
theorem test_packets_share_flits :
    (after (.creditReturn 0 0 0) (portAs { RidgePort.reset with
      txq := [(6, packet 0x1C 2 [] (zeros 8)), (6, packet 0x1C 2 [(8, 1)] (zeros 8))] })).out.length = 1 := by decide +kernel

/-- Port 0 enabled with its link in state `st`, on a ring of state 1. -/
def linkIn (st : Nat) : State := ((up.setF (ridgeBase 0 + 0x40) 0 0 1).setF (ridgeBase 0 + 0x44) 2 0 st).setF 0x48104 7 5 1

theorem witness_links_ridge :
    (linkIn 1).linkAlive 0 = false ∧ (linkIn 1).getF (ridgeBase 0 + 0x40) 0 0 = 1 ∧ (linkIn 1).awake = true ∧
      6 ≤ (linkIn 1).getF 0x1040 3 0 ∧ (linkIn 2).linkAlive 0 = true ∧ (linkIn 2).coordValid 0 = true ∧
      (linkIn 2).ringAddressed 0 = true ∧ (linkIn 2).breaks 0 = [] ∧ ((linkIn 2).rport 0).txq = [] ∧
      ((portAs { RidgePort.reset with awaitingRxseq := true }).rport 0).awaitingRxseq = true ∧
      (linkIn 1).headUp 0 = true ∧ (linkIn 4).linkState 0 = 4 ∧ (up.setF (ridgeBase 0 + 0x40) 0 0 0).getF (ridgeBase 0 + 0x40) 0 0 = 0 := by
  decide +kernel

/-- Ridge links that may not train: before stage 6, after a stopped boot, without their clock; the peer's RXSEQ known already. -/
theorem witness_link_clauses :
    ((linkIn 1).setF 0x1040 3 0 5).ridgeTrains = false ∧ ((linkIn 1).setF 0x1040 5 4 3).ridgeTrains = false ∧
      ({ linkIn 1 with straps := { strapsLow with refL := false } } : State).ridgeTrains = false ∧
      (linkIn 1).ridgeTrains = true ∧ (linkIn 1).straps.refL = true ∧ (linkIn 1).getF 0x1040 5 4 < 2 ∧ (linkIn 1).linkState 0 = 1 ∧
      ((portAs { RidgePort.reset with told := some 3 }).rport 0).told ≠ none ∧ (up.rport 0).told = none := by decide +kernel

/-- No port trains after a boot that has stopped; one that fails its training goes down; a peer that has told what it has needs no RXSEQ. -/
theorem test_link_clauses :
    (after (.ridgeLinkUp 0) ((linkIn 1).setF 0x1040 5 4 3)).linkState 0 = 1 ∧
      (after (.linkDown 0) (linkIn 1)).linkState 0 = 3 ∧
      ((after (.linkDown 0) (portAs { RidgePort.reset with told := some 3 })).rport 0).awaitingRxseq = false := by decide +kernel

theorem test_link_down : (after (.linkDown 0) up).linkState 0 = 3 := by decide +kernel

/-- What had been received is handled though the link is down; what was begun is kept for RXSEQ. -/
theorem test_link_down_keeps :
    let s := after (.linkDown 0) (portAs { RidgePort.reset with
      rx := [packet 0x1C 2 [] (zeros 8)], tail := [0], tailPkt := some (packet 0x1C 2 [(8, 1)] (zeros 8)) })
    (s.rport 0).rx = [] ∧ s.headRx 0 4 = some (packet 0x1C 2 [] (zeros 8)) ∧ (s.rport 0).bounce.length = 1 := by
  decide +kernel

/-- A port that is set to train while it is being taken down stays in state 4. -/
theorem test_enable_while_draining :
    (after (.ridgePortEnable 0 0 1) ((portAs { RidgePort.reset with sent := [⟨1, zeros 252, []⟩], closing := true }).setF
      (ridgeBase 0 + 0x44) 2 0 4)).linkState 0 = 4 := by decide +kernel

/-- The state `s` with live change `op` of argument `arg` in phase `ph`. -/
def doing (s : State) (op arg : Nat) (ph : JobPhase) : State := { s with st := { s.st with upkeep := some ⟨op, arg, ph⟩ } }

theorem witness_retrain :
    Doing (doing up 4 5 .queued) 4 5 .queued ∧ (doing up 4 5 .queued).upkeepFree = true ∧ 5 % 8 = 5 ∧
      6 ≤ (doing up 4 5 .queued).getF 0x1040 3 0 := by unfold Doing; decide +kernel

/-- `s` with packet `k` the oldest of port 0. -/
def inbox (s : State) (k : Packet) : State := s.onRport 0 fun q => { q with rx := [k] }

theorem waits_of {s : State} {p vc op : Nat} {k : Packet}
    (h : p < 6 ∧ vc < 8 ∧ s.headRx p vc = some k ∧ k.op = op ∧ k.bad = false ∧
      s.nodeValid = true ∧ (s.rport p).miscabled = false ∧ (s.rport p).mgmtOnly = false ∧ s.pllLost 37 = false) :
    PacketWaits s p vc op k :=
  ⟨h.1, h.2.1, h.2.2.1, h.2.2.2.1, h.2.2.2.2.1, h.2.2.2.2.2.1, h.2.2.2.2.2.2.1, h.2.2.2.2.2.2.2.1, h.2.2.2.2.2.2.2.2⟩

/-- A COMMIT and an ABORT of epoch 0 of tile 7 of node 3 for tile 0, which has staged one of its lines. -/
def remoteStep (op : Nat) : State :=
  inbox { up with tiles := [(0, { Tile.reset with
    staging := [{ lineTo 64 7 with src := .remote 3 7 }, lineTo 64 9] })] } (packet op 2 [(14, 7)] [])

theorem witness_remote_commit :
    PacketWaits (remoteStep 0x10) 0 4 0x10 (packet 0x10 2 [(14, 7)] []) ∧
      PacketWaits (remoteStep 0x11) 0 4 0x11 (packet 0x11 2 [(14, 7)] []) ∧
      (packet 0x10 2 [(14, 7)] []).dst = (remoteStep 0x10).node ∧
      (remoteStep 0x10).recvFor ((packet 0x10 2 [(14, 7)] []).arg 12 2) = 0 ∧
      (((remoteStep 0x10).tile 0).staging.filter fun l => l.ofStep (.remote 3 7) 0) =
        [{ lineTo 64 7 with src := .remote 3 7 }] :=
  ⟨waits_of (by decide +kernel), waits_of (by decide +kernel), by decide +kernel⟩

theorem test_remote_commit :
    ((after (.ridgeCommit 0 ⟨4, Env.none⟩) (remoteStep 0x10)).tile 0).bin = [(64, 7)] ∧
      ((after (.ridgeAbort 0 4) (remoteStep 0x11)).tile 0).bin = [] := by decide +kernel

/-- Tile 0 of epoch `e` awaits node 3's tile 9, and more; or that tile is to acknowledge an ABORT of epoch 0. -/
def awaiting (e : BitVec 32) (more : List Receiver) : State :=
  inbox { up with tiles := [(0, { Tile.reset with core := .atGate, epoch := e, gate :=
    { phase := .acking, held := [], receivers := [], awaiting := .remote 3 9 :: more } })] } (packet 0x12 2 [(12, 9)] [])
def aborted : State :=
  inbox { up with tiles := [(0, { Tile.reset with aborts := [(.remote 3 9, 0)] })] } (packet 0x12 2 [(12, 9)] [])

theorem witness_cack :
    PacketWaits (awaiting 0 []) 0 4 0x12 (packet 0x12 2 [(12, 9)] []) ∧
      PacketWaits aborted 0 4 0x12 (packet 0x12 2 [(12, 9)] []) ∧ (Receiver.remote 3 9, 0) ∈ (aborted.tile 0).aborts ∧
      (packet 0x12 2 [(12, 9)] []).arg 14 2 % 2 ^ 13 = 0 ∧ (packet 0x12 2 [(12, 9)] []).arg 12 2 % 2 ^ 13 = 9 ∧
      ((awaiting 1 []).tile 0).epoch ≠ BitVec.ofNat 32 ((packet 0x12 2 [(12, 9)] []).arg 8 4) ∧
      ((awaiting 0 []).tile 0).epoch = BitVec.ofNat 32 ((packet 0x12 2 [(12, 9)] []).arg 8 4) ∧
      (Receiver.remote 3 9, 0) ∉ ((awaiting 0 []).tile 0).aborts ∧
      ((awaiting 0 [.tile 1]).tile 0).gate.awaiting.erase (.remote 3 9) ≠ [] ∧
      ((awaiting 0 []).tile 0).gate.awaiting = [.remote 3 9] ∧ nextPc ((awaiting 0 []).tile 0) ≠ 0x8000 :=
  ⟨waits_of (by decide +kernel), waits_of (by decide +kernel), by decide +kernel⟩

/-- An RWR of eight bytes to bin byte 56 of logical tile 0, the last of a line. -/
def rwrPacket : Packet := packet 0x01 0 [(8, 56), (12, 0x80)] (List.replicate 8 7)

theorem witness_rwr :
    PacketWaits (inbox up rwrPacket) 0 0 0x01 rwrPacket ∧ 2 ^ 39 ≤ rwrPacket.arg 8 5 ∧ rwrPacket.arg 8 5 % 64 + rwrPacket.len = 64 ∧
      (inbox up rwrPacket).ptileOf (rwrPacket.arg 8 5 / 2 ^ 18 % 2 ^ 12) = 0 ∧ rwrPacket.dst = (inbox up rwrPacket).node ∧
      ((inbox up rwrPacket).tile 0).stageWait = [] ∧ ((inbox up rwrPacket).tile 0).staging.length < 1024 :=
  ⟨waits_of (by decide +kernel), by decide +kernel⟩

theorem test_rwr : ((after (.rwr 0 0) (inbox up rwrPacket)).tile 0).staging.map (fun l => (l.dest, l.mask)) =
    [(.bin 0, 0xFF00000000000000)] := by decide +kernel

/-- An RRD of eight bytes of a bin, and of field memory. -/
def rrdPacket (bin : Bool) : Packet := { packet 0x02 0 (if bin then [(12, 0x80)] else [(8, 56)]) [] with len := 8 }

theorem witness_rrd :
    PacketWaits (inbox up (rrdPacket true)) 0 0 0x02 (rrdPacket true) ∧
      PacketWaits (inbox up (rrdPacket false)) 0 0 0x02 (rrdPacket false) ∧ 2 ^ 39 ≤ (rrdPacket true).arg 8 5 ∧
      (rrdPacket false).arg 8 5 % 64 + (rrdPacket false).len = 64 ∧ (inbox up (rrdPacket false)).mesh = [] ∧
      ((inbox up (rrdPacket false)).tile 0).stageWait = [] ∧
      (∀ i, i < (rrdPacket true).len →
        SMap.look false ((inbox up (rrdPacket true)).tile 0).binBlight (((rrdPacket true).arg 8 5 % 2 ^ 18 + i) / 64) = false) :=
  ⟨waits_of (by decide +kernel), waits_of (by decide +kernel), by decide +kernel⟩

/-- An RRD of barn memory and one that names no memory; lines that wait at the tile's stop, and a full pillar queue. -/
def rrdFar (barn : Bool) : Packet := { packet 0x02 0 (if barn then [(12, 0x20)] else [(12, 0x60)]) [] with len := 8 }
def stopWaits (s : State) : State :=
  s.onTile 0 fun x => { x with stageWait := [⟨.tile 1, 0, 2, .bin 0, 1, ⟨[], false⟩⟩] }

theorem witness_rrd_clauses :
    (∀ b ∈ [true, false], PacketWaits (inbox up (rrdFar b)) 0 0 0x02 (rrdFar b)) ∧
      (rrdFar true).arg 8 5 = 0x2000000000 ∧ (rrdFar false).arg 8 5 = 0x6000000000 ∧ ((inbox up (rrdFar true)).channel 0).lane1 = [] ∧
      ((stopWaits (inbox up (rrdPacket true))).tile ((inbox up (rrdPacket true)).ptileOf 0)).stageWait ≠ [] ∧
      PacketWaits (stopWaits (inbox up (rrdPacket true))) 0 0 0x02 (rrdPacket true) ∧
      ¬ ((pillarOf (List.replicate 16 hostRead) []).pillar 0).queue.length < 16 := by
  refine ⟨fun b hb => ?_, by decide +kernel, by decide +kernel, by decide +kernel, by decide +kernel, waits_of (by decide +kernel),
    by decide +kernel⟩
  simp only [List.mem_cons, List.not_mem_nil, or_false] at hb
  rcases hb with rfl | rfl <;> exact waits_of (by decide +kernel)

/-- A bin read does not pass a line that waits at its stop; a barn read takes the ridge lane; one of no memory is dropped. -/
theorem test_rrd_clauses :
    (after (.rrd 0 ⟨0, Env.none⟩) (stopWaits (inbox up (rrdPacket true)))).headRx 0 0 = some (rrdPacket true) ∧
      ((after (.rrd 0 ⟨0, Env.none⟩) (inbox up (rrdFar true))).channel 0).lane1.length = 1 ∧
      (after (.rrd 0 ⟨0, Env.none⟩) (inbox up (rrdFar false))).headRx 0 0 = none := by decide +kernel

/-- Tile 0's COPY with node 3: one read not answered, one write not placed; an answer for it. -/
def farCopy : Entry := { entry 2 [(0, 1), (14, 3), (15, 0x80)] with unanswered := [0], unplaced := 1 }
def farState (k : Packet) : State := inbox { up with tiles := [(0, { Tile.reset with queue := [farCopy] })] } k

theorem witness_replies :
    (∀ op ∈ [0x03, 0x04], ((farState (packet op 1 [] [])).remoteEntry (replyTile (packet op 1 [] []))).map (·.1) = some farCopy ∧
      replyTile (packet op 1 [] []) < 4352 ∧ (packet op 1 [] []).arg 15 1 = 0 ∧ (packet op 1 [(8, 1)] []).arg 8 1 ≠ 0) ∧
    (farCopy.unanswered.find? fun i => i % 256 = 0) = some 0 ∧ farCopy.unplaced ≠ 0 := by decide +kernel

theorem witness_replies_wait :
    PacketWaits (farState (packet 0x03 1 [] [])) 0 2 0x03 (packet 0x03 1 [] []) ∧
      PacketWaits (farState (packet 0x04 1 [] [])) 0 2 0x04 (packet 0x04 1 [] []) :=
  ⟨waits_of (by decide +kernel), waits_of (by decide +kernel)⟩

theorem test_wack_error : ((after (.wack 0 2) (farState (packet 0x04 1 [(8, 1)] []))).tile 0).fcode = 0x50 := by
  decide +kernel

/-- Crew tally 0 of crew 0 bound at level 1, with two expected and `xs` counted; flag 0 owned by crew 0. -/
def crewed (k : Packet) (xs : List Nat) : State :=
  inbox { up with tally := { TallyNet.reset with
    crew := [(0, { Crew.reset with bound := true, level := 1, expRow := 2, rowCount := xs })]
    flags := [(0, { Flag.reset with kind := 2 })] } } k

theorem witness_crew_packets :
    (∀ p ∈ [(0x18, [(13, 1)]), (0x19, [(8, 1)]), (0x1A, [(13, 1)]), (0x1B, []), (0x18, [(12, 1), (13, 1)])],
      PacketWaits (crewed (packet p.1 2 p.2 []) [1]) 0 4 p.1 (packet p.1 2 p.2 [])) ∧
      PacketWaits (crewed (packet 0x1C 2 [] (1 :: zeros 7)) []) 0 4 0x1C (packet 0x1C 2 [] (1 :: zeros 7)) := by
  refine ⟨fun p hp => ?_, waits_of (by decide +kernel)⟩
  simp only [List.mem_cons, List.not_mem_nil, or_false] at hp
  rcases hp with rfl | rfl | rfl | rfl | rfl <;> exact waits_of (by decide +kernel)

theorem witness_crew_known :
    KnownCrew (crewed (packet 0x18 2 [(13, 1)] []) [1]) (packet 0x18 2 [(13, 1)] []) ∧
      ¬ KnownCrew (crewed (packet 0x18 2 [(12, 1), (13, 1)] []) [1]) (packet 0x18 2 [(12, 1), (13, 1)] []) ∧
      State.crewExp ((crewed (packet 0x18 2 [(13, 1)] []) [1]).crew 0) 1 = 2 ∧
      ((crewed (packet 0x18 2 [(13, 1)] []) [1]).crew 0).level = 1 ∧
      BitVec.ofNat 32 ((packet 0x19 2 [(8, 1)] []).arg 8 4) = ((crewed (packet 0x19 2 [(8, 1)] []) []).crew 0).epoch + 1 ∧
      ((crewed (packet 0x1A 2 [(13, 1)] []) []).crew 0).isLocal = false ∧
      ((crewed (packet 0x1C 2 [] (1 :: zeros 7)) []).flag 0).kind = 2 := by unfold KnownCrew; decide +kernel

theorem test_flagadd : ((after (.flagadd 0 4) (crewed (packet 0x1C 2 [] (1 :: zeros 7)) [])).flag 0).value = 1 := by
  decide +kernel

/-- The walk of dimension `d` as `w`, this module its origin or not, packet `k` at port `p`. -/
def walking (p : Nat) (w : Walk) (origin : Bool) (k : Packet) : State :=
  { (up.onRport p fun q => { q with rx := [k] }) with
    ridge := { (up.onRport p fun q => { q with rx := [k] }).ridge with walks := [(p / 2, w)] }
    straps := { strapsLow with originX := origin, originY := origin, originZ := origin } }

theorem witness_walk_packets :
    PacketWaits (walking 1 .reset false (packet 0x21 3 [] (zeros 8))) 1 6 0x21 (packet 0x21 3 [] (zeros 8)) ∧
      PacketWaits (walking 0 .reset false (packet 0x20 3 [(10, 1)] (zeros 8))) 0 6 0x20 (packet 0x20 3 [(10, 1)] (zeros 8)) ∧
      PacketWaits (walking 0 { Walk.reset with begun := true, pEnd := some 30 } true (packet 0x22 3 [(8, 4), (9, 0xFF)] (zeros 8)))
        0 6 0x22 (packet 0x22 3 [(8, 4), (9, 0xFF)] (zeros 8)) ∧
      PacketWaits (walking 5 { Walk.reset with begun := true } false (packet 0x23 3 [(9, 31), (10, 1)] (zeros 8))) 5 6 0x23
        (packet 0x23 3 [(9, 31), (10, 1)] (zeros 8)) :=
  ⟨waits_of (by decide +kernel), waits_of (by decide +kernel), waits_of (by decide +kernel), waits_of (by decide +kernel)⟩

/-- A port that was not up when the walk began is no port of the ring; a LINKDOWN tells the far end of a link what has come. -/
def toldPacket : Packet := packet 0x24 3 [(9, 0x3F), (10, 5), (11, 0x10)] []

theorem witness_walk_clauses :
    (walking 1 { Walk.reset with begun := true, upN := true } false (packet 0x21 3 [] (zeros 8))).portPresent 1 = true ∧
      (walking 1 { Walk.reset with begun := true } false (packet 0x21 3 [] (zeros 8))).portPresent 1 = false ∧
      (walking 0 { Walk.reset with begun := true } false (packet 0x22 3 [] (zeros 8))).portPresent 0 = false ∧
      PacketWaits (inbox up toldPacket) 0 6 0x24 toldPacket ∧ (toldPacket.arg 10 2).testBit 12 = true ∧
      (toldPacket.arg 9 1).testBit 5 = true ∧ up.coord 0 = (toldPacket.arg 9 1 % 32 + 1) % up.ringLen 0 ∧
      (inbox up toldPacket).linkAlive 1 = true ∧ ((inbox up toldPacket).rport 1).awaitingRxseq = false :=
  ⟨by decide +kernel, by decide +kernel, by decide +kernel, waits_of (by decide +kernel), by decide +kernel⟩

theorem test_walk_clauses :
    ((after (.furrow 1 6) (walking 1 { Walk.reset with begun := true } false (packet 0x21 3 [] (zeros 8)))).walk 0).token = false ∧
      ((after (.linkdownPkt 0 6) (inbox up toldPacket)).rport 1).told = some 0x5 := by decide +kernel

/-- The walk of another dimension goes on; the peer of a port on an addressed ring lies where it should not. -/
theorem witness_other_walks :
    (∃ x, x < 3 ∧ x ≠ 2 ∧ ((walking 5 { Walk.reset with begun := true } false (packet 0x23 3 [(9, 31), (10, 1)] (zeros 8))).walk
      x).ended = false) ∧
      (inbox (linkIn 2) (packet 0x20 3 [(8, 5), (9, 0x80), (10, 1)] (zeros 8))).peerFits 0 5 = false ∧
      (inbox (linkIn 2) (packet 0x20 3 [(8, 5), (9, 0x80), (10, 1)] (zeros 8))).linkState 0 = 2 ∧
      ((packet 0x20 3 [(8, 5), (9, 0x80), (10, 1)] (zeros 8)).arg 8 2).testBit 15 = true := by decide +kernel

theorem test_coord_mismatch :
    ((after (.lhello 0 6) (inbox (linkIn 2) (packet 0x20 3 [(8, 5), (9, 0x80), (10, 1)] (zeros 8)))).rport 0).mgmtOnly =
      true := by decide +kernel

theorem witness_walks :
    (∀ n ∈ [0, 31, 255], byteCount n + 1 = (if n = 255 then 0 else (n : Int) + 1)) ∧
      (walking 1 { Walk.reset with begun := true } false (packet 0x21 3 [] (zeros 8))).isOrigin 0 = false ∧
      (packet 0x21 3 [(8, 4)] (zeros 8)).arg 8 1 = 4 ∧
      (walking 0 { Walk.reset with begun := true, pEnd := some 30 } true (packet 0x22 3 [(8, 4), (9, 0xFF)] (zeros 8))).isOrigin 0 =
        true ∧ 30 + (-byteCount ((packet 0x22 3 [(8, 4), (9, 0xFF)] (zeros 8)).arg 9 1)).toNat + 1 = 32 ∧
      (packet 0x20 3 [(10, 1)] (zeros 8)).arg 10 1 % 8 = otherPort 0 ∧
      (packet 0x20 3 [(10, 2)] (zeros 8)).arg 10 1 % 8 ≠ otherPort 0 ∧
      (packet 0x20 3 [(9, 0x80), (10, 1)] (zeros 8)).arg 8 2 = 0x8000 := by decide +kernel

theorem test_lhello_miscabled :
    ((after (.lhello 0 6) (walking 0 .reset false (packet 0x20 3 [(10, 2)] (zeros 8)))).rport 0).miscabled = true := by
  decide +kernel

/-- A break reported on an addressed ring, and a SEAL of another module and this module's own. -/
theorem witness_breaks_seals :
    PacketWaits (inbox (linkIn 2) (packet 0x24 3 [(9, 0x20)] [])) 0 6 0x24 (packet 0x24 3 [(9, 0x20)] []) ∧
      PacketWaits (inbox up (packet 0x25 0 [] [])) 0 0 0x25 (packet 0x25 0 [] []) ∧
      (inbox (linkIn 2) (packet 0x24 3 [(9, 0x20)] [])).ringAddressed 0 = true ∧
      (inbox (linkIn 2) (packet 0x24 3 [(9, 0x20)] [])).breaks 0 = [] ∧
      (∀ d, d < 3 → up.breaks d = []) ∧ (inbox up (packet 0x25 0 [] [])).ownSeal (packet 0x25 0 [] []) = true ∧
      (inbox up (packet 0x25 0 [(9, 1)] [])).ownSeal (packet 0x25 0 [(9, 1)] []) = false ∧
      takeFirst (fun (x : Sealing) => decide (x.dim = 0 ∧ x.cls = 0)) [⟨0, 0, []⟩] = some (⟨0, 0, []⟩, []) :=
  ⟨waits_of (by decide +kernel), waits_of (by decide +kernel), by decide +kernel⟩

/-- A packet of an OP that is not defined; an entry and a gate that wait for another module; an override; a purge. -/
theorem witness_bad_and_timeouts :
    (packet 0x7F 0 [] []).bad = true ∧ (packet 0x24 3 [(9, 0x20)] []).bad = false ∧
      ((farState (packet 0x04 1 [] [])).remoteEntry 0).map (fun x => decide (x.1.unanswered ≠ [])) = some true ∧
      (let s := { up with tiles := [(0, { Tile.reset with gate :=
        { phase := .acking, held := [], receivers := [], awaiting := [.remote 3 9] } })] }
       (s.tile 0).gate.awaiting = [.remote 3 9] ∧ (s.tile 0).core ≠ .faulted) ∧
      (aborted.tile 0).gate.awaiting = [] ∧ (aborted.tile 0).aborts = [(.remote 3 9, 0)] ∧
      (0x80000000 : BitVec 32).getLsbD 31 = true ∧ (0x8003 : BitVec 32).getLsbD 15 = true := by decide +kernel

theorem test_ridge_timeout : ((after (.ridgeTimeout 0 2) (farState (packet 0x04 1 [] []))).tile 0).fcode = 0x51 := by
  decide +kernel
/-- With no ridge link up, so that nothing is sent. -/
theorem test_override :
    (after (.ridgeOverride 0 0x80000403) (after (.linkDown 0) (after (.linkDown 1) (after (.linkDown 2)
      (after (.linkDown 3) (after (.linkDown 4) (after (.linkDown 5) up))))))).node = 0x403 := by decide +kernel
theorem test_packet_bad : (after (.packetBad 0 0) (inbox up (packet 0x7F 0 [] []))).getF (ridgeBase 0 + 0x14) 31 31 = 1 := by
  decide +kernel

/-! ### The steward -/

/-- A manifest of one section, OPPOINTS, of SEQ 1 and key 2 on P-521, signed with another program's ECDSA. -/
def image : List Byte :=
  leBytes 48 0x200000190000000000000000100010001464d434a ++
    leBytes 48 0x9c402ee09c402bc0000000000000030000000500000000500000000000000000000000000000000 ++
    leBytes 48 0x488128cb2f687e7e272490213c4300040000000000000000000000000000000000000000000000000000000000000000 ++
    leBytes 48 0xba33393ef467d90fd664a32fcf41afc5353a4a10aa0755f56eda04b2b397be69d705556e2c3506cc1c9b2703747482c2 ++
    leBytes 48 0x7f93936b1f259fde77e3b3bb2dc40699a221ab4077a94d7c10b5c6b5f0d3eeeeecf3a70067b26df8c78cbbf4003d786d ++
    leBytes 48 0x3d125b6e2ab5799495b5646a1dd95d1929de4324353da701000000021bf461d656e31bf7f4c0ed95befceaf448329aa9 ++
    leBytes 48 0xc58b53eac4017dad37de2e9d91a505ea322c8690b4ae1be29fb516bda61d0532483a4a163fadd18d7a2d117aade5b99a ++
    leBytes 48 0x23e81749b81894620f1a140c21b3c709239f247193e6304283b59226e504c92662352312adfdf4bbdb6aaa9edc5f50a2 ++
    leBytes 16 0xee3ea570552de90685d01968

/-- A debug token for serial 0, nonce 5 and both scopes, signed with the same key. -/
def token : List Byte :=
  leBytes 48 0x300000000000000000000000000000000000000000000000000000000000000050000000000000000 ++
    leBytes 48 0x9fb516bda61d0532483a4a163fadd18d7a2d117aade5b99a3d125b6e2ab5799495b5646a1dd95d1929de4324353da701 ++
    leBytes 48 0x1d76a1239f7e6dce7c72048f30d3ebc22174e9022f7e5a0f750f050ac5017dad37de2e9d91a505ea322c8690b4ae1be2 ++
    leBytes 48 0x2f687e7e272490213c43000437b9d388d3ca2df858232bee8155bdddd95974aa5ef9ccc7a058ab2e42e575fa819a5772 ++
    leBytes 48 0xf467d90fd664a32fcf41afc5353a4a10aa0755f56eda04b2b397be69d705556e2c3506cc1c9b2703747482c2488128cb ++
    leBytes 48 0x1f259fde77e3b3bb2dc40699a221ab4077a94d7c10b5c6b5f0d3eeeeecf3a70067b26df8c78cbbf4003d786dba33393e ++
    leBytes 25 0x21bf461d656e31bf7f4c0ed95befceaf448329aa97f93936b

/-- The SHA-512 of that key's public half, as the fuses hold it. -/
def keyHash : BitVec 512 :=
  (0xd27be68c07755a704a5b5ca39f8fd794#128 ++ 0x715778ace10c78b7cd8a656de53f44e9#128 ++ 0xb9fe51b6cd09880b3719263da069f8c2#128 ++ 0x93f6310d053cf0feedba2d55f3ba9fa7#128)

/-- Fuses that trust the key, no tile's compute logic having passed its test. -/
def keyFuses : Fuses := { fusesReset with mkeyHash := keyHash, dkeyHash := keyHash, cen := 0 }

theorem image_valid : mfValid keyFuses image = true := by
  have h1 : mfHeaderOk keyFuses image = true := by decide +kernel
  have h2 : mfSectionsOk image = true := by decide +kernel
  have h3 : mfSigOk keyFuses image = true := by decide +kernel
  have h4 : ([1, 2, 3].all fun type => (mfWrites image type).all (writeEntryOk type)) = true := by decide +kernel
  have h5 : mfRepairsOk keyFuses image = true := by
    have hr : mfRepairs image = [] := by decide +kernel
    have hw : mfRepairRaw image = [] := by decide +kernel
    have hc : keyFuses.cen = 0#4096 := rfl
    simp [mfRepairsOk, hr, hw, hc]
  have h6 : (mfOpSections image).all (opPointsOk keyFuses) = true := by decide +kernel
  simp only [mfValid, h1, h2, h3, h4, h5, h6, Bool.and_self]

/-- One bit changed, the signature does not match (FIPS 186-4). -/
theorem test_signature_refused : mfSigOk keyFuses (setAt image 8 2) = false := by decide +kernel
/-- The first bytes of the digest of "abc" (FIPS 180-4). -/
theorem test_sha512 : (sha512 [0x61, 0x62, 0x63]).take 4 = [0xDD, 0xAF, 0x35, 0xA1] := by decide +kernel

/-- A boot whose stages before `n` are done, and the stage's manifest is `m`. -/
def bootIn (kind : BootKind) (n : Nat) (m : List Byte) : State :=
  { (State.reset.setF 0x1040 3 0 n) with
    fuses := keyFuses
    st := { Steward.reset with perst0 := false, perst1 := false, boot := kind, booting := true, manifest := m } }

/-- The flash with `a` and `b` in its slots. -/
def flashed (s : State) (a b : List Byte) : State := { s with st := { s.st with flash := ⟨true, a, b, []⟩ } }

theorem witness_pins :
    up.st.powered = true ∧ up.st.thermtrip = false ∧ up.st.tapStopped = false ∧ up.st.perst0 = false ∧
      up.st.perst1 = false ∧ State.reset.st.perst0 = true ∧ State.reset.st.perst1 = true ∧
      (after .pwrOkFall up).st.powered = false ∧ up.awake = true ∧ 2 ≤ up.stage ∧
      ({ up with st := { up.st with perst1 := true } } : State).awake = true := by decide +kernel

/-- A boot without the core's clock, with TESTEN high, with no link clock and with PERST# on H1 asserted; pins without power. -/
def strapped (x : Straps) (p1 : Bool) : State :=
  { bootIn .full 1 [] with straps := x, st := { (bootIn .full 1 []).st with perst1 := p1 } }

theorem witness_pin_clauses :
    ({ bootIn .full 0 [] with straps := { strapsLow with refC := false } } : State).straps.refC = false ∧
      (strapped strapsLow false).awake = true ∧ (strapped strapsLow false).st.linked = false ∧
      (strapped strapsLow false).fullBoot = true ∧ 1 ≤ (strapped strapsLow false).stage ∧
      (strapped { strapsLow with testen := true } false).straps.testen = true ∧ up.st.linked = true ∧
      ({ up with st := { up.st with powered := false } } : State).st.perst0 = false ∧
      ({ up with st := { up.st with perst1 := true } } : State).st.linked = true ∧
      State.reset.st.perst1 = true ∧ State.reset.st.linked = false ∧ tripped.st.thermtrip = true := by decide +kernel

/-- Host links that have no clock, or are held in reset, do not train; fuses are not sensed without the core's clock, and with
TESTEN high the boot stops after them. -/
theorem test_pin_clauses :
    (after .bootLinkStart (strapped { strapsLow with refH1 := false } false)).getF (State.linkReg 1) 2 0 = 0 ∧
      (after .bootLinkStart (strapped strapsLow true)).getF (State.linkReg 1) 2 0 = 3 ∧
      (after .bootLinkStart (strapped strapsLow false)).getF (State.linkReg 0) 2 0 = 1 ∧
      (after (.bootFuseSense fusesReset) { bootIn .full 0 [] with straps := { strapsLow with refC := false } }).stage = 0 ∧
      (after (.bootFuseSense fusesReset) { bootIn .full 0 [] with straps := { strapsLow with testen := true } }).st.booting = false ∧
      (after .perst1Deassert { up with st := { up.st with perst1 := true } }).getF (State.linkReg 1) 2 0 = 1 := by decide +kernel

theorem test_perst_starts_boot : (after (.perst0Deassert strapsLow) State.reset).st.booting = true ∧
    (after (.perst0Deassert strapsLow) up).st.booting = false := by decide +kernel

theorem witness_boot_stages :
    (∀ n ∈ [0, 1, 3, 4], (bootIn .full n []).bootAt n = true) ∧ (bootIn .full 0 []).fullBoot = true ∧
      (bootIn .warm 0 []).fullBoot = false ∧ (bootIn .warm 0 []).bootAt 0 = true ∧ (bootIn .full 2 []).bootAt 2 = true ∧
      up.bootAt 0 = false ∧
      (flashed (bootIn .full 3 []) image []).pickSlot = some 0 ∧ (flashed (bootIn .full 3 []) [] image).pickSlot = some 1 ∧
      (flashed (bootIn .full 3 []) [] []).pickSlot = none ∧
      (flashed (bootIn .full 4 (setAt image 0 0)) image []).candidates = [0] ∧
      (flashed (bootIn .full 4 (setAt image 0 0)) image image).candidates = [0, 1] ∧
      mfHeaderOk keyFuses (setAt image 0 0) = false := by decide +kernel

/-- Fuses of a part, already sensed or not; those of a reserved grade, and a CM384 with a tile that did not pass. -/
theorem witness_fuses :
    State.fusesOk fusesReset = true ∧ (bootIn .full 0 []).sensed = false ∧
      ({ bootIn .full 0 [] with sensed := true } : State).bootAt 0 = true ∧
      State.fusesOk { fusesReset with grade := 0 } = false ∧ State.fusesOk keyFuses = false := by
  decide +kernel

theorem test_boot_fuse_sense : (after (.bootFuseSense fusesReset) (bootIn .full 0 [])).stage = 1 ∧
    (after (.bootFuseSense fusesReset) { bootIn .full 0 [] with sensed := true }).fuses = keyFuses := by decide +kernel

/-- A manifest (not signed) with one write entry that waits until register 0 reads `v`. -/
def waitImage (v : Nat) : List Byte :=
  [0x4A, 0x43, 0x4D, 0x46, 1, 0, 1, 0] ++ zeros 8 ++ leBytes 4 368 ++ zeros 44 ++ [1, 0, 0, 0, 80, 0, 0, 0, 16, 0, 0, 0] ++
    zeros 8 ++ [0xFF, 0xFF, 0xFF, 0xFF] ++ leBytes 4 v ++ [1, 0, 0, 0]

/-- The boot in stage `n` at that manifest with `k` entries done. -/
def waitBoot (n k v : Nat) : State :=
  let s := bootIn .full (n - 1) (waitImage v)
  { s with st := { s.st with applied := k } }

theorem witness_boot_apply :
    ((waitBoot 6 0 0x12345678).bootAt 5 = true ∧ (waitBoot 6 0 0x12345678).st.commanded = false ∧ (waitBoot 6 0 0x12345678).entryWaits = true) ∧
      (waitBoot 6 1 1).stageEntries.drop (waitBoot 6 1 1).st.applied = [] ∧ (waitBoot 6 1 1).opPoints = none ∧
      (waitBoot 6 1 1).st.settling = [] ∧ (waitBoot 6 1 1).entryWaits = false ∧
      ((flashed (waitBoot 6 0 0x12345678) [] image).st.fellBack = false ∧
        1 - (flashed (waitBoot 6 0 0x12345678) [] image).st.slot ∉ (flashed (waitBoot 6 0 0x12345678) [] image).st.triedSlots ∧
        (flashed (waitBoot 6 0 0x12345678) [] image).slotBytes 1 = image) ∧
      (let s := { waitBoot 6 1 1 with st := { (waitBoot 6 1 1).st with settling := [(15, true)] } }
       s.bootAt 5 = true ∧ s.railWaits 15 = true) ∧
      (waitBoot 7 0 1).bootAt 6 = true ∧ (waitBoot 7 0 1).stageEntries = [] ∧ (waitBoot 7 0 1).fullBoot = true ∧
      (waitBoot 8 0 1).bootAt 7 = true ∧ (waitBoot 9 0 1).bootAt 8 = true ∧ (waitBoot 9 0 1).stageEntries = [] ∧
      (waitBoot 10 0 1).bootAt 9 = true ∧ (bootIn .warm 9 []).bootAt 9 = true := by decide +kernel

theorem test_boot_apply_waits : (after .bootApply (waitBoot 6 0 0x12345678)).st.applied = 0 := by decide +kernel
theorem test_field_ready : (after .bootFieldReady (bootIn .warm 9 [])).st.booting = false ∧
    (after .bootFieldReady (waitBoot 10 0 1)).st.fieldActive = true := by decide +kernel

theorem witness_boot_walk :
    (bootIn .full 10 []).bootAt 10 = true ∧ (∀ p, p < 6 → (bootIn .full 10 []).linkState p ≠ 2) ∧
      (∀ d, d < 3 → ((bootIn .full 10 []).walk d).begun = false ∧ ((bootIn .full 10 []).walk d).ended = false) ∧
      (let s := { bootIn .full 10 [] with ridge := { Ridge.reset with walks := [(2, { Walk.reset with begun := true })] } }
       (s.walk 2).begun = true ∧ (s.walk 2).ended = false ∧ (s.walk 2).token = false) := by decide +kernel

theorem test_walk_alone : (after .furrowWalkStart (bootIn .full 10 [])).stage = 11 ∧
    (after .furrowWalkStart (bootIn .full 10 [])).ringState 2 = 1 := by decide +kernel

/-! ### Live changes, resets, temperatures -/

theorem witness_live_changes :
    (∀ v ∈ [0x80000000, 0x80000007], (BitVec.ofNat 32 v).getLsbD 31 = true ∧ (v % 8 = 0 ∨ v % 8 = 7)) ∧ up.st.upkeep = none ∧
      (doing up 1 0 .queued).st.upkeep ≠ none ∧ Doing (doing up 3 0 (.ended 15)) 3 0 (.ended 15) ∧
      (doing up 3 0 (.ended 15)).st.resetWaiting = [] ∧ Doing (doing up 2 0 .quiescing) 2 0 .quiescing ∧
      up.allStopped (up.liveGangs fun t => decide (t = up.ptileOf 0)) = true ∧
      (doing (atWork .running false 1) 2 0 .quiescing).allStopped
        ((doing (atWork .running false 1) 2 0 .quiescing).liveGangs fun t => decide (t = 0)) = false := by
  unfold Doing; decide +kernel

theorem witness_live_bar (h : Nat) (hh : h < 2) (p : Page) : BarReady (doing up 1 0 .queued) h p :=
  witness_bar_of (doing up 1 0 .queued) (by dsimp only [doing]) (by dsimp only [doing]) (by dsimp only [doing]) h hh p

/-- OP 3 of channel 0: served, with a fence asked for, and with the channel DEAD. -/
def retraining (dead fence : Bool) : State :=
  { up with
    channels := [(0, { Channel.reset with dead })]
    fence := { Fence.reset with queue := if fence then [⟨0, false, false, false, false⟩] else [] } }

theorem witness_op3 :
    (∀ d ∈ [true, false], ((retraining d false).channel ((retraining d false).reg 0x1050 % 64)).dead = d) ∧
      (retraining false false).upkeepFree = true ∧ (retraining false true).upkeepFree = false ∧
      (0x80000003 : BitVec 64).toNat % 8 = 3 ∧ (0x80000003 : BitVec 64).getLsbD 31 = true := by decide +kernel

theorem test_op3 :
    (after (.registerWrite 0 0x1048 4 0x80000003) (retraining false false)).st.upkeep = some ⟨3, 0, .changing⟩ ∧
      (after (.registerWrite 0 0x1048 4 0x80000003) (retraining false true)).st.upkeep = some ⟨3, 0, .queued⟩ ∧
      (after (.registerWrite 0 0x1048 4 0x80000003) (retraining true false)).st.upkeep = some ⟨3, 0, .ended 5⟩ := by decide +kernel

theorem test_upkeep_done : (after .upkeepDone (doing up 3 0 (.ended 5))).getF 0x1058 1 0 = 3 := by decide +kernel

theorem witness_tile_swap :
    (doing up 2 4095 .queued).upkeepFree = true ∧ (doing up 2 4095 .queued).freeSpare 4095 ≠ none ∧
      (doing (atWork .running false 1) 2 0 .queued).sparesFor 0 ≠ [] ∧
      (let s := doing { up with fence := { Fence.reset with fallow := ((List.range 16).map (· + 256)).map (·, true) } } 2 0 .queued
       s.sparesFor 0 = []) := by decide +kernel

theorem witness_manifest_stage :
    (∀ arg ∈ [0x2000000020, 0x1FFFFFFFC0, 0x5FFFFFFFC0 + 65 * 2 ^ 40],
      arg % 2 ^ 39 % 64 ≠ 0 ∨ arg % 2 ^ 39 < 0x2000000000 ∨ 0x6000000000 < arg % 2 ^ 39 + bits arg 63 40) ∧
    (let s := doing up 5 (0x5FFFFFFF80 + 128 * 2 ^ 40) .queued
     s.upkeepFree = true ∧ (∀ k, k < 2 → CleanBarn s (0x5FFFFFFF80 + 64 * k)) ∧ bits (0x5FFFFFFF80 + 128 * 2 ^ 40) 63 40 = 128) ∧
    serialGT 32 (mfSeq image) (up.reg 0x1044) = true := by unfold CleanBarn; decide +kernel

/-- The lines of the image that have been read: all of `image`'s first line, and none. -/
def staging (ph : JobPhase) (got : Option (List (Nat × Line))) : State :=
  let s := doing up 5 (0x2000000000 + 64 * 2 ^ 40) ph
  { s with st := { s.st with image := got, flash := ⟨true, image, image, []⟩ } }

theorem witness_stage_parts :
    (staging .reading (some [])).stagedImage 64 = none ∧
      (∀ ph ∈ [JobPhase.reading, .changing], (staging ph (some [(0, ⟨zeros 64, false⟩)])).stagedImage 64 = some (zeros 64) ∧
        Doing (staging ph (some [(0, ⟨zeros 64, false⟩)])) 5 (0x2000000000 + 64 * 2 ^ 40) ph) ∧
      min (bits (0x2000000000 + 64 * 2 ^ 40) 63 40) 0x800000 = 64 ∧ (staging .queued none).upkeepFree = true := by
  unfold Doing; decide +kernel

/-- The reads go out; an image that is not valid leaves the slot so; one that does not read back alike too. -/
theorem test_stage_parts :
    ((after (.manifestStage Env.none true) (staging .queued none)).channel 0).lane2 = [⟨.image 0, .read, 0x2000000000, false⟩] ∧
      (after (.manifestStage Env.none true) (staging .reading (some [(0, ⟨zeros 64, false⟩)]))).st.flash.slotB = [] ∧
      (after (.manifestStage Env.none true) (staging .changing (some [(0, ⟨zeros 64, false⟩)]))).st.flash.slotB = zeros 64 ∧
      (after (.manifestStage Env.none false) (staging .changing (some [(0, ⟨zeros 64, false⟩)]))).st.flash.slotB = [] := by
  decide +kernel

/-- The manifest in force gives points 0 and 1. -/
def vfState (ph : JobPhase) (arg : Nat) (waits : Bool) : State :=
  doing { up with st := { up.st with manifest := image, settling := if waits then [(15, true)] else [] } } 6 arg ph

theorem witness_vf_set :
    (vfState .queued 0x10F false).upkeepFree = true ∧ (vfState .queued 0x10F false).liveGangs (fun t => decide (paddockOf t = 15)) = [] ∧
      (vfState .queued 0x10F false).point (bits 0x10F 10 8) = some (750, 2500) ∧
      (vfState .queued 0x10F false).point (bits 0x20F 10 8) = none ∧ (vfState .queued 0x10F false).vddtOf 15 ≠ 750 ∧
      (vfState .queued 0xF false).point (bits 0xF 10 8) = some (700, 2500) ∧ (vfState .queued 0xF false).vddtOf 15 = 700 ∧
      (vfState .changing 0x10F true).railWaits 15 = true ∧ (vfState .changing 0x10F true).bootAt 5 = false ∧
      (vfState .restoring 0x10F true).railWaits 15 = true ∧ (vfState .queued 0 false).railWaits 15 = false := by
  decide +kernel

/-- Commanding a rail reads the format of its voltages once; a sweep of another paddock goes on beside it. -/
theorem witness_rails :
    (vfState .changing 0x10F true).st.sweep ≠ some 15 ∧ SMap.look 0 up.st.voutMode 15 = 0 ∧
      (let s := { up with st := { up.st with settling := [(15, true)] } }
       s.railWaits 15 = true ∧ s.st.upkeep = none) := by decide +kernel

theorem test_rails : (up.commandRail 15 750).out.length = 2 ∧ ((up.commandRail 15 750).pollRail 15).out.length = 4 := by
  decide +kernel

theorem test_vf_set :
    (after .vfSet (vfState .queued 0x10F false)).vddtOf 15 = 750 ∧
      (after (.vrSettled 15) (vfState .changing 0x10F true)).opPointOf 15 = 1 := by decide +kernel

theorem witness_plls :
    (up.setF ((Page.clock 37).base + 0x40) 16 16 1).getF ((Page.clock 37).base + 0x40) 16 16 = 1 ∧
      (stopped 39).pllLost 39 = true ∧ (stopped 39).st.thermtrip = false ∧ (stopped 39).awake = true ∧
      (stopped 39).warmBusy = false ∧ up.pllLost 0 = false := by decide +kernel

theorem test_pll_unlock :
    (after (.pllUnlock 37) (up.setF ((Page.clock 37).base + 0x40) 16 16 1)).pllLost 37 = true ∧
      (after (.pllUnlock 38) (up.setF ((Page.clock 38).base + 0x40) 16 16 1)).pllLost 38 = false := by decide +kernel

/-- A warm reset, a paddock reset of the last paddock, with work on it, and a reset while a warm one runs. -/
theorem witness_reset_requests :
    (0x80000001 : BitVec 32).toNat % 4 = 1 ∧ (0x800000F2 : BitVec 32).toNat % 4 = 2 ∧ bits (0x800000F2 : BitVec 32).toNat 7 4 = 15 ∧
      up.warmBusy = false ∧ SMap.sorted up.regs = true ∧ up.workedOn 15 = false ∧
      ({ up with st := { up.st with sweep := some 15 } } : State).workedOn 15 = true ∧
      ({ up with st := { up.st with booting := true, boot := .warm } } : State).warmBusy = true := by decide +kernel

theorem test_paddock_reset_waits :
    (after (.paddockReset 0 0x800000F2) { up with st := { up.st with sweep := some 15 } }).st.resetWaiting = [15] := by
  decide +kernel

/-- Every sensor at `n` degrees. -/
def readings (n : Nat) : Readings :=
  { base := List.replicate 16 n, field := List.replicate 128 n, barn := List.replicate 32 n }

theorem witness_temperatures :
    State.hottest (readings 105) ≤ 105 ∧ 105 < State.hottest (readings 106) ∧
      State.fieldReading (readings 96) 15 = 96 := by
  decide +kernel

theorem test_temperature_keeps_refresh :
    (after (.tempSample (readings 95)) up).getF ((Page.paddock 15).base + 0x44) 8 8 = 0 := by decide +kernel

/-- A module under reset samples nothing; one that heat has stopped does. -/
theorem witness_sampling :
    State.reset.st.powered = true ∧ up.st.perst0 = false ∧
      ({ tripped with st := { tripped.st with perst0 := true } } : State).st.thermtrip = true := by decide +kernel

theorem test_sampling : (after (.tempSample (readings 80)) State.reset).st.temps = State.reset.st.temps := by decide +kernel

/-- Intervals that are to halve do so at the next due time. -/
theorem test_hot_at_due_time :
    (after (.refreshDue 4351 0) { up with st := { up.st with hotNext := [(15, true)] } }).getF
      ((Page.paddock 15).base + 0x44) 8 8 = 1 := by decide +kernel

/-! ### The test port -/

/-- The port has given out nonce 5. -/
def portWithNonce : State := { up with fuses := keyFuses, st := { up.st with nonce := some 5 } }

theorem witness_unlock :
    portWithNonce.tokenOk token = true ∧ portWithNonce.tokenOk (setAt token 8 6) = false ∧ portWithNonce.awake = true := by
  decide +kernel

theorem test_unlock :
    (after (.unlock token) portWithNonce).st.scopes = 3 ∧ (after (.unlock (setAt token 8 6)) portWithNonce).st.nonce = none := by
  decide +kernel

/-- The straps select static address 0x30; one address is held already, or none. -/
theorem witness_i3c :
    (0x30 : BitVec 7).toNat = 0x30 + up.straps.i3cSa.toNat ∧ up.st.i3c ≠ none ∧ (0x31 : BitVec 7).toNat ≠ 0x30 + up.straps.i3cSa.toNat ∧
      ({ up with st := { up.st with i3c := none } } : State).st.i3c = none := by decide +kernel

theorem test_i3c :
    let s := { up with st := { up.st with i3c := none } }
    (after (.dynamicAddressAssignment 9 (.setdasa 0x30)) s).st.i3c = some 9 ∧
      (after (.dynamicAddressAssignment 9 (.setdasa 0x31)) s).st.i3c = none ∧
      (after (.dynamicAddressAssignment 9 (.setdasa 0x30)) up).st.i3c = some 1 ∧
      (after (.dynamicAddressAssignment 9 .entdaa) up).st.i3c = some 9 := by decide +kernel

theorem witness_test_port :
    (after .extest up).st.tapStopped = true ∧ (after .extest up).st.perst0 = false ∧ (after .extest up).st.thermtrip = false ∧
      (after .pwrOkFall up).st.powered = false := by decide +kernel

/-! ### Register pages -/

theorem witness_pages : IsPage .global ∧ IsPage (.tile 4351) ∧ IsPage (.host 1) ∧ IsPage (.ridge 5) ∧ IsPage (.barn 63) ∧
    IsPage (.clock 39) ∧ IsPage (.doorbell 63) := by unfold IsPage; decide +kernel

/-- A masked cause; ERR_FIRST taken, and ERR_NEXT too; a page that can quiesce and one that cannot. -/
theorem witness_causes :
    (((up.setReg 0x1C 0x2).reg ((Page.global).base + 0x1C)).testBit (Cause.unmapped).row.2.1 = true) ∧
      (up.reg ((Page.global).base + 0x1C)).testBit (Cause.unmapped).row.2.1 = false ∧
      up.getF ((Page.global).base + 0x14) 31 31 = 0 ∧
      (after (.unmapped 0 0x3FFFFFC false) up).getF 0x14 31 31 = 1 ∧
      (after (.unmapped 0 0x3FFFFFC false) (after (.unmapped 0 0x3FFFFFC false) up)).getF 0x18 31 31 = 1 ∧
      Page.global.caps.2.1 = false ∧ (Page.doorbell 0).caps.2.1 = true ∧ Cause.unmapped ∈ Page.global.causes ∧
      (∀ c ∈ Page.global.causes, c.row.1 ≠ 0xFF) := by decide +kernel

theorem test_err_overflow :
    (after (.unmapped 0 0x3FFFFFC false) (after (.unmapped 0 0x3FFFFFC false) (after (.unmapped 0 0x3FFFFFC false) up))).getF
      0x18 9 9 = 1 := by decide +kernel

/-- A reserved offset, a width that is wrong, a 32-bit and a 64-bit register. -/
theorem witness_registers :
    State.unmappedAt 0x3FFFFFC = true ∧ State.unmappedAt 0x3FFFFF8 = true ∧ State.badAccess 0x3FFFFF8 8 = true ∧ State.unmappedAt 0x3078 = false ∧ State.badAccess 0x3078 2 = true ∧
      (regAt .tithe 0x78).map (fun x => (x.1.width, x.2)) = some (64, 0x78) ∧
      (regAt .tithe 0x54).map (fun x => (x.1.width, x.2)) = some (32, 0x54) := by decide +kernel

theorem test_counter_clear :
    (after (.counterClear 0 0x3078 8 (BitVec.allOnes 64)) (up.setReg 0x3078 7)).reg 0x3078 = 0 ∧
      (after (.counterClear 0 0x3078 8 0) (up.setReg 0x3078 7)).reg 0x3078 = 7 := by decide +kernel
/-- Head 0 with the lower half of FLOG's base waiting; head 0 in D3hot. -/
def halfWritten : State := up.onHost 0 fun p => { p with pendingLow := some (0x5048, 0x40) }
def sleeping : State := up.onHost 0 fun p => { p with headRegs := [(State.pmcsr, 3)] }

theorem witness_head_registers :
    (halfWritten.host 0).pendingLow = some (0x5048, 0x40) ∧ halfWritten.inD0 0 = true ∧ halfWritten.headUp 0 = true ∧
      (halfWritten.reg 0x1C).testBit (Cause.accessWidth).row.2.1 = false ∧ sleeping.inD0 0 = false ∧
      sleeping.headUp 0 = true ∧ up.configReady = true ∧ (linkIn 1).headUp 0 = true ∧
      (let s := { up with st := { up.st with linked := false } }
       s.configReady = false ∧ s.headUp 0 = true) := by decide +kernel

/-- The write that gives up the half logs it, though it clears ERR_FIRST; MSI-X is enabled by a configuration write. -/
theorem test_head_registers :
    (after (.errClear 0 0x14 0x80000000) halfWritten).getF 0x14 31 31 = 1 ∧
      ((after (.registerWrite 0 (State.configBase + 0xB0) 4 0x80000000) up).host 0).msixEnable = true ∧
      (after (.accessWidth 0 0x3078 4 false) sleeping).out.getLast? = some (.bar0 0 (BitVec.allOnes 64)) := by
  decide +kernel

/-- While HCLK stands still a head does nothing. -/
theorem witness_heads_stand :
    (stopped 36).pllLost 36 = true ∧ (regAt (.host 1) 0x60).map (·.2) = some 0x60 := by
  decide +kernel

theorem test_heads_stand :
    (after (.registerWrite 0 0x5048 8 0x40) (stopped 36)).reg 0x5048 = 0 ∧
      (after (.accessWidth 0 0x5048 8 false) (stopped 36)).out = [] := by decide +kernel

/-- The class code of a CXL memory device is read from configuration space (R368). -/
theorem test_config_read :
    (after (.accessWidth 1 (State.configBase + 8) 4 false) up).out.length = 1 := by decide +kernel

theorem test_half_write_waits :
    ((after (.registerWrite 0 0x5048 4 0x40) up).host 0).pendingLow = some (0x5048, 0x40) := by decide +kernel

end Sys2Proof.Tests
end

/-! ## Every command is guarded by the units it names (R18, R20, R461) -/

namespace Sys2Proof.Machine

/-- The answer `r` turns on the guard `ok` alone: some state is next where the guard holds, and `noSuchUnit` stops the
machine where it does not. -/
def GuardedBy (ok : Bool) (r : Res) : Prop := ∃ s', r = guardUnit ok s'

theorem guardUnit_guardedBy (ok : Bool) (s : State) : GuardedBy ok (guardUnit ok s) := ⟨s, rfl⟩

/-- A command that names no unit always has a next state. -/
theorem next_guardedBy (s : State) : GuardedBy true (.next s) := ⟨s, rfl⟩

section RegisterWrites

variable (s : State) (h : Nat) (p : Page) (off : Nat) (v : BitVec 32) (c : Bool)

/-- A write on a page that the module has once names its head alone. -/
theorem writeRow_true_guardedBy : GuardedBy (isHead h) (writeRow s h true p off v c) := by
  have hw : GuardedBy (isHead h && true) (writeRow s h true p off v c) := guardUnit_guardedBy _ _
  rwa [Bool.and_true] at hw

/-- A write in an array of a page names its head, the unit of the page (`a`) and the place in the array (`b`). -/
theorem writeRow_and_guardedBy (a b : Bool) : GuardedBy (isHead h && a && b) (writeRow s h (a && b) p off v c) := by
  rw [Bool.and_assoc]
  exact guardUnit_guardedBy _ _

end RegisterWrites

/-- The meaning of every command is guarded by `Instr.wf`. A Yilac row (`yilac`), an entry of an engine queue
(`engineRow`), what a host or a mailbox sends (`headRow`), a flit or a packet (`ridgeRow`), a write on the page of one unit
(`writeRow`) and an event of one unit are by definition `guardUnit` of exactly the units that `Instr.wf` asks for: these
are the last case. -/
theorem exec_guardedBy_wf (i : Instr) (s : State) : GuardedBy i.wf (exec i s) := by
  cases i with
  | traceRecord | tempSample | getVersion | getCapabilities | negotiateAlgorithms | getDigests | getCertificate
  | challenge | getMeasurements | spdmUnsupported | fenceRemap | sweepStart | paddockRecal | tileSwap | manifestStage
  | vfSet | upkeepDone | upkeepQuiesceTimeout | pwrOkRise | pwrOkFall | perst0Assert | perst0Deassert | bootFuseSense
  | bootLinkStart | bootSlotHeaders | bootManifestRead | bootManifestVerify | bootApply | manifestWaitTimeout
  | bootBarnTrain | bootBarnActive | bootPillarCal | bootFieldReady | furrowWalkStart | walkTimeout | perst1Deassert
  | sweepQuiesceTimeout | dynamicAddressAssignment | unlockNonce | unlock | extest | clamp | highz | bypass | idcode
  | samplePreload | tapReset => exact next_guardedBy _
  | gangReset | flogEnable | traceEnable | traceRestart | granarySnapshotRequest | restore | cperEnable | fenceRequest
  | sweepRequest | upkeepInvalidOp | upkeepBusy | warmReset | paddockReset | resetBusy | ridgeOverride
  | stagePurge => exact writeRow_true_guardedBy _ _ _ _ _ _
  | tallyBind | tallyUnbind | bankhashWrite => exact writeRow_and_guardedBy _ _ _ _ _ _ _ _
  | _ => exact guardUnit_guardedBy _ _

/-- A command that names units the module has completes, in every state. -/
theorem completes_of_wf (i : Instr) (s : State) (h : i.wf = true) : Completes i s := by
  obtain ⟨s', hs⟩ := exec_guardedBy_wf i s
  exact ⟨s', hs.trans (guardUnit_true _ _ h)⟩

/-- A command that names a unit the module does not have stops, in every state. -/
theorem exec_eq_noSuchUnit_of_not_wf (i : Instr) (s : State) (h : i.wf = false) : exec i s = .fault .noSuchUnit := by
  obtain ⟨s', hs⟩ := exec_guardedBy_wf i s
  exact hs.trans (guardUnit_false _ _ h)

/-- Settles O60: each arm of `exec` is guarded by the units that `Instr.wf` asks for, whatever the state. -/
theorem commandsCompleteExactlyWhenWellFormed : Obligations.CommandsCompleteExactlyWhenWellFormed :=
  fun i s => ⟨completes_of_wf i s, exec_eq_noSuchUnit_of_not_wf i s⟩

end Sys2Proof.Machine

/-! ## One step (R20) -/

namespace Sys2Proof.Machine

/-- Settles O58: `step` looks at the front of the queue alone. -/
theorem aStepRunsTheFrontCommand : Obligations.AStepRunsTheFrontCommand := by
  refine ⟨fun s c rest => rfl, fun s h => ?_⟩
  unfold step
  rw [h]

end Sys2Proof.Machine

/-! ## What reports and traffic leave alone

Logging a cause changes registers and what the heads are sent; traffic on the mesh and the ridge changes queues and ports.
Each operation is shown once to keep a view of the state, and its fields follow. -/

namespace Sys2Proof.Machine

/-- A pass whose every step keeps a view `P` keeps it. -/
theorem foldEach_keeps {α σ β : Type} (P : σ → β) (f : α → σ → σ) (h : ∀ x s, P (f x s) = P s) (xs : List α) (s : σ) :
    P (foldEach xs s f) = P s := by
  induction xs generalizing s with
  | nil => rfl
  | cons x xs ih => exact (ih (f x s)).trans (h x s)

namespace State

/-- The state but for its registers, heads and outputs, which is what logging a cause may change (R465). -/
def unreported (s : State) : State := { s with regs := [], h0 := .reset, h1 := .reset, out := [] }

/-- The state but for what reports and traffic on the mesh, the ridge and at the heads may change. -/
def interior (s : State) : State :=
  { s with regs := [], h0 := .reset, h1 := .reset, out := [], ridge := .reset, locHeld := [], events := .reset, pillars := [],
           channels := [], mesh := [], fresh := 0, lastSource := 0, lastHead := 0, st := .reset }

section Views

variable {s s' : State}

/-- What keeps `unreported` changes registers, heads and outputs alone. -/
theorem rest_of_unreported (e : s'.unreported = s.unreported) :
    { s' with regs := s.regs, h0 := s.h0, h1 := s.h1, out := s.out } = s :=
  (congrArg (fun x : State => { x with regs := s.regs, h0 := s.h0, h1 := s.h1, out := s.out }) e :)

theorem interior_of_unreported (e : s'.unreported = s.unreported) : s'.interior = s.interior := (congrArg interior e :)

theorem tiles_of_interior (e : s'.interior = s.interior) : s'.tiles = s.tiles := (congrArg State.tiles e :)
theorem tile_of_interior (e : s'.interior = s.interior) (u : Nat) : s'.tile u = s.tile u :=
  (congrArg (fun x : State => x.tile u) e :)
theorem tally_of_interior (e : s'.interior = s.interior) : s'.tally = s.tally := (congrArg State.tally e :)
theorem gang_of_interior (e : s'.interior = s.interior) (g : Nat) : s'.gang g = s.gang g :=
  (congrArg (fun x : State => x.gang g) e :)
theorem gangIn_of_interior (e : s'.interior = s.interior) (g p : Nat) : s'.gangIn g p = s.gangIn g p :=
  (congrArg (fun x : State => x.gangIn g p) e :)

end Views

theorem reg_of_regs_eq {s s' : State} (e : s'.regs = s.regs) (a : Nat) : s'.reg a = s.reg a := by rw [reg, reg, e]

section Reports

variable (s : State)

/-! ### Logging a cause -/

@[simp] theorem setReg_unreported (a v : Nat) : (s.setReg a v).unreported = s.unreported := rfl
@[simp] theorem setF_unreported (a hi lo v : Nat) : (s.setF a hi lo v).unreported = s.unreported := rfl
@[simp] theorem addF_unreported (a hi lo n : Nat) : (s.addF a hi lo n).unreported = s.unreported := rfl
@[simp] theorem emit_unreported (o : Output) : (s.emit o).unreported = s.unreported := rfl
@[simp] theorem onHost_unreported (h : Nat) (f : HostPort → HostPort) : (s.onHost h f).unreported = s.unreported := by
  unfold onHost; split <;> rfl

@[simp] theorem raise_unreported (v : Nat) : (s.raise v).unreported = s.unreported := by
  unfold raise sendVector
  dsimp only
  repeat' split
  all_goals simp

@[simp] theorem raise_regs (v : Nat) : (s.raise v).regs = s.regs := by
  unfold raise sendVector
  dsimp only
  repeat' split
  all_goals simp

@[simp] theorem raise_reg (v a : Nat) : (s.raise v).reg a = s.reg a := reg_of_regs_eq (raise_regs s v) a
@[simp] theorem raise_getF (v a hi lo : Nat) : (s.raise v).getF a hi lo = s.getF a hi lo := by simp [getF]

@[simp] theorem logAs_unreported (p : Page) (c : Cause) (i : Bool) (d : Nat) :
    (s.logAs p c i d).2.unreported = s.unreported := by
  unfold logAs
  dsimp only
  repeat' split
  all_goals simp

@[simp] theorem log_unreported (p : Page) (c : Cause) : (s.log p c).unreported = s.unreported :=
  logAs_unreported s p c _ _

/-! ### Events and records -/

@[simp] theorem setReg_interior (a v : Nat) : (s.setReg a v).interior = s.interior := rfl
@[simp] theorem setF_interior (a hi lo v : Nat) : (s.setF a hi lo v).interior = s.interior := rfl
@[simp] theorem addF_interior (a hi lo n : Nat) : (s.addF a hi lo n).interior = s.interior := rfl
@[simp] theorem emit_interior (o : Output) : (s.emit o).interior = s.interior := rfl
@[simp] theorem onPillar_interior (t : Nat) (f : Pillar → Pillar) : (s.onPillar t f).interior = s.interior := rfl
@[simp] theorem onChannel_interior (c : Nat) (f : Channel → Channel) : (s.onChannel c f).interior = s.interior := rfl
@[simp] theorem takeFree_interior (w : Nat) : (s.takeFree w).2.interior = s.interior := rfl
@[simp] theorem onHost_interior (h : Nat) (f : HostPort → HostPort) : (s.onHost h f).interior = s.interior :=
  interior_of_unreported (onHost_unreported s h f)
@[simp] theorem raise_interior (v : Nat) : (s.raise v).interior = s.interior := interior_of_unreported (raise_unreported s v)
@[simp] theorem logAs_interior (p : Page) (c : Cause) (i : Bool) (d : Nat) : (s.logAs p c i d).2.interior = s.interior :=
  interior_of_unreported (logAs_unreported s p c i d)
@[simp] theorem log_interior (p : Page) (c : Cause) : (s.log p c).interior = s.interior :=
  interior_of_unreported (log_unreported s p c)

@[simp] theorem logAt_interior (p : Page) (c : Cause) (o l : Nat) : (s.logAt p c o l).interior = s.interior := by
  unfold logAt
  dsimp only
  split
  · exact logAs_interior s p c _ _
  · exact logAs_interior s p c _ _

@[simp] theorem addEvent_interior (b : EventBody) : (s.addEvent b).interior = s.interior := by
  unfold addEvent
  dsimp only
  repeat' split
  all_goals first | rfl | exact raise_interior _ _

@[simp] theorem addEvent_regs (b : EventBody) : (s.addEvent b).regs = s.regs := by
  unfold addEvent
  dsimp only
  repeat' split
  all_goals first | rfl | exact raise_regs _ _

@[simp] theorem reg_addEvent (b : EventBody) (a : Nat) : (s.addEvent b).reg a = s.reg a :=
  reg_of_regs_eq (addEvent_regs s b) a

@[simp] theorem countCycles_interior (t off : Nat) : (s.countCycles t off).interior = s.interior := rfl

@[simp] theorem sweepStrike_interior (t : Nat) : (s.sweepStrike t).interior = s.interior := by
  unfold sweepStrike; dsimp only; split <;> rfl

/-! ### The mesh and the heads -/

/-- A request handed on goes into a queue of a pillar or a lane of a channel. -/
theorem handOn_keeps {β : Type} (P : State → β) (hp : ∀ s t f, P (State.onPillar s t f) = P s)
    (hc : ∀ s c f, P (State.onChannel s c f) = P s) {r : MemReq} {s' : State} (h : s.handOn r = some s') : P s' = P s := by
  unfold handOn at h
  dsimp only at h
  repeat' split at h
  all_goals first | (cases h; exact hp _ _ _) | (cases h; exact hc _ _ _) | cases h

theorem drainMesh_keeps {β : Type} (P : State → β) (hp : ∀ s t f, P (State.onPillar s t f) = P s)
    (hc : ∀ s c f, P (State.onChannel s c f) = P s) (hm : ∀ (s : State) m, P { s with mesh := m } = P s) :
    P s.drainMesh = P s := by
  unfold drainMesh
  rw [hm]
  refine List.foldlRecOn (motive := fun acc : State × List MemReq × List Nat => P acc.1 = P s) s.mesh _ rfl ?_
  intro acc ih r _
  dsimp only
  split
  · exact ih
  · split
    · exact (handOn_keeps _ P hp hc ‹_›).trans ih
    · exact ih

theorem sendMesh_keeps {β : Type} (P : State → β) (hp : ∀ s t f, P (State.onPillar s t f) = P s)
    (hc : ∀ s c f, P (State.onChannel s c f) = P s) (hm : ∀ (s : State) m, P { s with mesh := m } = P s) (rs : List MemReq) :
    P (s.sendMesh rs) = P s :=
  (drainMesh_keeps _ P hp hc hm).trans (hm s _)

@[simp] theorem sendMesh_regs (rs : List MemReq) : (s.sendMesh rs).regs = s.regs :=
  sendMesh_keeps s regs (fun _ _ _ => rfl) (fun _ _ _ => rfl) (fun _ _ => rfl) rs

@[simp] theorem sendMesh_interior (rs : List MemReq) : (s.sendMesh rs).interior = s.interior :=
  sendMesh_keeps s interior (fun _ _ _ => rfl) (fun _ _ _ => rfl) (fun _ _ => rfl) rs

@[simp] theorem reg_sendMesh (rs : List MemReq) (a : Nat) : (s.sendMesh rs).reg a = s.reg a :=
  reg_of_regs_eq (sendMesh_regs s rs) a

@[simp] theorem reg_postLines (d : Nat) (bs : List Byte) (v : Option Nat) (a : Nat) : (s.postLines d bs v).reg a = s.reg a :=
  reg_sendMesh s _ a

@[simp] theorem postLines_interior (d : Nat) (bs : List Byte) (v : Option Nat) :
    (s.postLines d bs v).interior = s.interior := sendMesh_interior s _

theorem handOn_interior {r : MemReq} {s' : State} (h : s.handOn r = some s') : s'.interior = s.interior :=
  handOn_keeps s interior (fun _ _ _ => rfl) (fun _ _ _ => rfl) h

@[simp] theorem cper_interior (i : CperInfo) : (s.cper i).interior = s.interior := by
  unfold cper
  dsimp only
  split
  · rfl
  · split
    · rfl
    · simp

@[simp] theorem updatePanic_interior : s.updatePanic.interior = s.interior := by
  unfold updatePanic
  rw [setF_interior, setF_interior]

theorem handHead_interior {h : Nat} {s' : State} (e : s.handHead h = some s') : s'.interior = s.interior := by
  unfold handHead at e
  split at e
  · cases e
  · split at e
    · cases e
    · dsimp only at e
      split at e
      · obtain ⟨x, hx, rfl⟩ := Option.map_eq_some_iff.1 e
        exact (onHost_interior _ _ _).trans (handOn_interior _ hx)
      all_goals
        cases e
        simp [respond]

theorem handMesh_interior {rs rs' : List MemReq} {seen : List Nat} {s' : State} (e : s.handMesh seen rs = some (s', rs')) :
    s'.interior = s.interior := by
  induction rs generalizing seen rs' with
  | nil => cases e
  | cons r rs ih =>
    have later : ∀ k, (s.handMesh k rs).map (fun x => (x.1, r :: x.2)) = some (s', rs') → s'.interior = s.interior := by
      intro k h
      obtain ⟨x, hx, hx'⟩ := Option.map_eq_some_iff.1 h
      cases hx'
      exact ih hx
    unfold handMesh at e
    dsimp only at e
    split at e
    · exact later _ e
    · split at e
      · next hs =>
        cases e
        exact handOn_interior _ hs
      · exact later _ e

theorem serveOne_interior {s' : State} (e : s.serveOne = some s') : s'.interior = s.interior := by
  unfold serveOne at e
  obtain ⟨i, -, hi⟩ := List.exists_of_findSome?_eq_some e
  obtain ⟨x, hx, rfl⟩ := Option.map_eq_some_iff.1 hi
  dsimp only at hx
  change x.interior = s.interior
  split at hx
  · obtain ⟨y, hy, rfl⟩ := Option.map_eq_some_iff.1 hx
    exact (handMesh_interior s (rs' := y.2) hy :)
  · exact handHead_interior s hx

@[simp] theorem serve_interior (n : Nat) : (s.serve n).interior = s.interior := by
  induction n generalizing s with
  | zero => rfl
  | succ n ih =>
    unfold serve
    split
    · next h => exact (ih _).trans (serveOne_interior s h)
    · rfl

@[simp] theorem drainHosts_interior : s.drainHosts.interior = s.interior :=
  (updatePanic_interior _).trans (serve_interior s _)

@[simp] theorem settleBanks_interior (t : Nat) (qs : List Nat) : (s.settleBanks t qs).interior = s.interior := by
  unfold settleBanks; dsimp only; split <;> rfl

/-! ### The ridge -/

@[simp] theorem onRport_interior (p : Nat) (f : RidgePort → RidgePort) : (s.onRport p f).interior = s.interior := rfl

@[simp] theorem sendFlit_interior (p : Nat) (data lcr : Bool) (bs : List Byte) (ks : List Packet) :
    (s.sendFlit p data lcr bs ks).interior = s.interior := by
  unfold sendFlit
  dsimp only
  split <;> rfl

@[simp] theorem pump_interior (p n : Nat) : (s.pump p n).interior = s.interior := by
  induction n generalizing s with
  | zero => rfl
  | succ n ih =>
    unfold pump
    dsimp only
    split
    · split
      · rfl
      · rw [ih, sendFlit_interior, onRport_interior]
    · rfl

@[simp] theorem leaveBy_interior (i p : Nat) (k : Packet) : (s.leaveBy i p k).interior = s.interior := by
  unfold leaveBy sendOn pumpAll
  rw [pump_interior, onRport_interior]

@[simp] theorem showHeld_interior : s.showHeld.interior = s.interior :=
  List.foldlRecOn (motive := fun x : State => x.interior = s.interior) (List.range 6) _ rfl fun _ ih _ _ =>
    (setF_interior _ _ _ _ _).trans ih

@[simp] theorem logUnreach_interior (k : Packet) : (s.logUnreach k).interior = s.interior := by
  unfold logUnreach
  dsimp only
  split
  · exact logAs_interior s _ _ _ _
  · exact logAs_interior s _ _ _ _

@[simp] theorem injectAt_interior (i : Nat) (k : Packet) (n : Nat) : (s.injectAt i k n).2.interior = s.interior := by
  induction n generalizing i k with
  | zero => rfl
  | succ n ih =>
    unfold injectAt
    split
    · rfl
    · dsimp only
      split
      · exact showHeld_interior _
      · exact leaveBy_interior _ _ _ _
    · split
      · extract_lets args reply
        split
        · rfl
        · split
          · rfl
          · exact ih _ _
      · exact logUnreach_interior _ _

@[simp] theorem inject_interior (k : Packet) (n : Nat) : (s.inject k n).2.interior = s.interior :=
  injectAt_interior s 6 k n

end Reports
end State
end Sys2Proof.Machine

/-! ## Registers, their fields and the error registers of a page (R465) -/

namespace Sys2Proof.Machine

/-- The bits of a field. -/
theorem testBit_bits (v hi lo i : Nat) : (bits v hi lo).testBit i = (decide (i < hi + 1 - lo) && v.testBit (lo + i)) := by
  rw [bits, Nat.testBit_mod_two_pow, Nat.testBit_shiftRight]

/-- A field of a field. -/
theorem bits_bits (v : Nat) {hi lo k j : Nat} (h : lo + k ≤ hi) : bits (bits v hi lo) k j = bits v (lo + k) (lo + j) := by
  apply Nat.eq_of_testBit_eq
  intro i
  rw [testBit_bits, testBit_bits, testBit_bits, ← Nat.add_assoc lo j i]
  by_cases hi' : i < k + 1 - j
  · rw [decide_eq_true hi', decide_eq_true (by omega : j + i < hi + 1 - lo),
      decide_eq_true (by omega : i < lo + k + 1 - (lo + j))]
    rfl
  · rw [decide_eq_false hi', decide_eq_false (by omega : ¬ i < lo + k + 1 - (lo + j))]
    rfl

namespace State

variable (s : State)

theorem getF_of_reg_eq {s s' : State} {a : Nat} (e : s'.reg a = s.reg a) (hi lo : Nat) : s'.getF a hi lo = s.getF a hi lo := by
  rw [getF, getF, e]

/-- The bits of a register one of whose fields has been written. -/
theorem testBit_reg_setF (a : Nat) {hi lo : Nat} (v : Nat) (h : lo ≤ hi) (hw : hi < 64) (i : Nat) :
    ((s.setF a hi lo v).reg a).testBit i = if lo ≤ i ∧ i ≤ hi then v.testBit (i - lo) else (s.reg a).testBit i := by
  have hr := replaceField (s.reg a) hi lo v h
  have hm : v % 2 ^ (hi + 1 - lo) < 2 ^ (hi + 1 - lo) := Nat.mod_lt _ (by positivity)
  simp only [setF, reg_setReg_self]
  rw [hr, Nat.add_comm (s.reg a % 2 ^ lo), Nat.testBit_mod_two_pow,
    Nat.testBit_two_pow_mul_add _ (Nat.mod_lt _ (by positivity)), Nat.add_comm (v % _), Nat.testBit_two_pow_mul_add _ hm,
    Nat.testBit_mod_two_pow, Nat.testBit_mod_two_pow, Nat.testBit_div_two_pow]
  by_cases h64 : i < 64
  · rw [decide_eq_true h64, Bool.true_and]
    by_cases hlo : i < lo
    · rw [if_pos hlo, if_neg (by omega), decide_eq_true hlo, Bool.true_and]
    · rw [if_neg hlo]
      by_cases hhi : i ≤ hi
      · rw [if_pos (by omega), if_pos (by omega), decide_eq_true (by omega), Bool.true_and]
      · rw [if_neg (by omega), if_neg (by omega)]
        congr 1
        omega
  · have hb : (s.reg a).testBit i = false :=
      Nat.testBit_lt_two_pow (lt_of_lt_of_le (s.reg_lt a) (Nat.pow_le_pow_right (by decide) (by omega)))
    rw [decide_eq_false h64, Bool.false_and, if_neg (by omega), hb]

/-- A field beside the one written reads as before. -/
theorem getF_setF_beside (a : Nat) {hi lo k j : Nat} (v : Nat) (h : lo ≤ hi) (hw : hi < 64) (hd : k < lo ∨ hi < j) :
    (s.setF a hi lo v).getF a k j = s.getF a k j := by
  apply Nat.eq_of_testBit_eq
  intro i
  rw [getF, getF, testBit_bits, testBit_bits]
  by_cases hi' : i < k + 1 - j
  · rw [testBit_reg_setF s a v h hw, if_neg (by omega)]
  · rw [decide_eq_false hi', Bool.false_and, Bool.false_and]

/-- A field within the one written reads the bits written there. -/
theorem getF_setF_within (a : Nat) {hi lo k j : Nat} (v : Nat) (h : lo ≤ hi) (hw : hi < 64) (hj : lo ≤ j) (hjk : j ≤ k)
    (hk : k ≤ hi) :
    (s.setF a hi lo v).getF a k j = bits v (k - lo) (j - lo) := by
  apply Nat.eq_of_testBit_eq
  intro i
  rw [getF, testBit_bits, testBit_bits]
  by_cases hi' : i < k + 1 - j
  · rw [testBit_reg_setF s a v h hw, if_pos (by omega), decide_eq_true hi', decide_eq_true (by omega),
      (by omega : j + i - lo = j - lo + i)]
  · rw [decide_eq_false hi', decide_eq_false (by omega), Bool.false_and, Bool.false_and]

/-! ### The error registers -/

/-- Logging writes ERR_FIRST, ERR_NEXT and ERR_COUNT, and no other register. -/
theorem reg_logAs_outside (p : Page) (c : Cause) (i : Bool) (d : Nat) {a : Nat}
    (h : a < p.base + 0x14 ∨ p.base + 0x28 ≤ a) : (s.logAs p c i d).2.reg a = s.reg a := by
  have h14 : a ≠ p.base + 0x14 := by omega
  have h18 : a ≠ p.base + 0x18 := by omega
  have h24 : a ≠ p.base + 0x24 := by omega
  unfold logAs
  dsimp only
  repeat' split
  all_goals simp [h14, h18, h24]

theorem reg_log_outside (p : Page) (c : Cause) {a : Nat} (h : a < p.base + 0x14 ∨ p.base + 0x28 ≤ a) :
    (s.log p c).reg a = s.reg a := reg_logAs_outside s p c _ _ h

theorem reg_logAt_outside (p : Page) (c : Cause) (o l : Nat) {a : Nat} (ho : a ≠ p.base + o)
    (h : a < p.base + 0x14 ∨ p.base + 0x28 ≤ a) : (s.logAt p c o l).reg a = s.reg a := by
  have hl := reg_logAs_outside s p c false 0 h
  unfold logAt
  dsimp only
  split
  · exact hl
  · exact (reg_setReg_ne _ _ _ _ ho).trans hl

/-- An unmasked cause takes ERR_FIRST while it is free. -/
theorem reg_log_errFirst_of_free (p : Page) (c : Cause) (hf : s.getF (p.base + 0x14) 31 31 = 0)
    (hm : (s.reg (p.base + 0x1C)).testBit c.row.2.1 = false) :
    (s.log p c).reg (p.base + 0x14) = errWord c false 0 % 2 ^ 64 := by
  unfold log logAs
  simp only [bit, hm, hf]
  repeat' split
  all_goals simp_all

/-- ERR_FIRST keeps the cause it holds. -/
theorem reg_log_errFirst_of_held (p : Page) (c : Cause) (hf : s.getF (p.base + 0x14) 31 31 ≠ 0) :
    (s.log p c).reg (p.base + 0x14) = s.reg (p.base + 0x14) := by
  unfold log logAs
  simp only [hf]
  repeat' split
  all_goals simp_all

theorem errWord_fields (c : Cause) :
    bits (errWord c false 0 % 2 ^ 64) 31 31 = 1 ∧ bits (errWord c false 0 % 2 ^ 64) 7 0 = c.row.1 := by
  cases c <;> decide

theorem log_logged (p : Page) (c : Cause) : Logged s (s.log p c) p c := by
  intro hf hm
  rw [getF, getF, reg_log_errFirst_of_free s p c hf hm]
  exact errWord_fields c

/-- Logging a cause changes the page's error registers and what its vector sends. -/
theorem log_logs (p : Page) (c : Cause) : Logs s (s.log p c) p c :=
  ⟨log_logged s p c, rest_of_unreported (log_unreported s p c), fun _ h => reg_log_outside s p c h⟩

end State

section Logged

variable {s s' : State} {p : Page} {c : Cause}

/-- Whether a cause has been logged shows in ERR_FIRST and the mask alone. -/
theorem logged_of_regs_eq {r r' : State} (h : Logged s s' p c) (e : r.reg (p.base + 0x14) = s.reg (p.base + 0x14))
    (em : r.reg (p.base + 0x1C) = s.reg (p.base + 0x1C)) (e' : r'.reg (p.base + 0x14) = s'.reg (p.base + 0x14)) :
    Logged r r' p c := by
  intro hf hm
  rw [State.getF_of_reg_eq e] at hf
  rw [em] at hm
  obtain ⟨hv, hc⟩ := h hf hm
  exact ⟨(State.getF_of_reg_eq e' _ _).trans hv, (State.getF_of_reg_eq e' _ _).trans hc⟩

/-- A cause that is logged stays in ERR_FIRST when another is logged after it. -/
theorem logged_then_log (h : Logged s s' p c) (c' : Cause) : Logged s (s'.log p c') p c := by
  intro hf hm
  obtain ⟨hv, hc⟩ := h hf hm
  have e := State.reg_log_errFirst_of_held s' p c' (by omega)
  exact ⟨(State.getF_of_reg_eq e _ _).trans hv, (State.getF_of_reg_eq e _ _).trans hc⟩

end Logged

theorem State.logAt_logged (s : State) (p : Page) (c : Cause) (o l : Nat) (ho : o ≠ 0x14) :
    Logged s (s.logAt p c o l) p c := by
  refine logged_of_regs_eq (State.log_logged s p c) rfl rfl ?_
  unfold State.logAt
  dsimp only
  split
  · rfl
  · exact State.reg_setReg_ne _ _ _ _ (by omega)

end Sys2Proof.Machine

/-! ## The code of field and barn memory (R60, R61, R63)

The check bytes of the encoder are the remainder of the division by g(x), so a codeword as it is stored has zero syndromes,
and one stored with the blight pattern has those of the pattern. Both hold because multiplication in GF(2^8) distributes over
XOR and every α^i with i < 8 is a root of g(x). -/

namespace Sys2Proof.Machine

/-! ### Products in GF(2^8) -/

theorem xor_byte_lt {a b : Nat} (ha : a < 256) (hb : b < 256) : a ^^^ b < 256 :=
  Nat.xor_lt_two_pow (n := 8) ha hb

theorem gfTwice_lt : ∀ a < 256, gfTwice a < 256 := by decide +kernel

/-- Doubling shifts, and reduces where the top bit was set. -/
theorem gfTwice_eq_of_lt {a : Nat} (ha : a < 256) :
    gfTwice a = 2 * a ^^^ (if a.testBit 7 then 0x11D else 0) := by
  have h7 : a.testBit 7 = decide (128 ≤ a) := by
    rw [Nat.testBit_eq_decide_div_mod_eq]
    exact decide_eq_decide.2 (by omega)
  unfold gfTwice
  by_cases h : a < 128
  · simp [h7, h, Nat.not_le.2 h]
  · simp [h7, h, Nat.not_lt.1 h]

theorem gfTwice_xor {a b : Nat} (ha : a < 256) (hb : b < 256) : gfTwice (a ^^^ b) = gfTwice a ^^^ gfTwice b := by
  have h2 : 2 * (a ^^^ b) = 2 * a ^^^ 2 * b := by
    simpa [Nat.shiftLeft_eq, Nat.mul_comm] using Nat.shiftLeft_xor_distrib (a := a) (b := b) (i := 1)
  rw [gfTwice_eq_of_lt ha, gfTwice_eq_of_lt hb, gfTwice_eq_of_lt (xor_byte_lt ha hb), h2, Nat.testBit_xor]
  cases a.testBit 7 <;> cases b.testBit 7 <;>
    simp [Nat.xor_assoc, Nat.xor_left_comm, Nat.xor_comm]

theorem gfMulAux_lt (n : Nat) {a b acc : Nat} (ha : a < 256) (hacc : acc < 256) : gfMulAux n a b acc < 256 := by
  induction n generalizing a b acc with
  | zero => exact hacc
  | succ n ih =>
    refine ih (gfTwice_lt a ha) ?_
    split
    · exact xor_byte_lt hacc ha
    · exact hacc

theorem gfMulAux_xor (n : Nat) {a a' b acc acc' : Nat} (ha : a < 256) (ha' : a' < 256) :
    gfMulAux n (a ^^^ a') b (acc ^^^ acc') = gfMulAux n a b acc ^^^ gfMulAux n a' b acc' := by
  induction n generalizing a a' b acc acc' with
  | zero => rfl
  | succ n ih =>
    simp only [gfMulAux, gfTwice_xor ha ha']
    rw [← ih (gfTwice_lt a ha) (gfTwice_lt a' ha')]
    split
    · congr 1
      simp only [Nat.xor_left_comm, Nat.xor_comm]
    · rfl

theorem gfMulAux_zero_left (n b : Nat) : gfMulAux n 0 b 0 = 0 := by
  induction n generalizing b with
  | zero => rfl
  | succ n ih => simpa [gfMulAux, gfTwice] using ih (b / 2)

theorem gfMulAux_zero_right (n a acc : Nat) : gfMulAux n a 0 acc = acc := by
  induction n generalizing a with
  | zero => rfl
  | succ n ih => simpa [gfMulAux] using ih (gfTwice a)

theorem gfMul_eq_aux (a b : Nat) : gfMul a b = gfMulAux 8 a b 0 := by
  unfold gfMul
  split
  · next h =>
    rcases h with rfl | rfl
    · rw [gfMulAux_zero_left]
    · rw [gfMulAux_zero_right]
  · rfl

@[simp] theorem gfMul_zero_left (b : Nat) : gfMul 0 b = 0 := by simp [gfMul]

theorem gfMul_lt {a : Nat} (b : Nat) (ha : a < 256) : gfMul a b < 256 := by
  rw [gfMul_eq_aux]
  exact gfMulAux_lt 8 ha (by decide)

/-- Multiplication distributes over addition, which is XOR. -/
theorem gfMul_xor_left {a a' : Nat} (b : Nat) (ha : a < 256) (ha' : a' < 256) :
    gfMul (a ^^^ a') b = gfMul a b ^^^ gfMul a' b := by
  have h := gfMulAux_xor 8 (b := b) (acc := 0) (acc' := 0) ha ha'
  rw [Nat.xor_self] at h
  simpa only [gfMul_eq_aux] using h

/-- `v` times `x ^ n`. -/
def gfScale (x : Nat) : Nat → Nat → Nat
  | 0, v => v
  | n + 1, v => gfMul (gfScale x n v) x

theorem gfScale_lt (x n : Nat) {v : Nat} (hv : v < 256) : gfScale x n v < 256 := by
  induction n with
  | zero => exact hv
  | succ n ih => exact gfMul_lt x ih

theorem gfScale_xor (x n : Nat) {v w : Nat} (hv : v < 256) (hw : w < 256) :
    gfScale x n (v ^^^ w) = gfScale x n v ^^^ gfScale x n w := by
  induction n with
  | zero => rfl
  | succ n ih => rw [gfScale, ih, gfMul_xor_left x (gfScale_lt x n hv) (gfScale_lt x n hw), gfScale, gfScale]

theorem gfScale_succ (x n v : Nat) : gfScale x (n + 1) v = gfScale x n (gfMul v x) := by
  induction n with
  | zero => rfl
  | succ n ih => rw [gfScale, ih, gfScale]

/-! ### Values of polynomials -/

/-- Every coefficient is a byte. -/
def AllBytes (cs : List Nat) : Prop := ∀ c ∈ cs, c < 256

theorem allBytes_toNat (bs : List Byte) : AllBytes (bs.map (·.toNat)) := by
  intro c hc
  obtain ⟨b, -, rfl⟩ := List.mem_map.1 hc
  exact b.isLt

/-- Evaluation from a start value `v`: the value of the coefficients, and `v` moved up by their number. -/
theorem foldl_polyAt (x : Nat) {cs : List Nat} (hcs : AllBytes cs) {v : Nat} (hv : v < 256) :
    cs.foldl (fun v c => gfMul v x ^^^ c) v = gfScale x cs.length v ^^^ polyAt cs x := by
  induction cs generalizing v with
  | nil => simp [polyAt, gfScale]
  | cons c cs ih =>
    obtain ⟨hc, hcs⟩ := List.forall_mem_cons.1 hcs
    have hm := gfMul_lt x hv
    have hp : polyAt (c :: cs) x = gfScale x cs.length c ^^^ polyAt cs x := by
      rw [polyAt, List.foldl_cons, gfMul_zero_left, Nat.zero_xor, ih hcs hc]
    rw [List.foldl_cons, ih hcs (xor_byte_lt hm hc), gfScale_xor x _ hm hc, ← gfScale_succ, hp, List.length_cons,
      Nat.xor_assoc]

theorem polyAt_lt (x : Nat) {cs : List Nat} (hcs : AllBytes cs) : polyAt cs x < 256 := by
  suffices h : ∀ (cs : List Nat), AllBytes cs → ∀ v < 256, cs.foldl (fun v c => gfMul v x ^^^ c) v < 256 from
    h cs hcs 0 (by decide)
  intro cs
  induction cs with
  | nil => exact fun _ v hv => hv
  | cons c cs ih =>
    intro hcs v hv
    obtain ⟨hc, hcs⟩ := List.forall_mem_cons.1 hcs
    exact ih hcs _ (xor_byte_lt (gfMul_lt x hv) hc)

theorem polyAt_cons (x : Nat) {c : Nat} {cs : List Nat} (hc : c < 256) (hcs : AllBytes cs) :
    polyAt (c :: cs) x = gfScale x cs.length c ^^^ polyAt cs x := by
  have h := foldl_polyAt x hcs hc
  rwa [polyAt, List.foldl_cons, gfMul_zero_left, Nat.zero_xor]

theorem polyAt_append (x : Nat) {cs ds : List Nat} (hcs : AllBytes cs) (hds : AllBytes ds) :
    polyAt (cs ++ ds) x = gfScale x ds.length (polyAt cs x) ^^^ polyAt ds x := by
  rw [polyAt, List.foldl_append]
  exact foldl_polyAt x hds (polyAt_lt x hcs)

theorem polyAt_concat (x c : Nat) (cs : List Nat) : polyAt (cs ++ [c]) x = gfMul (polyAt cs x) x ^^^ c := by
  simp [polyAt]

theorem allBytes_zipWith_xor {cs ds : List Nat} (hcs : AllBytes cs) (hds : AllBytes ds) :
    AllBytes (List.zipWith (· ^^^ ·) cs ds) := by
  intro c hc
  obtain ⟨i, hi, rfl⟩ := List.mem_iff_getElem.1 hc
  rw [List.getElem_zipWith]
  exact xor_byte_lt (hcs _ (List.getElem_mem _)) (hds _ (List.getElem_mem _))

theorem polyAt_zipWith_xor (x : Nat) {cs ds : List Nat} (hcs : AllBytes cs) (hds : AllBytes ds)
    (hl : cs.length = ds.length) :
    polyAt (List.zipWith (· ^^^ ·) cs ds) x = polyAt cs x ^^^ polyAt ds x := by
  induction cs generalizing ds with
  | nil =>
    obtain rfl : ds = [] := List.length_eq_zero_iff.1 hl.symm
    simp [polyAt]
  | cons c cs ih =>
    cases ds with
    | nil => simp at hl
    | cons d ds =>
      obtain ⟨hc, hcs⟩ := List.forall_mem_cons.1 hcs
      obtain ⟨hd, hds⟩ := List.forall_mem_cons.1 hds
      have hl : cs.length = ds.length := by simpa using hl
      rw [List.zipWith_cons_cons, polyAt_cons x (xor_byte_lt hc hd) (allBytes_zipWith_xor hcs hds), ih hcs hds hl,
        polyAt_cons x hc hcs, polyAt_cons x hd hds, gfScale_xor x _ hc hd, List.length_zipWith, hl, Nat.min_self]
      simp only [Nat.xor_assoc, Nat.xor_left_comm]

/-! ### The roots of g(x) -/

/-- A map on bytes that distributes over XOR and is zero on the powers of two is zero. -/
theorem eq_zero_of_xor_of_twoPow {f : Nat → Nat} (hx : ∀ a b, a < 256 → b < 256 → f (a ^^^ b) = f a ^^^ f b)
    (h2 : ∀ k < 8, f (2 ^ k) = 0) : ∀ a < 256, f a = 0 := by
  have h0 : f 0 = 0 := by simpa using hx 0 0 (by decide) (by decide)
  suffices h : ∀ n ≤ 8, ∀ a < 2 ^ n, f a = 0 from h 8 le_rfl
  intro n
  induction n with
  | zero =>
    intro _ a ha
    obtain rfl : a = 0 := by omega
    exact h0
  | succ n ih =>
    intro hn a ha
    by_cases hlt : a < 2 ^ n
    · exact ih (by omega) a hlt
    · have hp : 2 ^ n < 256 := Nat.pow_lt_pow_right (a := 2) (n := 8) (by decide) (by omega)
      have hr : a - 2 ^ n < 2 ^ n := by rw [pow_succ] at ha; omega
      have ha' : a = (a - 2 ^ n) ^^^ 2 ^ n := by
        have e := Nat.two_pow_add_eq_or_of_lt hr 1
        have ex : 2 ^ n ^^^ (a - 2 ^ n) = 2 ^ n ||| (a - 2 ^ n) := by
          apply Nat.eq_of_testBit_eq
          intro i
          rw [Nat.testBit_xor, Nat.testBit_or, Nat.testBit_two_pow]
          by_cases hi : n = i
          · subst hi
            simp [Nat.testBit_lt_two_pow hr]
          · simp [hi]
        rw [Nat.xor_comm, ex]
        rw [Nat.mul_one] at e
        omega
      rw [ha', hx _ _ (by omega) hp, ih (by omega) _ hr, h2 n (by omega), Nat.xor_self]

/-- α^i is a root of g(x) for i < 8: a multiple of g's lower coefficients has there the value of the multiple of x^8
(R60). -/
theorem polyAt_rsGen_scaled {i fb : Nat} (hi : i < 8) (hfb : fb < 256) :
    polyAt (rsGen.map (gfMul fb)) (gfAlpha i) = gfScale (gfAlpha i) 8 fb := by
  have hb : ∀ a < 256, AllBytes (rsGen.map (gfMul a)) := by
    intro a ha c hc
    obtain ⟨g, -, rfl⟩ := List.mem_map.1 hc
    exact gfMul_lt g ha
  have h0 := eq_zero_of_xor_of_twoPow
    (f := fun fb => polyAt (rsGen.map (gfMul fb)) (gfAlpha i) ^^^ gfScale (gfAlpha i) 8 fb)
    (by
      intro a b ha hb'
      have hz : rsGen.map (gfMul (a ^^^ b)) = List.zipWith (· ^^^ ·) (rsGen.map (gfMul a)) (rsGen.map (gfMul b)) := by
        simp [rsGen, gfMul_xor_left, ha, hb']
      rw [hz, polyAt_zipWith_xor _ (hb a ha) (hb b hb') (by simp), gfScale_xor _ _ ha hb']
      simp only [Nat.xor_assoc, Nat.xor_left_comm])
    (by
      intro k hk
      have h : ∀ i < 8, ∀ k < 8,
          polyAt (rsGen.map (gfMul (2 ^ k))) (gfAlpha i) ^^^ gfScale (gfAlpha i) 8 (2 ^ k) = 0 := by decide +kernel
      exact h i hi k hk)
    fb hfb
  exact Nat.xor_eq_zero_iff.1 h0

/-! ### The encoder -/

/-- The encoder's register: eight bytes. -/
def RsRegister (r : List Nat) : Prop := r.length = 8 ∧ AllBytes r

theorem rsStep_eq_zipWith {r : List Nat} (hr : r.length = 8) (d : Nat) :
    rsStep r d = List.zipWith (· ^^^ ·) (r.tail ++ [0]) (rsGen.map (gfMul (d ^^^ r.headD 0))) := by
  unfold rsStep
  dsimp only
  split
  · next h =>
    rw [h]
    match r, hr with
    | [_, _, _, _, _, _, _, _], _ => simp [rsGen]
  · rw [List.zipWith_map_right]

theorem rsStep_register {r : List Nat} (hr : RsRegister r) {d : Nat} (hd : d < 256) : RsRegister (rsStep r d) := by
  obtain ⟨hl, hb⟩ := hr
  rw [rsStep_eq_zipWith hl]
  match r, hl with
  | r0 :: rs, hl =>
    obtain ⟨h0, hrs⟩ := List.forall_mem_cons.1 hb
    refine ⟨by simp_all [rsGen], allBytes_zipWith_xor ?_ ?_⟩
    · intro c hc
      rcases List.mem_append.1 hc with hc | hc
      · exact hrs c hc
      · rw [List.mem_singleton.1 hc]; decide
    · intro c hc
      obtain ⟨g, -, rfl⟩ := List.mem_map.1 hc
      exact gfMul_lt g (xor_byte_lt hd h0)

/-- One step of the division: at a root of g(x) the register's value moves up by one and takes the next byte. -/
theorem polyAt_rsStep {r : List Nat} (hr : RsRegister r) {d i : Nat} (hd : d < 256) (hi : i < 8) :
    polyAt (rsStep r d) (gfAlpha i) =
      gfMul (polyAt r (gfAlpha i)) (gfAlpha i) ^^^ gfScale (gfAlpha i) 8 d := by
  obtain ⟨hl, hb⟩ := hr
  match r, hl with
  | r0 :: rs, hl =>
    obtain ⟨h0, hrs⟩ := List.forall_mem_cons.1 hb
    have hl7 : rs.length = 7 := by simpa using hl
    have hfb := xor_byte_lt hd h0
    have hs : AllBytes (rs ++ [0]) := by
      intro c hc
      rcases List.mem_append.1 hc with hc | hc
      · exact hrs c hc
      · rw [List.mem_singleton.1 hc]; decide
    have hg : AllBytes (rsGen.map (gfMul (d ^^^ r0))) := by
      intro c hc
      obtain ⟨g, -, rfl⟩ := List.mem_map.1 hc
      exact gfMul_lt g hfb
    rw [rsStep_eq_zipWith hl, List.tail_cons, List.headD_cons, polyAt_zipWith_xor _ hs hg (by simp [rsGen, hl7]),
      polyAt_rsGen_scaled hi hfb, polyAt_concat, Nat.xor_zero, polyAt_cons _ h0 hrs, hl7,
      gfMul_xor_left _ (gfScale_lt _ 7 h0) (polyAt_lt _ hrs), gfScale_xor _ 8 hd h0]
    change _ = gfScale (gfAlpha i) 8 r0 ^^^ _ ^^^ _
    simp only [Nat.xor_comm, Nat.xor_assoc]

/-- After any data the register holds bytes whose value at a root of g(x) is that of the data times x^8 (R61). -/
theorem rsRegister_after (data : List Byte) {i : Nat} (hi : i < 8) :
    RsRegister (data.foldl (fun r d => rsStep r d.toNat) [0, 0, 0, 0, 0, 0, 0, 0]) ∧
      polyAt (data.foldl (fun r d => rsStep r d.toNat) [0, 0, 0, 0, 0, 0, 0, 0]) (gfAlpha i) =
        gfScale (gfAlpha i) 8 (polyAt (data.map (·.toNat)) (gfAlpha i)) := by
  induction data using List.reverseRecOn with
  | nil => exact ⟨⟨rfl, by simp [AllBytes]⟩, by simp [polyAt, gfScale]⟩
  | append_singleton ds d ih =>
    obtain ⟨hr, hv⟩ := ih
    have hp := polyAt_lt (gfAlpha i) (allBytes_toNat ds)
    rw [List.foldl_append, List.foldl_cons, List.foldl_nil]
    refine ⟨rsStep_register hr d.isLt, ?_⟩
    rw [polyAt_rsStep hr d.isLt hi, hv, List.map_append, List.map_cons, List.map_nil, polyAt_concat,
      gfScale_xor _ 8 (gfMul_lt _ hp) d.isLt, ← gfScale_succ]
    rfl

/-- The check bytes of data as numbers. -/
theorem rsCheck_toNat (data : List Byte) :
    (rsCheck data).map (·.toNat) = data.foldl (fun r d => rsStep r d.toNat) [0, 0, 0, 0, 0, 0, 0, 0] := by
  obtain ⟨⟨-, hb⟩, -⟩ := rsRegister_after data (i := 0) (by decide)
  rw [rsCheck, List.map_map]
  conv_rhs => rw [← List.map_id (data.foldl _ _)]
  refine List.map_congr_left fun c hc => ?_
  simpa using Nat.mod_eq_of_lt (hb c hc)

theorem polyAt_rsCheck (data : List Byte) {i : Nat} (hi : i < 8) :
    polyAt ((rsCheck data).map (·.toNat)) (gfAlpha i) =
      gfScale (gfAlpha i) 8 (polyAt (data.map (·.toNat)) (gfAlpha i)) := by
  rw [rsCheck_toNat]
  exact (rsRegister_after data hi).2

/-- Data with their check bytes, to which a pattern `e` of eight bytes has been added, have the value of the pattern at the
roots of g(x). -/
theorem polyAt_encoded_xor (data e : List Byte) (he : e.length = 8) {i : Nat} (hi : i < 8) :
    polyAt ((data ++ List.zipWith (· ^^^ ·) (rsCheck data) e).map (·.toNat)) (gfAlpha i) =
      polyAt (e.map (·.toNat)) (gfAlpha i) := by
  have hz : (List.zipWith (· ^^^ ·) (rsCheck data) e).map (·.toNat) =
      List.zipWith (· ^^^ ·) ((rsCheck data).map (·.toNat)) (e.map (·.toNat)) := by
    rw [List.map_zipWith, List.zipWith_map]
    simp only [BitVec.toNat_xor]
  have hl : (List.zipWith (· ^^^ ·) (rsCheck data) e).length = 8 := by simp [he]
  rw [List.map_append, polyAt_append _ (allBytes_toNat data) (allBytes_toNat _), List.length_map, hl, hz,
    polyAt_zipWith_xor _ (allBytes_toNat _) (allBytes_toNat _) (by simp [he]), polyAt_rsCheck data hi, ← Nat.xor_assoc,
    Nat.xor_self, Nat.zero_xor]

/-- The syndromes of such a codeword are those of the pattern. -/
theorem syndromes_encoded_xor (data e : List Byte) (he : e.length = 8) :
    syndromes ((data ++ List.zipWith (· ^^^ ·) (rsCheck data) e).map (·.toNat)) = syndromes (e.map (·.toNat)) :=
  List.map_congr_left fun _ hi => polyAt_encoded_xor data e he (List.mem_range.1 hi)

/-- A codeword stored with the blight pattern has the syndromes SB (R63). -/
theorem syndromes_blighted (data : List Byte) :
    syndromes ((data ++ storedCheck data true).map (·.toNat)) = syndromesOfB :=
  syndromes_encoded_xor data blightB rfl

/-- Data stored with the blight pattern read blighted, as they are stored (R63, R64). -/
theorem classify_storedCheck_blight (data : List Byte) : classify data (storedCheck data true) = ⟨data, .blighted⟩ := by
  have hne : syndromesOfB ≠ [0, 0, 0, 0, 0, 0, 0, 0] := by decide +kernel
  unfold classify
  simp only [syndromes_blighted, if_neg hne, if_true]

end Sys2Proof.Machine

/-! ## Reading and writing one codeword (R32, R33, R64) -/

namespace Sys2Proof.Machine

/-! ### What a read delivers -/

/-- A codeword that is not corrected delivers the bytes stored. -/
theorem classify_data_of_uncorrected {data check : List Byte} (hc : (classify data check).cls ≠ .corrected)
    (hb : (classify data check).cls ≠ .blightCorrected) : (classify data check).data = data := by
  revert hc hb
  unfold classify
  dsimp only
  repeat' split
  all_goals simp

theorem storedCw_of_memories {s s' : State} (e : memories s' = memories s) (barn : Bool) (cw : Nat) :
    s'.storedCw barn cw = s.storedCw barn cw := by
  simp only [memories, Prod.mk.injEq] at e
  obtain ⟨e1, e2, e3, e4⟩ := e
  unfold State.storedCw
  rw [e1, e2, e3, e4]

variable (s : State) (barn : Bool) (cw : Nat)

/-- A blighted codeword is delivered marked, and nothing changes. -/
theorem readCw_of_blighted (h : (classify (s.storedCw barn cw).1 (s.storedCw barn cw).2).cls = .blighted) :
    s.readCw barn cw = (⟨(s.storedCw barn cw).1, true⟩, s) := by
  have hd := classify_data_of_uncorrected (by rw [h]; decide) (by rw [h]; decide)
  unfold State.readCw
  dsimp only
  rw [h, hd]
  rfl

/-- An uncorrectable codeword is delivered marked, and is stored again with the blight pattern and reported. -/
theorem readCw_of_uncorrectable (h : (classify (s.storedCw barn cw).1 (s.storedCw barn cw).2).cls = .uncorrectable) :
    s.readCw barn cw = (⟨(s.storedCw barn cw).1, true⟩,
      if barn = true then (s.storeCw barn cw ⟨(s.storedCw barn cw).1, true⟩).barnUe cw
      else (s.storeCw barn cw ⟨(s.storedCw barn cw).1, true⟩).fieldUe cw) := by
  have hd := classify_data_of_uncorrected (by rw [h]; decide) (by rw [h]; decide)
  unfold State.readCw
  dsimp only
  rw [h, hd]
  rfl

/-- A codeword stored with the blight pattern reads so, and nothing changes (R32). -/
theorem readCw_of_stored_blight {data : List Byte} (h : s.storedCw barn cw = (data, storedCheck data true)) :
    s.readCw barn cw = (⟨data, true⟩, s) := by
  have hr := readCw_of_blighted s barn cw (by rw [h, classify_storedCheck_blight])
  rwa [h] at hr

@[simp] theorem storedCw_fst_length : (s.storedCw barn cw).1.length = 64 := by
  cases barn <;> simp [State.storedCw]

/-! ### What a report of an uncorrectable codeword leaves -/

/-- A CPER record moves the write index of its ring, or counts a drop (R432). -/
theorem reg_cper_outside (i : CperInfo) {a : Nat} (h : a ≠ 0x3068 ∧ a ≠ 0x306C) : (s.cper i).reg a = s.reg a := by
  obtain ⟨h68, h6C⟩ := h
  unfold State.cper
  dsimp only
  split
  · rfl
  · split
    · exact State.reg_addF_ne _ _ _ _ _ _ h68
    · rw [State.reg_addEvent, State.reg_setF_ne _ _ _ _ _ _ h6C, State.reg_postLines]

/-- A strike of a sweep counts on a TILE page. -/
theorem reg_sweepStrike (t : Nat) {a : Nat} (h : a ≠ (Page.tile t).base + 0xA0) : (s.sweepStrike t).reg a = s.reg a := by
  unfold State.sweepStrike State.strike
  dsimp only
  split
  · exact (State.reg_of_regs_eq (s := s.strike t) rfl a).trans (State.reg_addF_ne _ _ _ _ _ _ h)
  · rfl

theorem reg_fenceAsk (t : Nat) (b : Bool) (a : Nat) : (s.fenceAsk t b).reg a = s.reg a := by
  unfold State.fenceAsk; split <;> rfl

/-- An uncorrectable barn codeword is logged BARN_UE in its channel's page (R318). -/
theorem barnUe_logged : Logged s (s.barnUe cw) (.barn (State.channelOf (64 * cw))) .barnUe := by
  refine logged_of_regs_eq (State.logAt_logged s _ _ 0x70 (64 * cw + 0x2000000000) (by decide)) rfl rfl ?_
  unfold State.barnUe
  dsimp only
  rw [State.reg_addEvent, reg_cper_outside]
  simp only [Page.base]
  omega

/-- An uncorrectable field codeword is logged FIELD_UE in its paddock's page (R89). -/
theorem fieldUe_logged : Logged s (s.fieldUe cw) (.paddock (paddockOf (cw / 2 ^ 19))) .fieldUe := by
  unfold State.fieldUe
  extract_lets t off loc s₁ addr rec_ s₂ s₃ s₄ limit
  have h₁ : Logged s s₁ (.paddock (paddockOf t)) .fieldUe := State.logAt_logged s _ _ _ _ (by decide)
  have h₄ : s₄.reg ((Page.paddock (paddockOf t)).base + 0x14) = s₁.reg ((Page.paddock (paddockOf t)).base + 0x14) := by
    have h₂ : s₂.reg ((Page.paddock (paddockOf t)).base + 0x14) = s₁.reg ((Page.paddock (paddockOf t)).base + 0x14) := by
      refine reg_cper_outside s₁ _ ?_
      simp only [Page.base]
      omega
    have h₃ : s₃.reg ((Page.paddock (paddockOf t)).base + 0x14) = s₂.reg ((Page.paddock (paddockOf t)).base + 0x14) :=
      State.reg_addEvent _ _ _
    have ht : (Page.paddock (paddockOf t)).base + 0x14 ≠ (Page.tile t).base + 0xA0 := by
      simp only [Page.base]
      omega
    calc s₄.reg ((Page.paddock (paddockOf t)).base + 0x14)
      _ = (s₃.onPillar t _).reg ((Page.paddock (paddockOf t)).base + 0x14) := reg_sweepStrike _ t ht
      _ = s₃.reg ((Page.paddock (paddockOf t)).base + 0x14) := State.onPillar_reg _ _ _ _
      _ = s₁.reg ((Page.paddock (paddockOf t)).base + 0x14) := h₃.trans h₂
  refine logged_of_regs_eq h₁ rfl rfl ?_
  split
  · exact (reg_fenceAsk s₄ t true _).trans h₄
  · exact h₄

/-- Settles O29: the blight pattern that a read of an uncorrectable codeword stores has the syndromes SB, so the next read
finds the codeword blighted. -/
theorem uncorrectableCodewordsAreBlightedOnce : Obligations.UncorrectableCodewordsAreBlightedOnce := by
  rintro s barn cw data rfl hu
  have hs := storedCw_storeCw_self s barn cw ⟨(s.storedCw barn cw).1, true⟩ (storedCw_fst_length s barn cw)
  rw [readCw_of_uncorrectable s barn cw hu]
  cases barn with
  | false =>
    have hm := (storedCw_of_memories (fieldUe_memories (s.storeCw false cw _) cw) false cw).trans hs
    simp only [Bool.false_eq_true, if_false]
    exact ⟨trivial, hm, logged_of_regs_eq (fieldUe_logged (s.storeCw false cw _) cw) rfl rfl rfl,
      readCw_of_stored_blight _ _ _ hm⟩
  | true =>
    have hm := (storedCw_of_memories (barnUe_memories (s.storeCw true cw _) cw) true cw).trans hs
    simp only [if_true]
    exact ⟨trivial, hm, logged_of_regs_eq (barnUe_logged (s.storeCw true cw _) cw) rfl rfl rfl,
      readCw_of_stored_blight _ _ _ hm⟩

/-! ### Tiles and the write of a codeword -/

@[simp] theorem storeCw_tiles (l : Line) : (s.storeCw barn cw l).tiles = s.tiles := by
  cases barn <;> rfl

@[simp] theorem countCorrected_interior : (s.countCorrected barn cw).interior = s.interior := by
  unfold State.countCorrected State.autoRetrain
  dsimp only
  repeat' split
  all_goals simp

@[simp] theorem barnUe_interior : (s.barnUe cw).interior = s.interior := by
  unfold State.barnUe
  simp

/-- A read of barn memory faults no tile. -/
theorem readCw_barn_tiles : (s.readCw true cw).2.tiles = s.tiles := by
  unfold State.readCw
  dsimp only
  split
  · rfl
  · rfl
  · rw [State.tiles_of_interior (countCorrected_interior _ _ _), storeCw_tiles]
  · rw [State.tiles_of_interior (countCorrected_interior _ _ _), storeCw_tiles]
  · rw [if_pos rfl, State.tiles_of_interior (barnUe_interior _ _), storeCw_tiles]

theorem keepForReads_tiles (o : Nat) : (s.keepForReads o).tiles = s.tiles := by
  unfold State.keepForReads
  dsimp only
  split
  · exact readCw_barn_tiles s _
  · rfl

/-- The codeword of a location: whether it is in barn memory, and its number (R59, R298). -/
def Loc.codeword : Loc → Bool × Nat
  | .field t off => (false, t * 2 ^ 19 + off / 64)
  | .barn o => (true, o / 64)

/-- A write at this location reaches its memory: neither is the pillar fenced in place nor the channel DEAD (R323, R418). -/
def Loc.writable (s : State) : Loc → Prop
  | .field t _ => s.pillarDead t = false
  | .barn o => (s.channel (State.channelOf o)).dead = false

/-- A whole write replaces the codeword and its mark, and faults no tile (R33, R66). -/
theorem writeLoc_replaces (loc : Loc) (l : Line) (hl : l.data.length = 64) (hw : loc.writable s) :
    (s.writeLoc Env.none loc l).storedCw loc.codeword.1 loc.codeword.2 = (l.data, storedCheck l.data l.blight) ∧
      (s.writeLoc Env.none loc l).tiles = s.tiles := by
  have hb : State.encBad Env.none loc = false := by cases loc <;> rfl
  unfold State.writeLoc
  simp only [hb, Bool.or_false, Bool.false_eq_true, if_false]
  cases loc with
  | field t off =>
    have hd : s.pillarDead t = false := hw
    simp only [hd, Bool.false_eq_true, if_false]
    exact ⟨storedCw_storeCw_self s false _ l hl, storeCw_tiles _ _ _ _⟩
  | barn o =>
    have hd : (s.channel (State.channelOf o)).dead = false := hw
    have ho : o / 64 * 64 / 64 = o / 64 := Nat.mul_div_cancel _ (by decide)
    unfold State.barnPut
    simp only [hd, Bool.false_eq_true, if_false, ho]
    refine ⟨storedCw_storeCw_self _ true _ l hl, ?_⟩
    rw [storeCw_tiles]
    split
    · exact keepForReads_tiles s _
    · exact keepForReads_tiles s _

/-- A blighted codeword for which no write waits is read at its location as it is stored. -/
theorem readLoc_of_blighted (loc : Loc) (hw : loc.writable s)
    (hq : ∀ o, loc = .barn o → ∀ w ∈ (s.channel (State.channelOf o)).writes, w.dpa ≠ o / 64 * 64 + 0x2000000000)
    (hc : (classify (s.storedCw loc.codeword.1 loc.codeword.2).1 (s.storedCw loc.codeword.1 loc.codeword.2).2).cls =
      .blighted) :
    s.readLoc loc = (⟨(s.storedCw loc.codeword.1 loc.codeword.2).1, true⟩, s) := by
  have hr := readCw_of_blighted s _ _ hc
  cases loc with
  | field t off =>
    have hd : s.pillarDead t = false := hw
    unfold State.readLoc
    simp only [hd, Bool.false_eq_true, if_false]
    exact hr
  | barn o =>
    have hd : (s.channel (State.channelOf o)).dead = false := hw
    have ho : o / 64 * 64 / 64 = o / 64 := Nat.mul_div_cancel _ (by decide)
    have hch : State.channelOf (o / 64 * 64) = State.channelOf o := by unfold State.channelOf; omega
    have hn := hq o rfl
    have hm : s.mergeAt (o / 64 * 64 + 0x2000000000) = s := by
      unfold State.mergeAt
      rw [Nat.add_sub_cancel, hch]
      dsimp only
      rw [if_neg]
      simpa using fun w hw' he => absurd he (hn w hw')
    have hf : ((s.channel (State.channelOf o)).writes.find? fun w => w.dpa = o / 64 * 64 + 0x2000000000) = none := by
      simpa using hn
    unfold State.readLoc
    simp only [hd, Bool.false_eq_true, if_false, hm, hf, ho]
    exact hr

/-- Settles O28: a partial write merges over the bytes that the read delivers marked, and stores them marked. -/
theorem writesReplaceOrKeepBlight : Obligations.WritesReplaceOrKeepBlight := by
  intro s loc cw data hl hloc
  have hcw : cw = loc.codeword := by cases loc <;> simp_all [Loc.codeword]
  have hw : loc.writable s := by cases loc <;> simp_all [Loc.writable]
  have hq : ∀ o, loc = .barn o → ∀ w ∈ (s.channel (State.channelOf o)).writes, w.dpa ≠ o / 64 * 64 + 0x2000000000 := by
    rintro o rfl
    exact hloc.2.2
  subst hcw
  refine ⟨?_, ?_⟩
  · have hm : s.mergeLoc Env.none loc data (2 ^ 64 - 1) false = s.writeLoc Env.none loc ⟨data, false⟩ := by
      unfold State.mergeLoc
      rw [if_pos (by decide)]
    rw [hm]
    exact writeLoc_replaces s loc ⟨data, false⟩ hl hw
  · rintro mask old new hpos hlt hc rfl rfl
    have hr := readLoc_of_blighted s loc hw hq hc
    have hm : s.mergeLoc Env.none loc data mask false = s.writeLoc Env.none loc
        ⟨mergeBytes mask.testBit (s.storedCw loc.codeword.1 loc.codeword.2).1 data, true⟩ := by
      unfold State.mergeLoc
      rw [if_neg (by omega), if_neg (by omega), hr]
      rfl
    rw [hm]
    exact writeLoc_replaces s loc _ (by simp [mergeBytes]) hw

end Sys2Proof.Machine

/-! ## Register writes through a head, and the DOORBELL pages (R17, R28, R138 to R143) -/

namespace Sys2Proof.Machine

variable {s : State}

/-! ### A write of a page that is ready for it -/

/-- Changing a head to what it is changes nothing. -/
theorem onHost_of_eq {h : Nat} {f : HostPort → HostPort} (e : f (s.host h) = s.host h) : s.onHost h f = s := by
  unfold State.host at e
  unfold State.onHost
  split
  · next h0 => rw [if_pos h0] at e; rw [e]
  · next h0 => rw [if_neg h0] at e; rw [e]

/-- A 32-bit register of a page that is ready takes a 32-bit write as it stands (R17, R462). -/
theorem pageWrite_eq_writeReg {h off : Nat} {p : Page} {r : RegDesc} (v : BitVec 32) (hb : BarReady s h p)
    (hp : pageAt (p.base + off) = some p) (hr : regAt p off = some (r, off)) (hw : r.width = 32)
    (h4 : (p.base + off) % 4 = 0) (hx : isCxlRange (p.base + off) = false) (hg : ¬ (p = .global ∧ off = 0x1C)) :
    s.pageWrite h p off v = s.writeReg p r off v.toNat := by
  obtain ⟨-, hup, hd0, hhalf, hlatch, hclk, hboot⟩ := hb
  have ha : s.barAnswers h = true := by simp [State.barAnswers, State.headHears, hup, hclk, hd0]
  have hl : s.lostHalf h (p.base + off) 4 true = none := by simp [State.lostHalf, hhalf]
  have hc : s.clearLatches h none = s := by
    refine onHost_of_eq ?_
    simp only [Option.isSome_none, Bool.false_eq_true, if_false, ← hlatch]
  have hbad : State.badAccess (p.base + off) 4 = false := by simp [State.badAccess, h4]
  have hnb : s.notBooted p = false := by
    rcases hboot with rfl | hstage
    · rfl
    · simp [State.notBooted, State.early, Nat.not_lt.2 hstage]
  have hv : (v.setWidth 64).toNat = v.toNat := by
    rw [BitVec.toNat_setWidth]
    exact Nat.mod_eq_of_lt (lt_trans v.isLt (by decide))
  have hm : v.toNat % 2 ^ 32 = v.toNat := Nat.mod_eq_of_lt v.isLt
  have hs : p.base + off - p.base = off := Nat.add_sub_cancel_left _ _
  unfold State.pageWrite State.bar0Write
  simp only [ha, hl, hc, hbad, hx, hp, hs, hr, hnb, if_neg hg, State.logLost, Bool.not_true, Bool.false_eq_true, if_false]
  simp only [State.writeMapped, hv, hw, hm, Nat.reduceEqDiff, if_false, ne_eq, not_false_eq_true, if_true]

/-- The page of a queue is found at its offsets. -/
theorem pageAt_doorbell {q off : Nat} (hq : q < 64) (ho : off < 0x1000) :
    pageAt ((Page.doorbell q).base + off) = some (.doorbell q) := by
  have hn : ((Page.doorbell q).base + off) / 0x1000 = 0x100 + q := by
    simp only [Page.base]
    omega
  unfold pageAt
  dsimp only
  rw [hn]
  repeat rw [if_neg (by omega)]
  rw [if_pos (by omega), Nat.add_sub_cancel_left]

/-- Offsets of the DOORBELL registers whose writes are commands: QCTRL, SQ_PROD and CQ_HEAD. -/
theorem regAt_doorbell {q off : Nat} (ho : off ∈ [0x40, 0x60, 0x6C]) :
    ∃ r, regAt (.doorbell q) off = some (r, off) ∧ r.width = 32 := by
  have h : ∀ off ∈ [0x40, 0x60, 0x6C], ∃ r ∈ (headerRegs ++ doorbellRegs).find? (fun r => r.covers off),
      r.width = 32 ∧ r.start off = off := by decide +kernel
  obtain ⟨r, hr, hw, hs⟩ := h off ho
  refine ⟨r, ?_, hw⟩
  have hh : holeIn (.doorbell q) off = false := rfl
  unfold regAt
  simp only [hh, Bool.false_eq_true, if_false, Page.regs]
  rw [Option.mem_def.1 hr, Option.map_some, hs]

/-- A write of QCTRL, SQ_PROD or CQ_HEAD of a queue whose page is ready. -/
theorem pageWrite_doorbell {h q off : Nat} (v : BitVec 32) (hq : q < 64) (hb : BarReady s h (.doorbell q))
    (ho : off ∈ [0x40, 0x60, 0x6C]) : s.pageWrite h (.doorbell q) off v = s.writeDoorbell q off v.toNat := by
  obtain ⟨r, hr, hw⟩ := regAt_doorbell (q := q) ho
  have hoff : 0x40 ≤ off ∧ off < 0x1000 ∧ off % 4 = 0 := by
    simp only [List.mem_cons, List.not_mem_nil, or_false] at ho
    omega
  obtain ⟨h40, hlt, h4⟩ := hoff
  have hx : isCxlRange ((Page.doorbell q).base + off) = false := by
    have hbase : (Page.doorbell q).base = 0x100000 + q * 0x1000 := rfl
    unfold isCxlRange
    rw [hbase, Bool.and_eq_false_iff, decide_eq_false_iff_not, decide_eq_false_iff_not]
    omega
  rw [pageWrite_eq_writeReg v hb (pageAt_doorbell hq hlt) hr hw (by simp only [Page.base]; omega) hx (by simp)]
  unfold State.writeReg
  simp (disch := omega) only [if_neg]

/-- A command that writes a register of a queue's page. -/
theorem writeRow_doorbell {h q off : Nat} (v : BitVec 32) (hq : q < 64) (hb : BarReady s h (.doorbell q))
    (ho : off ∈ [0x40, 0x60, 0x6C]) :
    writeRow s h (isSheafQueue q) (.doorbell q) off v true = .next (s.writeDoorbell q off v.toNat) := by
  have hh := hb.head
  rw [writeRow, if_pos rfl, pageWrite_doorbell v hq hb ho, guardUnit_true]
  simp [isHead, isSheafQueue, hh, hq]

@[simp] theorem writeDoorbell_qctrl (s : State) (q v : Nat) : s.writeDoorbell q 0x40 v = s.writeQctrl q v := by
  simp [State.writeDoorbell]
@[simp] theorem writeDoorbell_prod (s : State) (q v : Nat) : s.writeDoorbell q 0x60 v = s.writeProd q v := by
  simp [State.writeDoorbell]
@[simp] theorem writeDoorbell_cqHead (s : State) (q v : Nat) : s.writeDoorbell q 0x6C v = s.writeCqHead q v := by
  simp [State.writeDoorbell]

/-! ### Doorbells -/

/-- A doorbell and a write of CQ_HEAD (R28, R142). -/
theorem doorbellsSetTheirIndexOrLog : Claims.DoorbellsSetTheirIndexOrLog := by
  constructor
  · intro s h q v hq hb
    refine ⟨_, writeRow_doorbell v hq hb (by decide), ?_⟩
    rw [writeDoorbell_prod]
    unfold State.writeProd State.sqSize ringLog2
    split
    · next hle => rw [if_neg (Nat.not_lt.2 hle)]
    · next hle => rw [if_pos (Nat.lt_of_not_le hle)]; exact State.log_logs s _ _
  · intro s h q v hq hb
    refine ⟨_, writeRow_doorbell v hq hb (by decide), ?_⟩
    rw [writeDoorbell_cqHead]
    unfold State.writeCqHead
    split
    · exact State.log_logs s _ _
    · rfl

/-! ### QCTRL -/

theorem reg_setHead (s : State) (q : Nat) (x : Fetch) (a : Nat) : (s.setHead q x).reg a = s.reg a := rfl
theorem getF_setHead (s : State) (q : Nat) (x : Fetch) (a hi lo : Nat) :
    (s.setHead q x).getF a hi lo = s.getF a hi lo := rfl

/-- Registers of one page are as far apart as their offsets. -/
theorem dbReg_ne {q o o' : Nat} (h : o ≠ o') : State.dbReg q o ≠ State.dbReg q o' := by
  unfold State.dbReg; omega

/-- What a write of QCTRL does besides RESET and EN: a size that differs while the queue is enabled is logged, and the other
fields take the write (log entry 59). -/
def qctrlFields (s : State) (q v : Nat) : State :=
  ((if s.getF (State.dbReg q 0x40) 0 0 = 1 then
      if s.getF (State.dbReg q 0x40) 15 8 ≠ bits v 15 8 then s.log (.doorbell q) .queueBusy else s
    else s.setF (State.dbReg q 0x40) 15 8 (bits v 15 8)).setF (State.dbReg q 0x40) 2 2 (bits v 2 2)).setF
      (State.dbReg q 0x40) 21 16 (bits v 21 16)

/-- What a write of QCTRL does with EN, which was `en` before. -/
def qctrlEnable (s : State) (q v : Nat) (en : Prop) [Decidable en] : State :=
  if !bit v 0 then (s.setF (State.dbReg q 0x40) 0 0 0).setHead q .reset
  else if en then s
  else if s.queueOk q then s.setF (State.dbReg q 0x40) 0 0 1
  else s.log (.doorbell q) .queueConfig

/-- A write of QCTRL is RESET, then the fields, then EN. -/
theorem writeQctrl_eq (s : State) (q v : Nat) :
    s.writeQctrl q v =
      qctrlEnable (qctrlFields (if bit v 1 then s.resetQueue q else s) q v) q v
        ((if bit v 1 then s.resetQueue q else s).getF (State.dbReg q 0x40) 0 0 = 1) := rfl

variable (s) (q v : Nat)

/-- The fields of QCTRL and its logs leave every other register of the page but the error registers. -/
theorem reg_qctrlFields {a : Nat} (ha : a ≠ State.dbReg q 0x40) (he : a < State.dbReg q 0x14 ∨ State.dbReg q 0x28 ≤ a) :
    (qctrlFields s q v).reg a = s.reg a := by
  unfold qctrlFields
  rw [State.reg_setF_ne _ _ _ _ _ _ ha, State.reg_setF_ne _ _ _ _ _ _ ha]
  split
  · split
    · exact State.reg_log_outside s (.doorbell q) _ he
    · rfl
  · exact State.reg_setF_ne _ _ _ _ _ _ ha

/-- In a queue that is not enabled they leave every other register. -/
theorem reg_qctrlFields_of_disabled (he : s.getF (State.dbReg q 0x40) 0 0 = 0) {a : Nat} (ha : a ≠ State.dbReg q 0x40) :
    (qctrlFields s q v).reg a = s.reg a := by
  unfold qctrlFields
  rw [if_neg (by omega), State.reg_setF_ne _ _ _ _ _ _ ha, State.reg_setF_ne _ _ _ _ _ _ ha,
    State.reg_setF_ne _ _ _ _ _ _ ha]

/-- EN leaves the registers that the fields leave. -/
theorem reg_qctrlEnable (en : Prop) [Decidable en] {a : Nat} (ha : a ≠ State.dbReg q 0x40)
    (he : a < State.dbReg q 0x14 ∨ State.dbReg q 0x28 ≤ a) : (qctrlEnable s q v en).reg a = s.reg a := by
  unfold qctrlEnable
  split
  · rw [reg_setHead, State.reg_setF_ne _ _ _ _ _ _ ha]
  · split
    · rfl
    · split
      · exact State.reg_setF_ne _ _ _ _ _ _ ha
      · exact State.reg_log_outside s (.doorbell q) _ he

/-- A cause that RESET has logged stays in ERR_FIRST while the fields are written. -/
theorem logged_qctrlFields {r : State} {c : Cause} (h : Logged r s (.doorbell q) c) :
    Logged r (qctrlFields s q v) (.doorbell q) c := by
  have h14 : (Page.doorbell q).base + 0x14 ≠ State.dbReg q 0x40 := dbReg_ne (by decide)
  unfold qctrlFields
  refine logged_of_regs_eq (s' := if _ then _ else _) ?_ rfl rfl
    (by rw [State.reg_setF_ne _ _ _ _ _ _ h14, State.reg_setF_ne _ _ _ _ _ _ h14])
  split
  · split
    · exact logged_then_log h _
    · exact h
  · exact logged_of_regs_eq h rfl rfl (State.reg_setF_ne _ _ _ _ _ _ h14)

/-- And while EN is. -/
theorem logged_qctrlEnable {r : State} {c : Cause} (en : Prop) [Decidable en] (h : Logged r s (.doorbell q) c) :
    Logged r (qctrlEnable s q v en) (.doorbell q) c := by
  have h14 : (Page.doorbell q).base + 0x14 ≠ State.dbReg q 0x40 := dbReg_ne (by decide)
  unfold qctrlEnable
  split
  · exact logged_of_regs_eq h rfl rfl (by rw [reg_setHead, State.reg_setF_ne _ _ _ _ _ _ h14])
  · split
    · exact h
    · split
      · exact logged_of_regs_eq h rfl rfl (State.reg_setF_ne _ _ _ _ _ _ h14)
      · exact logged_then_log h _

/-- The fields that a write of QCTRL leaves in a queue that is not enabled. -/
theorem getF_qctrlFields (he : s.getF (State.dbReg q 0x40) 0 0 = 0) :
    (qctrlFields s q v).getF (State.dbReg q 0x40) 15 8 = bits v 15 8 ∧
      (qctrlFields s q v).getF (State.dbReg q 0x40) 11 8 = bits v 11 8 ∧
      (qctrlFields s q v).getF (State.dbReg q 0x40) 15 12 = bits v 15 12 ∧
      (qctrlFields s q v).getF (State.dbReg q 0x40) 0 0 = 0 := by
  have hb : ∀ k j, 8 ≤ j → j ≤ k → k ≤ 15 →
      (qctrlFields s q v).getF (State.dbReg q 0x40) k j = bits v k j := by
    intro k j hj hjk hk
    unfold qctrlFields
    rw [if_neg (by omega), State.getF_setF_beside _ _ _ (by decide) (by decide) (by omega),
      State.getF_setF_beside _ _ _ (by decide) (by decide) (by omega),
      State.getF_setF_within _ _ _ (by decide) (by decide) hj hjk hk, bits_bits v (by omega)]
    congr 1 <;> omega
  refine ⟨hb 15 8 (by decide) (by decide) (by decide), hb 11 8 (by decide) (by decide) (by decide),
    hb 15 12 (by decide) (by decide) (by decide), ?_⟩
  unfold qctrlFields
  rw [if_neg (by omega), State.getF_setF_beside _ _ _ (by decide) (by decide) (by omega),
    State.getF_setF_beside _ _ _ (by decide) (by decide) (by omega),
    State.getF_setF_beside _ _ _ (by decide) (by decide) (by omega), he]

/-- The rings and the status line of a queue lie right when its sizes are those of the write (R138). -/
theorem queueOk_qctrlFields (he : s.getF (State.dbReg q 0x40) 0 0 = 0) :
    (qctrlFields s q v).queueOk q = true ↔
      InBarn (s.getF (State.dbReg q 0x48) 38 0) (64 * 2 ^ max 4 (bits v 11 8)) ∧
        InBarn (s.getF (State.dbReg q 0x50) 38 0) (32 * 2 ^ max 4 (bits v 15 12)) ∧
        InBarn (s.getF (State.dbReg q 0x58) 38 0) 64 := by
  obtain ⟨-, hsq, hcq, -⟩ := getF_qctrlFields s q v he
  have hbase : ∀ o, 0x44 ≤ o → (qctrlFields s q v).getF (State.dbReg q o) 38 0 = s.getF (State.dbReg q o) 38 0 := by
    intro o ho
    refine State.getF_of_reg_eq (reg_qctrlFields s q v (dbReg_ne (by omega)) (Or.inr ?_)) _ _
    unfold State.dbReg
    omega
  unfold State.queueOk State.sqSize State.cqSize ringLog2
  simp only [hsq, hcq, hbase 0x48 (by decide), hbase 0x50 (by decide), hbase 0x58 (by decide), Bool.and_eq_true,
    decide_eq_true_eq, InBarn, and_assoc]

/-- RESET of a queue with an incomplete sheaf is logged (R140). -/
theorem resetQueue_of_busy (h : s.reg (State.dbReg q 0x64) ≠ s.reg (State.dbReg q 0x68)) :
    s.resetQueue q = s.log (.doorbell q) .queueBusy := if_pos h

/-- RESET of a queue whose sheaves are all complete zeroes its indices (R140). -/
theorem reg_resetQueue_of_idle (h : s.reg (State.dbReg q 0x64) = s.reg (State.dbReg q 0x68)) :
    ∀ o ∈ [0x60, 0x64, 0x68, 0x6C], (s.resetQueue q).reg (State.dbReg q o) = 0 := by
  have hp : ∀ (r : State) a, ((r.postStatus q 0 (.post none)).getD r).reg a = r.reg a := by
    intro r a
    unfold State.postStatus
    dsimp only
    split
    · exact State.reg_sendMesh _ _ _
    · rfl
  intro o ho
  unfold State.resetQueue
  rw [if_neg (by simpa using h)]
  dsimp only
  rw [hp]
  simp only [foldEach, List.foldl_cons, List.foldl_nil, State.reg_setReg]
  simp only [List.mem_cons, List.not_mem_nil, or_false] at ho
  rcases ho with rfl | rfl | rfl | rfl <;> simp [State.dbReg]

/-- EN is set over rings that lie right (R138). -/
theorem queueEnable_effect (he : s.getF (State.dbReg q 0x40) 0 0 = 0) (h0 : bit v 0 = true) (h1 : bit v 1 = false) :
    s.writeQctrl q v =
      if (qctrlFields s q v).queueOk q then (qctrlFields s q v).setF (State.dbReg q 0x40) 0 0 1
      else (qctrlFields s q v).log (.doorbell q) .queueConfig := by
  rw [writeQctrl_eq, qctrlEnable]
  simp [h0, h1, he]

/-- The indices of a queue are apart from QCTRL and the error registers. -/
theorem dbReg_index {o : Nat} (ho : o ∈ [0x60, 0x64, 0x68, 0x6C]) :
    State.dbReg q o ≠ State.dbReg q 0x40 ∧ State.dbReg q 0x28 ≤ State.dbReg q o := by
  simp only [List.mem_cons, List.not_mem_nil, or_false] at ho
  unfold State.dbReg
  omega

/-- R138: a write with EN set to a queue that is not enabled. -/
theorem queueEnable_spec {h q : Nat} {v : BitVec 32} (hq : q < 64) (hb : BarReady s h (.doorbell q))
    (h0 : v.getLsbD 0 = true) (h1 : v.getLsbD 1 = false) (he : s.getF (State.dbReg q 0x40) 0 0 = 0) :
    ∃ s', exec (.queueEnable h q v) s = .next s' ∧ s'.getF (State.dbReg q 0x40) 15 8 = bits v.toNat 15 8 ∧
      (InBarn (s.getF (State.dbReg q 0x48) 38 0) (64 * 2 ^ max 4 (bits v.toNat 11 8)) →
        InBarn (s.getF (State.dbReg q 0x50) 38 0) (32 * 2 ^ max 4 (bits v.toNat 15 12)) →
        InBarn (s.getF (State.dbReg q 0x58) 38 0) 64 →
          s'.getF (State.dbReg q 0x40) 0 0 = 1 ∧ ∀ a, a ≠ State.dbReg q 0x40 → s'.reg a = s.reg a) ∧
      (¬ (InBarn (s.getF (State.dbReg q 0x48) 38 0) (64 * 2 ^ max 4 (bits v.toNat 11 8)) ∧
          InBarn (s.getF (State.dbReg q 0x50) 38 0) (32 * 2 ^ max 4 (bits v.toNat 15 12)) ∧
          InBarn (s.getF (State.dbReg q 0x58) 38 0) 64) →
        s'.getF (State.dbReg q 0x40) 0 0 = 0 ∧ Logged s s' (.doorbell q) .queueConfig) := by
  obtain ⟨hsize, -, -, hen⟩ := getF_qctrlFields s q v.toNat he
  have hok := queueOk_qctrlFields s q v.toNat he
  refine ⟨s.writeQctrl q v.toNat, ?_, ?_⟩
  · have hx : exec (.queueEnable h q v) s = writeRow s h (isSheafQueue q) (.doorbell q) 0x40 v (v.getLsbD 0) := rfl
    rw [hx, h0, writeRow_doorbell v hq hb (by decide), writeDoorbell_qctrl]
  rw [queueEnable_effect s q v.toNat he h0 h1]
  by_cases hl : (qctrlFields s q v.toNat).queueOk q = true
  · rw [if_pos hl]
    refine ⟨?_, fun _ _ _ => ⟨?_, ?_⟩, fun hn => absurd (hok.1 hl) hn⟩
    · rw [State.getF_setF_beside _ _ _ (by decide) (by decide) (by omega), hsize]
    · exact State.getF_setF_self _ _ _ _ _ (by decide) (by decide)
    · intro a ha
      rw [State.reg_setF_ne _ _ _ _ _ _ ha, reg_qctrlFields_of_disabled s q _ he ha]
  · rw [if_neg hl]
    have hctrl : ((qctrlFields s q v.toNat).log (.doorbell q) .queueConfig).reg (State.dbReg q 0x40) =
        (qctrlFields s q v.toNat).reg (State.dbReg q 0x40) :=
      State.reg_log_outside _ (.doorbell q) _ (Or.inr (by unfold State.dbReg; omega))
    have h14 : (Page.doorbell q).base + 0x14 ≠ State.dbReg q 0x40 := dbReg_ne (by decide)
    have h1C : (Page.doorbell q).base + 0x1C ≠ State.dbReg q 0x40 := dbReg_ne (by decide)
    refine ⟨(State.getF_of_reg_eq hctrl _ _).trans hsize, fun h48 h50 h58 => absurd (hok.2 ⟨h48, h50, h58⟩) hl, fun _ =>
      ⟨(State.getF_of_reg_eq hctrl _ _).trans hen, ?_⟩⟩
    exact logged_of_regs_eq (State.log_logged (qctrlFields s q v.toNat) (.doorbell q) .queueConfig)
      (reg_qctrlFields_of_disabled s q _ he h14).symm (reg_qctrlFields_of_disabled s q _ he h1C).symm rfl

/-- R143: a write with EN clear. -/
theorem queueDisable_spec {h q : Nat} {v : BitVec 32} (hq : q < 64) (hb : BarReady s h (.doorbell q))
    (h0 : v.getLsbD 0 = false) (h1 : v.getLsbD 1 = false) :
    ∃ s', exec (.queueDisable h q v) s = .next s' ∧ s'.getF (State.dbReg q 0x40) 0 0 = 0 ∧
      ∀ o ∈ [0x60, 0x64, 0x68, 0x6C], s'.reg (State.dbReg q o) = s.reg (State.dbReg q o) := by
  have hw : s.writeQctrl q v.toNat = ((qctrlFields s q v.toNat).setF (State.dbReg q 0x40) 0 0 0).setHead q .reset := by
    have hb0 : bit v.toNat 0 = false := h0
    have hb1 : bit v.toNat 1 = false := h1
    rw [writeQctrl_eq, qctrlEnable]
    simp [hb0, hb1]
  refine ⟨s.writeQctrl q v.toNat, ?_, ?_, ?_⟩
  · have hx : exec (.queueDisable h q v) s = writeRow s h (isSheafQueue q) (.doorbell q) 0x40 v (!v.getLsbD 0) := rfl
    rw [hx, h0, Bool.not_false, writeRow_doorbell v hq hb (by decide), writeDoorbell_qctrl]
  · rw [hw, getF_setHead]
    exact State.getF_setF_self _ _ _ _ _ (by decide) (by decide)
  · intro o ho
    obtain ⟨hne, hge⟩ := dbReg_index q ho
    rw [hw, reg_setHead, State.reg_setF_ne _ _ _ _ _ _ hne, reg_qctrlFields s q _ hne (Or.inr hge)]

/-- R140: a write with RESET set. -/
theorem queueReset_spec {h q : Nat} {v : BitVec 32} (hq : q < 64) (hb : BarReady s h (.doorbell q))
    (h1 : v.getLsbD 1 = true) :
    ∃ s', exec (.queueReset h q v) s = .next s' ∧
      if s.reg (State.dbReg q 0x64) = s.reg (State.dbReg q 0x68) then
        ∀ o ∈ [0x60, 0x64, 0x68, 0x6C], s'.reg (State.dbReg q o) = 0
      else Logged s s' (.doorbell q) .queueBusy ∧
        ∀ o ∈ [0x60, 0x64, 0x68, 0x6C], s'.reg (State.dbReg q o) = s.reg (State.dbReg q o) := by
  have hb1 : bit v.toNat 1 = true := h1
  have hw := writeQctrl_eq s q v.toNat
  rw [hb1, if_pos rfl] at hw
  have hidx : ∀ o ∈ [0x60, 0x64, 0x68, 0x6C],
      (s.writeQctrl q v.toNat).reg (State.dbReg q o) = (s.resetQueue q).reg (State.dbReg q o) := by
    intro o ho
    obtain ⟨hne, hge⟩ := dbReg_index q ho
    rw [hw, reg_qctrlEnable _ _ _ _ hne (Or.inr hge), reg_qctrlFields _ _ _ hne (Or.inr hge)]
  refine ⟨s.writeQctrl q v.toNat, ?_, ?_⟩
  · have hx : exec (.queueReset h q v) s = writeRow s h (isSheafQueue q) (.doorbell q) 0x40 v (v.getLsbD 1) := rfl
    rw [hx, h1, writeRow_doorbell v hq hb (by decide), writeDoorbell_qctrl]
  split
  · next hidle =>
    intro o ho
    rw [hidx o ho, reg_resetQueue_of_idle s q hidle o ho]
  · next hbusy =>
    have hr := resetQueue_of_busy s q hbusy
    have hl : Logged s (s.resetQueue q) (.doorbell q) .queueBusy := hr ▸ State.log_logged s _ _
    refine ⟨hw ▸ logged_qctrlEnable _ _ _ _ (logged_qctrlFields _ _ _ hl), fun o ho => ?_⟩
    rw [hidx o ho, hr, State.reg_log_outside s (.doorbell q) _ (Or.inr (dbReg_index q ho).2)]

/-- Settles O21: a register write of a ready page is the page's own effect, and QCTRL is RESET, then the fields, then EN. -/
theorem queuesAndDoorbells : Obligations.QueuesAndDoorbells :=
  ⟨doorbellsSetTheirIndexOrLog, fun s _ _ _ hq hb h0 h1 he => queueEnable_spec s hq hb h0 h1 he,
    fun s _ _ _ hq hb h0 h1 => queueDisable_spec s hq hb h0 h1, fun s _ _ _ hq hb h1 => queueReset_spec s hq hb h1⟩

end Sys2Proof.Machine

/-! ## Tally messages at their parts (R272, R275, R285, R291)

Waking a tile may fault it, and a fault reaches the dispatcher and the other tiles of the gang, but none of this reaches the
tally tree: every operation on the way keeps it. -/

namespace Sys2Proof.Machine

namespace State

section TallyKept

variable (s : State)

/-! ### What waking a tile leaves of the tree -/

@[simp] theorem raise_tally (v : Nat) : (s.raise v).tally = s.tally := tally_of_interior (raise_interior s v)
@[simp] theorem postLines_tally (d : Nat) (bs : List Byte) (v : Option Nat) : (s.postLines d bs v).tally = s.tally :=
  tally_of_interior (postLines_interior s d bs v)
@[simp] theorem drainHosts_tally : s.drainHosts.tally = s.tally := tally_of_interior (drainHosts_interior s)
@[simp] theorem settleBanks_tally (t : Nat) (qs : List Nat) : (s.settleBanks t qs).tally = s.tally :=
  tally_of_interior (settleBanks_interior s t qs)
@[simp] theorem sweepStrike_tally (t : Nat) : (s.sweepStrike t).tally = s.tally :=
  tally_of_interior (sweepStrike_interior s t)
@[simp] theorem inject_tally (k : Packet) (n : Nat) : (s.inject k n).2.tally = s.tally :=
  tally_of_interior (inject_interior s k n)
@[simp] theorem log_tally (p : Page) (c : Cause) : (s.log p c).tally = s.tally := tally_of_interior (log_interior s p c)
@[simp] theorem countCycles_tally (t off : Nat) : (s.countCycles t off).tally = s.tally := rfl

@[simp] theorem onCheck_tally (t : Nat) (f : TitheStep → TitheStep) : (s.onCheck t f).tally = s.tally := by
  unfold onCheck; split <;> rfl

@[simp] theorem traceWith_tally (t type queue tag qi : Nat) (f : Option (Nat × FaultInfo)) :
    (s.traceWith t type queue tag qi f).tally = s.tally := by
  unfold traceWith
  dsimp only
  split
  · rfl
  · split <;> rfl

@[simp] theorem sendCommit_tally (t : Nat) (e : BitVec 32) (a : Bool) (r : Receiver) :
    (sendCommit t e a r s).tally = s.tally := by
  unfold sendCommit
  cases r with
  | tile u => rfl
  | barn => rfl
  | remote n k => exact inject_tally s _ _

@[simp] theorem dropInflight_tally (u : Nat) (e : BitVec 32) (r : Receiver) : (dropInflight u e r s).tally = s.tally := by
  unfold dropInflight
  cases r with
  | tile pt =>
    dsimp only
    split
    · rw [drainHosts_tally, onTile_tally, countCycles_tally]
    · rfl
  | barn => rfl
  | remote n k => rfl

@[simp] theorem gateAbort_tally (t : Nat) : (s.gateAbort t).tally = s.tally := by
  unfold gateAbort
  dsimp only
  split
  · rfl
  · rfl
  · rw [onTile_tally, foldEach_keeps State.tally _ (fun r s => sendCommit_tally s _ _ _ r),
      foldEach_keeps State.tally _ (fun r s => dropInflight_tally s _ _ r)]

@[simp] theorem dropWrites_tally (t : Nat) : (s.dropWrites t).tally = s.tally := by
  unfold dropWrites
  extract_lets mine s₁ s₂
  have h₂ : s₂.tally = s.tally := by
    refine (foldEach_keeps State.tally _ (fun c r => ?_) _ _).trans rfl
    split <;> rfl
  split
  · exact h₂
  · rw [drainHosts_tally, h₂]

@[simp] theorem countStopped_tally (t : Nat) : (s.countStopped t).tally = s.tally := by
  unfold countStopped
  dsimp only
  rw [foldEach_keeps State.tally _ fun off r => countCycles_tally r t off]
  split <;> split <;> rfl

@[simp] theorem stopTile_tally (t : Nat) : (s.stopTile t).tally = s.tally := by
  unfold stopTile
  simp

@[simp] theorem dropCheck_tally (t : Nat) : (s.dropCheck t).tally = s.tally := by
  unfold dropCheck
  split
  · rfl
  · dsimp only
    split
    · unfold restRuns
      refine foldEach_keeps State.tally _ (fun pt r => ?_) _ _
      split <;> rfl
    · rfl

@[simp] theorem faultRecord_tally (i : FaultInfo) (c : RecordContext) (t : Option Nat) :
    (s.faultRecord i c t).2.2.tally = s.tally := by
  unfold faultRecord
  dsimp only
  split
  · rw [raise_tally, addF_tally, setF_tally]
  · rw [postLines_tally, setF_tally]

@[simp] theorem stopOthers_tally (g : Nat) (t : Option Nat) : (s.stopOthers g t).tally = s.tally := by
  unfold stopOthers
  refine foldEach_keeps State.tally _ (fun u r => ?_) _ _
  split
  · rfl
  · rw [stopTile_tally, dropCheck_tally]

@[simp] theorem gangFault_tally (g : Nat) (i : FaultInfo) (t : Nat) : (s.gangFault g i t).tally = s.tally := by
  unfold gangFault
  dsimp only
  repeat' split
  all_goals simp

@[simp] theorem reportFault_tally (t : Nat) (i : FaultInfo) : (s.reportFault t i).tally = s.tally := by
  unfold reportFault
  split
  · exact gangFault_tally _ _ _ _
  · rfl

@[simp] theorem tileFault_tally (t : Nat) (i : FaultInfo) : (s.tileFault t i).tally = s.tally := by
  unfold tileFault
  dsimp only
  split <;> simp

@[simp] theorem sign_tally (t : Nat) (w : WriteRec) : (s.sign t w).tally = s.tally := onCheck_tally s t _

@[simp] theorem signBytes_tally (t source entry kind a : Nat) (bs : List Byte) (b : Bool) (n : Nat) :
    (s.signBytes t source entry kind a bs b n).tally = s.tally := by
  induction n generalizing s a bs with
  | zero => rfl
  | succ n ih =>
    unfold signBytes
    dsimp only
    split
    · exact sign_tally _ _ _
    · exact (ih _ _ _).trans (sign_tally _ _ _)

@[simp] theorem endSyncWith_tally (t : Nat) (e : Entry) (r : SyncResult) (w : List Byte) :
    (s.endSyncWith t e r w).tally = s.tally := by
  unfold endSyncWith
  extract_lets c a s₀ s₁ s₂ done s₃
  have h₂ : s₂.tally = s.tally := by
    refine (onCheck_tally s₁ t _).trans ?_
    unfold s₁
    split
    · exact onCheck_tally _ t _
    · rfl
  have h₃ : s₃.tally = s.tally := (signBytes_tally _ _ _ _ _ _ _ _ _).trans h₂
  split
  · exact h₃
  · split
    · exact h₂
    · exact (tileFault_tally _ _ _).trans h₂

@[simp] theorem wake_tally (t : Nat) : (s.wake t).tally = s.tally := by
  have hc : (s.countGated t).tally = s.tally := by unfold countGated; split <;> rfl
  unfold wake inClock
  split
  · rfl
  · split
    · split
      · exact (endSyncWith_tally _ _ _ _ _).trans hc
      · rfl
    · rfl

@[simp] theorem wakeAll_tally (ts : List Nat) : (s.wakeAll ts).tally = s.tally :=
  foldEach_keeps State.tally _ (fun t r => wake_tally r t) ts s

end TallyKept

/-! ### The messages on their way and the parts of the tree -/

/-- The messages of the tree on their way are `ms`. -/
def setMsgs (s : State) (ms : List TallyMsg) : State := s.onTally fun n => { n with msgs := ms }

section Parts

variable (s : State)

@[simp] theorem setMsgs_msgs (ms : List TallyMsg) : (s.setMsgs ms).tally.msgs = ms := rfl
@[simp] theorem setMsgs_padNode (ms : List TallyMsg) (p id : Nat) : (s.setMsgs ms).padNode p id = s.padNode p id := rfl
@[simp] theorem setMsgs_gangIn (ms : List TallyMsg) (g p : Nat) : (s.setMsgs ms).gangIn g p = s.gangIn g p := rfl
@[simp] theorem setMsgs_setMsgs (ms ms' : List TallyMsg) : (s.setMsgs ms).setMsgs ms' = s.setMsgs ms' := rfl

/-- Sending a message for each of a list puts them on their way in order. -/
theorem foldEach_sendTally (ts : List Nat) (m : Nat → TallyMsg) :
    foldEach ts s (fun t s => s.sendTally (m t)) = s.setMsgs (s.tally.msgs ++ ts.map m) := by
  induction ts generalizing s with
  | nil => rw [List.map_nil, List.append_nil]; rfl
  | cons t ts ih =>
    refine (ih (s.sendTally (m t))).trans ?_
    rw [List.map_cons, List.append_cons]
    rfl

theorem padNode_of_tally {s s' : State} (e : s'.tally = s.tally) (p id : Nat) : s'.padNode p id = s.padNode p id := by
  unfold padNode
  rw [e]

/-- A part reads as it was changed. -/
@[simp] theorem padNode_onPadNode_self (p id : Nat) (f : TallyNode → TallyNode) :
    (s.onPadNode p id f).padNode p id = f (s.padNode p id) := by
  unfold onPadNode padNode
  generalize id / 64 = scope
  rcases scope with _ | _ | scope <;> exact SMap.look_put_self TallyNode.reset _ _ _

/-- Changing a part changes the tree alone, and none of its messages. -/
theorem onPadNode_rest (p id : Nat) (f : TallyNode → TallyNode) : { s.onPadNode p id f with tally := s.tally } = s := by
  unfold onPadNode
  dsimp only
  split <;> rfl

@[simp] theorem onPadNode_msgs (p id : Nat) (f : TallyNode → TallyNode) :
    (s.onPadNode p id f).tally.msgs = s.tally.msgs := by
  unfold onPadNode
  dsimp only
  split <;> rfl

@[simp] theorem onPadNode_gangIn (p id : Nat) (f : TallyNode → TallyNode) (g q : Nat) :
    (s.onPadNode p id f).gangIn g q = s.gangIn g q :=
  (congrArg (fun x : State => x.gangIn g q) (onPadNode_rest s p id f) :)

@[simp] theorem reg_onPadNode (p id : Nat) (f : TallyNode → TallyNode) (a : Nat) :
    (s.onPadNode p id f).reg a = s.reg a :=
  (congrArg (fun x : State => x.reg a) (onPadNode_rest s p id f) :)

@[simp] theorem leaf_onLeaf_self (t id : Nat) (f : Leaf → Leaf) : (s.onLeaf t id f).leaf t id = f (s.leaf t id) := by
  unfold onLeaf leaf
  rw [tile_onTile_self]
  exact SMap.look_put_self _ _ _ _

@[simp] theorem waiter_onLeaf (t id : Nat) (f : Leaf → Leaf) : (s.onLeaf t id f).waiter t = s.waiter t := by
  unfold onLeaf waiter headEntry
  rw [tile_onTile_self]

/-- The source counted once more. -/
theorem ite_contains_eq_ite_mem (xs : List Nat) (src : Nat) :
    (if xs.contains src = true then xs else xs ++ [src]) = if src ∈ xs then xs else xs ++ [src] := by
  simp

/-! ### What a part does with a message -/

variable {p id : Nat}

theorem takeArrival_unbound (src : Nat) (e : BitVec 32) (hp : p < 16) (hb : (s.padNode p id).bound = false) :
    s.takeArrival p id src e = s.log (.tally 16) .tallyStray := by
  unfold takeArrival
  simp only [if_pos hp, hb, Bool.not_false, if_true]

theorem takeArrival_lost (src : Nat) (e : BitVec 32) (hp : p < 16) (hb : (s.padNode p id).bound = true)
    (hl : (s.padNode p id).lost = true) : s.takeArrival p id src e = s := by
  unfold takeArrival
  simp only [if_pos hp, hb, hl, Bool.not_true, Bool.false_eq_true, if_false, if_true]

/-- An arrival that is not the last one expected is counted. -/
theorem takeArrival_counts {src : Nat} (e : BitVec 32) {xs : List Nat} (hp : p < 16)
    (hb : (s.padNode p id).bound = true) (hl : (s.padNode p id).lost = false)
    (hx : xs = if src ∈ (s.padNode p id).counted then (s.padNode p id).counted else (s.padNode p id).counted ++ [src])
    (hn : xs.length < (s.padNode p id).expected) :
    s.takeArrival p id src e = s.onPadNode p id fun x => { x with counted := xs } := by
  unfold takeArrival
  simp only [if_pos hp, hb, hl, Bool.not_true, Bool.false_eq_true, if_false, ite_contains_eq_ite_mem, ← hx, if_pos hn]

/-- The last arrival expected at a paddock tally releases the tiles of its gang there (R272). -/
theorem takeArrival_releases {src : Nat} (e : BitVec 32) {xs : List Nat} (hp : p < 16) (hid : id < 64)
    (hb : (s.padNode p id).bound = true) (hl : (s.padNode p id).lost = false)
    (hx : xs = if src ∈ (s.padNode p id).counted then (s.padNode p id).counted else (s.padNode p id).counted ++ [src])
    (hn : ¬ xs.length < (s.padNode p id).expected) :
    s.takeArrival p id src e =
      (s.onPadNode p id fun x => { x with counted := [], epoch := (s.padNode p id).epoch + 1 }).setMsgs
        (s.tally.msgs ++ (s.gangIn (s.padNode p id).gang p).map fun t =>
          .release (.leaf t) id ((s.padNode p id).epoch + 1)) := by
  unfold takeArrival
  simp only [if_pos hp, hb, hl, Bool.not_true, Bool.false_eq_true, if_false, ite_contains_eq_ite_mem, ← hx, if_neg hn, if_pos hid,
    foldEach_sendTally, onPadNode_msgs, onPadNode_gangIn]

/-- A release reaches a leaf at which nothing waits. -/
theorem takeRelease_leaf {t : Nat} (e : BitVec 32) (hw : s.waiter t = none) :
    s.takeRelease (.leaf t) id e = s.onLeaf t id fun l => { l with released := e } := by
  unfold takeRelease wakeReleased
  simp only [waiter_onLeaf, hw]

/-- A release reaches a part, which passes it on to the tiles of its gang there, whether or not it is bound (log entry 94). -/
theorem takeRelease_node (e : BitVec 32) :
    s.takeRelease (.node p) id e =
      ((if (s.padNode p id).bound ∧ e = (s.padNode p id).epoch + 1 then s
        else s.log (.tally 16) .tallyStray).onPadNode p id fun x => { x with epoch := e, counted := [] }).setMsgs
        (s.tally.msgs ++ (s.gangIn (s.padNode p id).gang p).map fun t => .release (.leaf t) id e) := by
  have hg : ∀ g, (s.log (.tally 16) .tallyStray).gangIn g p = s.gangIn g p := fun g =>
    gangIn_of_interior (log_interior s _ _) g p
  unfold takeRelease
  simp only [foldEach_sendTally, onPadNode_msgs, onPadNode_gangIn]
  split
  · rfl
  · rw [log_tally, hg]

/-- A withdrawal makes a bound paddock tally lost and wakes the tiles of its gang there (R285). -/
theorem takeWithdrawal_paddock (src : Nat) (hp : p < 16) (hid : id < 64) (hb : (s.padNode p id).bound = true) :
    s.takeWithdrawal p id src =
      (s.onPadNode p id fun x => { x with expected := x.expected - 1, counted := [], lost := true }).wakeAll
        (s.gangIn (s.padNode p id).gang p) := by
  unfold takeWithdrawal
  simp only [if_pos hp, hb, Bool.not_true, Bool.false_eq_true, if_false, if_pos hid]

end Parts
end State

/-! ### The rows of the tally tree -/

section TallyRows

variable {s : State} {id : BitVec 8}

theorem exec_tallyArrival {p i src : Nat} {at_ : TallyPart} {e : BitVec 32} {rest : List TallyMsg} (hp : p < 16)
    (hc : s.pllLost p = false)
    (hm : takeOrdered TallyMsg.path (State.isArrival p id.toNat) [] s.tally.msgs = some (.arrival at_ i src e, rest)) :
    exec (.tallyArrival p id) s = .next ((s.setMsgs rest).takeArrival p i src e) := by
  have hx : exec (.tallyArrival p id) s = execTallyArrival p id s := rfl
  have hk : State.nodeClock p = p := if_pos hp
  rw [hx, execTallyArrival, hm, hk, guardUnit_true _ _ (by simp [isTallyPage]; omega), inClock_runs s p _ hc]
  rfl

theorem exec_tallyRelease {at_ a : TallyPart} {i : Nat} {e : BitVec 32} {rest : List TallyMsg} (hp : isTallyPart at_ = true)
    (hc : s.pllLost (State.partClock at_) = false)
    (hm : takeOrdered TallyMsg.path (State.isRelease at_ id.toNat) [] s.tally.msgs = some (.release a i e, rest)) :
    exec (.tallyRelease at_ id) s = .next ((s.setMsgs rest).takeRelease a i e) := by
  have hx : exec (.tallyRelease at_ id) s = execTallyRelease at_ id s := rfl
  rw [hx, execTallyRelease, hm, guardUnit_true _ _ hp, inClock_runs s _ _ hc]
  rfl

theorem exec_tallyWithdrawal {p i src : Nat} {at_ : TallyPart} {rest : List TallyMsg} (hp : p < 16)
    (hc : s.pllLost p = false)
    (hm : takeOrdered TallyMsg.path (State.isWithdrawal p id.toNat) [] s.tally.msgs = some (.withdrawal at_ i src, rest)) :
    exec (.tallyWithdrawal p id) s = .next ((s.setMsgs rest).takeWithdrawal p i src) := by
  have hx : exec (.tallyWithdrawal p id) s = execTallyWithdrawal p id s := rfl
  have hk : State.nodeClock p = p := if_pos hp
  rw [hx, execTallyWithdrawal, hm, hk, guardUnit_true _ _ (by simp [isTallyPage]; omega), inClock_runs s p _ hc]
  rfl

/-- Arrivals at a paddock tally (R272, R275). -/
theorem arrivalsAreCountedAndRelease : Claims.ArrivalsAreCountedAndRelease := by
  intro s p src id e rest xs hp hid hc hm hx
  refine ⟨_, exec_tallyArrival hp hc hm, ?_⟩
  split
  · next hb =>
    rw [State.takeArrival_unbound (s.setMsgs rest) src e hp hb]
    refine ⟨logged_of_regs_eq (State.log_logged (s.setMsgs rest) _ _) rfl rfl rfl, ?_, ?_⟩
    · exact State.padNode_of_tally (State.log_tally (s.setMsgs rest) _ _) _ _
    · rw [State.log_tally, State.setMsgs_msgs]
  · next hb =>
    have hb : ((s.setMsgs rest).padNode p id.toNat).bound = true := by simpa using hb
    split
    · next hl =>
      rw [State.takeArrival_lost (s.setMsgs rest) src e hp hb hl]
      rfl
    · next hl =>
      have hl : ((s.setMsgs rest).padNode p id.toNat).lost = false := by simpa using hl
      split
      · next hn =>
        rw [State.takeArrival_counts (s.setMsgs rest) e hp hb hl hx hn]
        simp
      · next hn =>
        rw [State.takeArrival_releases (s.setMsgs rest) e hp hid hb hl hx hn]
        simp

/-- Releases at leaves and parts, and withdrawals (R272, R285). -/
theorem releasesAndWithdrawalsReachTheirParts : Claims.ReleasesAndWithdrawalsReachTheirParts := by
  refine ⟨?_, ?_, ?_⟩
  · intro s t id e rest ht hw hc hm
    refine ⟨_, exec_tallyRelease (at_ := .leaf t) (by simpa [isTallyPart, isTile] using ht) hc hm, ?_⟩
    rw [State.takeRelease_leaf (s.setMsgs rest) e hw]
    exact ⟨State.leaf_onLeaf_self _ _ _ _, rfl, fun u hu => State.tile_onTile_ne _ _ _ _ hu⟩
  · intro s p id e rest hp hc hm
    refine ⟨_, exec_tallyRelease (at_ := .node p) (by simpa [isTallyPart, isPaddock] using hp) hc hm, ?_⟩
    rw [State.takeRelease_node]
    refine ⟨?_, fun hstray => ?_, rfl⟩
    · rw [State.setMsgs_padNode, State.padNode_onPadNode_self]
      split
      · rfl
      · rw [State.padNode_of_tally (State.log_tally _ _ _)]
        rfl
    · rw [if_neg]
      · exact logged_of_regs_eq (State.log_logged (s.setMsgs rest) _ _) rfl rfl (State.reg_onPadNode _ _ _ _ _)
      · rintro ⟨hb, he⟩
        rcases hstray with h | h
        · exact absurd (h.symm.trans hb) (by decide)
        · exact h he
  · intro s p src id rest hp hid hc hm hb
    refine ⟨_, exec_tallyWithdrawal hp hc hm, ?_⟩
    rw [State.takeWithdrawal_paddock (s.setMsgs rest) src hp hid hb, State.padNode_of_tally (State.wakeAll_tally _ _),
      State.padNode_onPadNode_self]
    exact ⟨rfl, rfl, rfl⟩

/-- Parts whose clock stands still take nothing (R476, log entry 83). -/
theorem tallyPartsStandStill : Claims.TallyPartsStandStill := by
  have hrow : ∀ (s s' : State) (b : Bool) (k : Nat), b = true → s.pllLost k = true → guardUnit b (s.inClock k s') = .next s := by
    intro s s' b k hb hk
    rw [guardUnit_true _ _ hb, inClock_lost s k _ hk]
  intro s id
  refine ⟨fun p hp hk => ?_, fun hk => ?_, fun t ht hk => ?_⟩
  · have hpage : isTallyPage p = true := by simp [isTallyPage]; omega
    have hclk : s.pllLost (State.nodeClock p) = true := by rwa [State.nodeClock, if_pos hp]
    exact ⟨hrow _ _ _ _ hpage hclk, hrow _ _ _ _ hpage hclk, hrow _ _ _ _ (by simpa [isTallyPart, isPaddock] using hp) hk⟩
  · exact ⟨hrow _ _ _ _ rfl hk, hrow _ _ _ _ rfl hk⟩
  · exact hrow _ _ _ _ (by simpa [isTallyPart, isTile] using ht) hk

/-- Settles O41: a message is taken off the tree and its part takes it; waking tiles, even into a fault, leaves the tree as it
is. -/
theorem talliesCountReleaseAndWithdraw : Obligations.TalliesCountReleaseAndWithdraw :=
  ⟨arrivalsAreCountedAndRelease, releasesAndWithdrawalsReachTheirParts, tallyPartsStandStill⟩

end TallyRows

end Sys2Proof.Machine

/-! ## The commit gate (R39, R41, R42, R253) -/

namespace Sys2Proof.Machine

/-! ### What senders and traces leave of a tile -/

/-- A tile but for its cycle counter and what other tiles send it. -/
def Tile.own (x : Tile) : Tile := { x with cycle := 0, inflight := [], stageWait := [], commits := [] }

section Own

variable {x y : Tile} (e : y.own = x.own)
include e

theorem gate_of_own : y.gate = x.gate := (congrArg Tile.gate e :)
theorem core_of_own : y.core = x.core := (congrArg Tile.core e :)
theorem epoch_of_own : y.epoch = x.epoch := (congrArg Tile.epoch e :)
theorem stepsDone_of_own : y.stepsDone = x.stepsDone := (congrArg Tile.stepsDone e :)
theorem pc_of_own : y.pc = x.pc := (congrArg Tile.pc e :)
theorem g_of_own : y.g = x.g := (congrArg Tile.g e :)
theorem gang_of_own : y.gang = x.gang := (congrArg Tile.gang e :)
theorem nextPc_of_own : nextPc y = nextPc x := (congrArg nextPc e :)

end Own

namespace State

variable (s : State)

/-- A change of a tile that leaves its own part leaves that of every tile. -/
theorem onTile_own {v u : Nat} {f : Tile → Tile} (h : ∀ x, (f x).own = x.own) :
    ((s.onTile v f).tile u).own = (s.tile u).own := by
  rw [tile_onTile]
  split
  · next e => rw [h, e]
  · rfl

theorem trace_own (t type queue tag qi u : Nat) : ((s.trace t type queue tag qi).tile u).own = (s.tile u).own := by
  have ha : ((s.advanceCycle t).tile u).own = (s.tile u).own := by
    exact onTile_own (s.takeFree 64).2 (f := fun x => { x with cycle := x.cycle + (s.takeFree 64).1 }) fun _ => rfl
  unfold trace traceWith
  dsimp only
  split
  · rfl
  · split
    · exact ha
    · rfl

theorem trace_commits (t type queue tag qi u : Nat) : ((s.trace t type queue tag qi).tile u).commits = (s.tile u).commits := by
  have ha : ((s.advanceCycle t).tile u).commits = (s.tile u).commits := by
    unfold advanceCycle
    rw [tile_onTile]
    split
    · next h => subst h; rfl
    · rfl
  unfold trace traceWith
  dsimp only
  split
  · rfl
  · split
    · exact ha
    · rfl

theorem trace_gang (t type queue tag qi g : Nat) : (s.trace t type queue tag qi).gang g = s.gang g := by
  unfold trace traceWith
  dsimp only
  split
  · rfl
  · split <;> rfl

theorem sendCommit_own (t : Nat) (e : BitVec 32) (a : Bool) (r : Receiver) (u : Nat) :
    ((sendCommit t e a r s).tile u).own = (s.tile u).own := by
  unfold sendCommit
  cases r with
  | tile v =>
    exact onTile_own s (fun _ => rfl)
  | barn => rfl
  | remote n k => rw [tile_of_interior (inject_interior s _ _)]

/-- A commit or abort message to a tile waits there behind the others. -/
theorem sendCommit_commits (t : Nat) (e : BitVec 32) (a : Bool) (r : Receiver) (u : Nat) :
    ((sendCommit t e a r s).tile u).commits =
      (s.tile u).commits ++ List.replicate (List.count (.tile u) [r]) ⟨.tile t, e, a⟩ := by
  unfold sendCommit
  cases r with
  | tile v =>
    dsimp only
    rw [tile_onTile]
    by_cases h : u = v
    · subst h; simp
    · simp [h, Ne.symm h]
  | barn => simp [tile]
  | remote n k =>
    dsimp only
    rw [tile_of_interior (inject_interior s _ _)]
    simp

theorem foldEach_sendCommit_commits (t : Nat) (e : BitVec 32) (a : Bool) (rs : List Receiver) (u : Nat) :
    ((foldEach rs s (sendCommit t e a)).tile u).commits =
      (s.tile u).commits ++ List.replicate (rs.count (.tile u)) ⟨.tile t, e, a⟩ := by
  induction rs generalizing s with
  | nil => simp [foldEach]
  | cons r rs ih =>
    refine (ih (sendCommit t e a r s)).trans ?_
    rw [sendCommit_commits, List.append_assoc, ← List.replicate_add, ← List.count_append, List.singleton_append]

theorem dropInflight_own (v : Nat) (e : BitVec 32) (r : Receiver) (u : Nat) :
    ((dropInflight v e r s).tile u).own = (s.tile u).own := by
  unfold dropInflight
  cases r with
  | tile pt =>
    dsimp only
    by_cases h : ((s.tile pt).stageWait.any fun l => decide (l.src = .tile v ∧ l.epoch = e)) = true
    · simp only [h, if_true]
      rw [tile_of_interior (drainHosts_interior _)]
      exact onTile_own (s.countCycles v 0x90) (fun _ => rfl)
    · simp only [h, Bool.false_eq_true, if_false]
      exact onTile_own s (fun _ => rfl)
  | barn => rfl
  | remote n k => rfl

/-! ### What a released step sends -/

/-- The flag updates of this module that held items of a tile become, of this gang and crew (R283). -/
def heldFlagsOf (t : Nat) (gang : Option Nat) (crew : Nat) (held : List HeldItem) : List FlagMsg :=
  held.filterMap fun i => match i with
    | .flagAdd f v none => some ⟨.tile t, f, v, gang, crew⟩
    | _ => none

theorem heldFlags_eq (t : Nat) (held : List HeldItem) :
    heldFlags s t held =
      heldFlagsOf t (s.tile t).gang (((s.tile t).gang.map fun g => (s.gang g).crew).getD 0) held := rfl

/-- Held items that stay on this module go to the tree and the flags in issue order. -/
theorem foldEach_sendHeld (t : Nat) (gang : Option Nat) (crew : Nat) {held : List HeldItem} (hh : heldHere held) :
    foldEach held s (sendHeld t gang crew) = s.onTally fun n =>
      { n with msgs := n.msgs ++ heldArrivals t held, flagMsgs := n.flagMsgs ++ heldFlagsOf t gang crew held } := by
  induction held generalizing s with
  | nil => simp [foldEach, heldArrivals, heldFlagsOf, onTally]
  | cons i held ih =>
    have hrest : heldHere held := fun j hj => hh j (List.mem_cons_of_mem _ hj)
    refine (ih (sendHeld t gang crew i s) hrest).trans ?_
    match i, hh i List.mem_cons_self with
    | .arrival id e, _ => simp [sendHeld, sendTally, onTally, heldArrivals, heldFlagsOf]
    | .flagAdd f v none, _ => simp [sendHeld, onTally, heldArrivals, heldFlagsOf]
    | .flagAdd f v (some n), h => exact absurd rfl (h f v n)

/-! ### The end of a step -/

/-- A tile that begins its next step goes on, or stops at the boundary. -/
theorem beginStep_tile (t : Nat) :
    (s.beginStep t).tile t = s.tile t ∨
      (s.beginStep t).tile t = { s.tile t with core := .atGate, gate := { (s.tile t).gate with phase := .boundary } } := by
  unfold beginStep
  split
  · exact Or.inl rfl
  · split
    · exact Or.inr (tile_onTile_self _ _ _)
    · left
      unfold startStep
      dsimp only
      split
      · split <;> rfl
      · rfl

theorem beginStep_tally (t : Nat) : (s.beginStep t).tally = s.tally := by
  unfold beginStep
  split
  · rfl
  · split
    · rfl
    · unfold startStep
      dsimp only
      split
      · split <;> rfl
      · rfl

end State

/-- From `s` to `s'` the step of tile `t` at the gate ends: what it held is sent, and the tile goes on past the COMMIT (R39,
R42). -/
structure StepEnds (s s' : State) (t : Nat) : Prop where
  epoch : (s'.tile t).epoch = (s.tile t).epoch + 1
  stepsDone : (s'.tile t).stepsDone = (s.tile t).stepsDone + 1
  dirty : (s'.tile t).dirty = false
  held : (s'.tile t).gate.held = []
  pc : (s'.tile t).pc = nextPc (s.tile t)
  g : (s'.tile t).g = (s.tile t).g
  acks : (s'.tile t).acks = (s.tile t).acks
  msgs : s'.tally.msgs = s.tally.msgs ++ heldArrivals t (s.tile t).gate.held
  flagMsgs : s'.tally.flagMsgs = s.tally.flagMsgs ++ heldFlags s t (s.tile t).gate.held

/-- The tile of a step that has ended and runs on. -/
def Tile.stepEnded (x : Tile) : Tile :=
  { x with epoch := x.epoch + 1, stepsDone := x.stepsDone + 1, dirty := false, issued := [], arrived := [], core := .running,
           gate := .closed }

/-- The tally messages and flag updates held at the gate of tile `t` have been sent. -/
def State.afterHeld (s : State) (t : Nat) : State := s.onTally fun n =>
  { n with msgs := n.msgs ++ heldArrivals t (s.tile t).gate.held,
           flagMsgs := n.flagMsgs ++ heldFlags s t (s.tile t).gate.held }

variable (s : State) (t : Nat)

/-- The last acknowledgement ends the step of a tile at its gate. -/
theorem gateFinish_stepEnds (hc : (s.tile t).core = .atGate) (hh : heldHere (s.tile t).gate.held)
    (hn : nextPc (s.tile t) ≠ 0x8000) : StepEnds s (s.gateFinish t) t := by
  have hr := retire_spec (s.afterHeld t) t Tile.stepEnded rfl rfl hn
  have e : s.gateFinish t = (((s.afterHeld t).onTile t Tile.stepEnded).retire t).beginStep t := by
    unfold State.gateFinish
    dsimp only
    rw [State.foldEach_sendHeld _ _ _ _ hh]
    simp only [hc, decide_true, if_true]
    rfl
  rw [e]
  generalize ((s.afterHeld t).onTile t Tile.stepEnded).retire t = s₁ at hr
  have ht : (s₁.beginStep t).tally = (s.afterHeld t).tally :=
    (s₁.beginStep_tally t).trans (congrArg State.tally hr.rest :)
  have hb := s₁.beginStep_tile t
  rw [hr.tile] at hb
  constructor
  case msgs => rw [ht]; rfl
  case flagMsgs => rw [ht]; rfl
  all_goals rcases hb with hb | hb <;> rw [hb] <;> rfl

/-! ### Rows of the gate -/

@[simp] theorem State.inClock_self (k : Nat) : s.inClock k s = s := by
  unfold State.inClock
  split <;> rfl

/-- A tile that acts for itself makes no run of another's step. -/
theorem placeRuns_of_plain {s : State} {t : Nat} (h : Plain s t) : s.placeRuns t = false := by
  unfold State.placeRuns
  rw [h.own]
  rfl

theorem isTile_of_lt {t : Nat} (h : t < 4352) : isTile t = true := decide_eq_true h

/-- A sampled step, and one whose record waits for room in the trace ring, stays at the gate (R39, R174). -/
theorem exec_gateRelease_waits (ht : t < 4352) (hc : (s.tile t).core = .atGate) (hp : (s.tile t).gate.phase = .closed)
    (hw : s.sampled t = true ∨ s.tileBlocked t 4 = true) : exec (.gateRelease t) s = .next s := by
  have hx : exec (.gateRelease t) s = execGateRelease t s := rfl
  have hw' : (s.sampled t || s.placeRuns t || s.tileBlocked t 4) = true := by
    rcases hw with h | h <;> simp [h]
  rw [hx, execGateRelease, guardUnit_true _ _ (isTile_of_lt ht)]
  dsimp only
  rw [hc, hp]
  simp only [hw', if_true, State.inClock_self]

theorem exec_gateRelease_opens (h : Plain s t) (hc : (s.tile t).core = .atGate) (hp : (s.tile t).gate.phase = .closed)
    (hs : s.sampled t = false) (hb : s.tileBlocked t 4 = false) : exec (.gateRelease t) s = .next (s.gateOpen t) := by
  have hx : exec (.gateRelease t) s = execGateRelease t s := rfl
  rw [hx, execGateRelease, guardUnit_true _ _ (isTile_of_lt h.tile), inClock_runs _ _ _ h.clock]
  dsimp only
  rw [hc, hp]
  simp [hs, hb, placeRuns_of_plain h]

theorem exec_gateAbort (h : Plain s t) : exec (.gateAbort t) s = .next (s.gateAbort t) := by
  have hx : exec (.gateAbort t) s = execGateAbort t s := rfl
  rw [hx, execGateAbort, guardUnit_true _ _ (isTile_of_lt h.tile), inClock_runs _ _ _ h.clock, placeRuns_of_plain h]
  rfl

/-- The acknowledgement of receiver `r` has left the queue of tile `t`. -/
def State.ackTaken (s : State) (t : Nat) (r : Receiver) : State := s.onTile t fun x => { x with acks := x.acks.erase r }

theorem State.tile_ackTaken (r : Receiver) :
    (s.ackTaken t r).tile t = { s.tile t with acks := (s.tile t).acks.erase r } := tile_onTile_self _ _ _

theorem exec_stageAck {src : Nat} (h : Plain s t) (ha : State.recvName src ∈ (s.tile t).acks) :
    exec (.stageAck t src) s = .next ((s.ackTaken t (State.recvName src)).gateAck t (State.recvName src) none) := by
  have hx : exec (.stageAck t src) s = execStageAck t src s := rfl
  rw [hx, execStageAck, guardUnit_true _ _ (isTile_of_lt h.tile), inClock_runs _ _ _ h.clock]
  dsimp only
  rw [if_pos (List.contains_iff_mem.2 ha)]
  rfl

/-! ### Release -/

/-- The release of a step has been traced and its commit messages are on their way. -/
def State.told (s : State) (t : Nat) : State :=
  foldEach (s.tile t).gate.receivers (s.trace t 4 0xFF 0 0) (State.sendCommit t (s.tile t).epoch false)

theorem State.told_own (u : Nat) : ((s.told t).tile u).own = (s.tile u).own := by
  unfold State.told
  exact (foldEach_keeps (fun r : State => (r.tile u).own) _ (fun r s => State.sendCommit_own s _ _ _ r u) _ _).trans
    (State.trace_own s _ _ _ _ _ u)

theorem State.told_tally : (s.told t).tally = s.tally := by
  unfold State.told
  exact (foldEach_keeps State.tally _ (fun r s => State.sendCommit_tally s _ _ _ r) _ _).trans
    (State.traceWith_tally s _ _ _ _ _ _)

theorem State.told_commits (u : Nat) : ((s.told t).tile u).commits =
    (s.tile u).commits ++ List.replicate ((s.tile t).gate.receivers.count (.tile u)) ⟨.tile t, (s.tile t).epoch, false⟩ := by
  unfold State.told
  rw [State.foldEach_sendCommit_commits, State.trace_commits]

/-- The gate of tile `t` awaits the acknowledgements of `rs`. -/
def State.awaitAcks (s : State) (t : Nat) (rs : List Receiver) : State :=
  s.onTile t fun x => { x with gate := { x.gate with phase := .acking, awaiting := rs } }

theorem State.tile_awaitAcks (rs : List Receiver) : (s.awaitAcks t rs).tile t =
    { s.tile t with gate := { (s.tile t).gate with phase := .acking, awaiting := rs } } :=
  tile_onTile_self _ _ _

theorem State.awaitAcks_commits (rs : List Receiver) (u : Nat) :
    ((s.awaitAcks t rs).tile u).commits = (s.tile u).commits := by
  unfold State.awaitAcks
  rw [State.tile_onTile]
  split
  · next h => rw [h]
  · rfl

/-- The tile of an opened gate is as before, but that it awaits the acknowledgements. -/
theorem State.awaitAcks_told_own (rs : List Receiver) : (((s.told t).awaitAcks t rs).tile t).own =
    { (s.tile t).own with gate := { (s.tile t).gate with phase := .acking, awaiting := rs } } := by
  have e := s.told_own t t
  rw [State.tile_awaitAcks]
  exact congrArg (fun x : Tile => { x with gate := { x.gate with phase := .acking, awaiting := rs } }) e

/-- The gate opens: its record is traced, its receivers are told, and it awaits them, or the step ends at once. -/
theorem State.gateOpen_eq : s.gateOpen t =
    if (s.tile t).gate.receivers = [] then ((s.told t).awaitAcks t (s.tile t).gate.receivers).gateFinish t
    else (s.told t).awaitAcks t (s.tile t).gate.receivers := by
  have e := State.trace_own s t 4 0xFF 0 0 t
  unfold State.gateOpen
  dsimp only
  rw [gate_of_own e, epoch_of_own e]
  rfl

theorem State.sendCommit_gang (e : BitVec 32) (a : Bool) (r : Receiver) (g : Nat) :
    (State.sendCommit t e a r s).gang g = s.gang g := by
  unfold State.sendCommit
  cases r with
  | tile u => rfl
  | barn => rfl
  | remote n k => exact State.gang_of_interior (State.inject_interior s _ _) g

theorem State.told_gang (g : Nat) : (s.told t).gang g = s.gang g := by
  unfold State.told
  exact (foldEach_keeps (fun r : State => r.gang g) _ (fun r s => State.sendCommit_gang s t _ _ r g) _ _).trans
    (State.trace_gang s _ _ _ _ _ g)

/-- Opening the gate changes neither the gang of the step nor its crew. -/
theorem State.heldFlags_awaitAcks_told (rs : List Receiver) (held : List HeldItem) :
    heldFlags ((s.told t).awaitAcks t rs) t held = heldFlags s t held := by
  have hg : (((s.told t).awaitAcks t rs).tile t).gang = (s.tile t).gang :=
    (congrArg Tile.gang (s.awaitAcks_told_own t rs) :)
  have hc : ∀ g, ((s.told t).awaitAcks t rs).gang g = s.gang g := s.told_gang t
  simp only [State.heldFlags_eq, hg, hc]

/-- A step without receivers ends as its gate opens. -/
theorem gateOpen_stepEnds (hc : (s.tile t).core = .atGate) (hr : (s.tile t).gate.receivers = [])
    (hh : heldHere (s.tile t).gate.held) (hn : nextPc (s.tile t) ≠ 0x8000) : StepEnds s (s.gateOpen t) t := by
  have e := s.awaitAcks_told_own t []
  have ht : ((s.told t).awaitAcks t []).tally = s.tally := s.told_tally t
  have hf := s.heldFlags_awaitAcks_told t []
  rw [State.gateOpen_eq, if_pos hr, hr]
  generalize (s.told t).awaitAcks t [] = s₁ at e ht hf
  have hheld : (s₁.tile t).gate.held = (s.tile t).gate.held := (congrArg (·.gate.held) e :)
  have hpc : nextPc (s₁.tile t) = nextPc (s.tile t) := (congrArg nextPc e :)
  obtain ⟨epoch, stepsDone, dirty, held, pc, g, acks, msgs, flagMsgs⟩ :=
    gateFinish_stepEnds s₁ t ((congrArg Tile.core e :).trans hc) (hheld ▸ hh) (hpc ▸ hn)
  exact ⟨epoch.trans (congrArg (·.epoch + 1) e :), stepsDone.trans (congrArg (·.stepsDone + 1) e :), dirty, held,
    pc.trans hpc, g.trans (congrArg Tile.g e :), acks.trans (congrArg Tile.acks e :), by rw [msgs, ht, hheld],
    by rw [flagMsgs, ht, hheld, hf]⟩

/-- The gate of tile `t` still awaits the acknowledgements of `rs`. -/
def State.awaitFewer (s : State) (t : Nat) (rs : List Receiver) : State :=
  s.onTile t fun x => { x with gate := { x.gate with awaiting := rs } }

theorem State.tile_awaitFewer (rs : List Receiver) :
    (s.awaitFewer t rs).tile t = { s.tile t with gate := { (s.tile t).gate with awaiting := rs } } := tile_onTile_self _ _ _

/-- The acknowledgement that a gate awaits is taken by it; the last one ends the step (R42, R253). -/
theorem State.gateAck_gate {r : Receiver} (hp : (s.tile t).gate.phase = .acking)
    (hk : ∀ k ∈ (s.tile t).released, r ∉ k.awaiting) (hr : r ∈ (s.tile t).gate.awaiting) :
    s.gateAck t r none =
      if (s.tile t).gate.awaiting.erase r = [] then (s.awaitFewer t ((s.tile t).gate.awaiting.erase r)).gateFinish t
      else s.awaitFewer t ((s.tile t).gate.awaiting.erase r) := by
  have hkept : keptRelease (s.tile t) r none = none := by
    unfold keptRelease
    rw [List.find?_eq_none]
    intro k hm
    simpa using hk k hm
  unfold State.gateAck
  dsimp only
  rw [hkept]
  dsimp only
  rw [if_pos ⟨hp, List.contains_iff_mem.2 hr, Or.inl rfl⟩]
  rfl

/-- The acknowledgement that a release kept by a reset awaits is taken for it; the last one sends what it held (R41). -/
theorem State.gateAck_kept {r : Receiver} {k : Release} {rest : List Release} (hk : (s.tile t).released = k :: rest)
    (hr : r ∈ k.awaiting) (hh : heldHere k.held) :
    s.gateAck t r none =
      if k.awaiting.erase r = [] then
        (s.onTile t fun x => { x with released := x.released.erase k }).onTally fun n =>
          { n with msgs := n.msgs ++ heldArrivals t k.held, flagMsgs := n.flagMsgs ++ heldFlagsOf t k.gang k.crew k.held }
      else s.onTile t fun x => { x with released := x.released.replace k { k with awaiting := k.awaiting.erase r } } := by
  have hkept : keptRelease (s.tile t) r none = some k := by
    unfold keptRelease
    rw [hk]
    exact List.find?_cons_of_pos (by simpa using hr)
  unfold State.gateAck
  dsimp only
  rw [hkept]
  dsimp only
  rw [foldEach_sendHeld _ _ _ _ hh]

theorem gateReleasesTheStep : Claims.GateReleasesTheStep := by
  refine ⟨fun s t ht hc hp hw => exec_gateRelease_waits s t ht hc hp hw, ?_, ?_, ?_, ?_⟩
  · intro s t h hc hp hs hb hr hnd
    have e := s.awaitAcks_told_own t (s.tile t).gate.receivers
    refine ⟨_, exec_gateRelease_opens s t h hc hp hs hb, ?_⟩
    rw [State.gateOpen_eq, if_neg hr]
    refine ⟨(congrArg Tile.gate e :), (congrArg Tile.core e :).trans hc, (congrArg Tile.epoch e :), (congrArg Tile.pc e :),
      s.told_tally t, fun u hu => ?_⟩
    rw [State.awaitAcks_commits, State.told_commits, List.count_eq_one_of_mem hnd hu]
    rfl
  · intro s t h hc hp hs hb hr hh hn
    obtain ⟨epoch, stepsDone, dirty, held, pc, g, _, msgs, flagMsgs⟩ := gateOpen_stepEnds s t hc hr hh hn
    exact ⟨_, exec_gateRelease_opens s t h hc hp hs hb, epoch, stepsDone, dirty, held, pc, g, msgs, flagMsgs⟩
  · intro s t src h hc hp hk ha hr hh hn
    refine ⟨_, exec_stageAck s t h ha, ?_⟩
    have e := s.tile_ackTaken t (State.recvName src)
    rw [State.gateAck_gate _ _ (e ▸ hp) (e ▸ hk) (e ▸ hr), e]
    generalize hs : (s.ackTaken t (State.recvName src)).awaitFewer t _ = s₁
    have e₁ := (s.ackTaken t (State.recvName src)).tile_awaitFewer t ((s.tile t).gate.awaiting.erase (State.recvName src))
    rw [hs, e] at e₁
    dsimp only at e₁
    have ht₁ : s₁.tally = s.tally := hs ▸ rfl
    split
    · obtain ⟨epoch, _, _, _, pc, _, acks, msgs, _⟩ :=
        gateFinish_stepEnds s₁ t (e₁ ▸ hc) (e₁ ▸ hh) (e₁ ▸ hn)
      rw [e₁] at epoch pc acks msgs
      rw [ht₁] at msgs
      exact ⟨acks, epoch, pc, msgs⟩
    · rw [e₁]
      exact ⟨rfl, rfl, rfl⟩
  · intro s t src k rest h hk ha hr hh
    refine ⟨_, exec_stageAck s t h ha, ?_⟩
    have e := s.tile_ackTaken t (State.recvName src)
    have hk' : ((s.ackTaken t (State.recvName src)).tile t).released = k :: rest := (congrArg Tile.released e :).trans hk
    rw [State.gateAck_kept _ _ hk' hr hh]
    split
    · rw [State.onTally_tile, State.tile_onTile_self, e, hk]
      exact ⟨rfl, rfl, rfl, List.erase_cons_head k rest, rfl⟩
    · rw [State.tile_onTile_self, e, hk]
      exact ⟨rfl, rfl, rfl, List.replace_cons_self⟩

/-! ### Abort -/

/-- An abort that finds the gate's release handled changes nothing (R41). -/
theorem State.gateAbort_released (hp : (s.tile t).gate.phase ≠ .closed) : s.gateAbort t = s := by
  unfold State.gateAbort
  dsimp only
  split
  · rfl
  · rfl
  · next h => exact absurd h hp

/-- An abort tells the receivers it can reach to discard, and empties the gate. -/
def State.discardHeld (s : State) (t : Nat) (e : BitVec 32) (told : List Receiver) : State :=
  (foldEach told s (State.sendCommit t e true)).onTile t fun x =>
    { x with gate := .closed, aborts := x.aborts ++ (told.filter State.isRemote).map fun r => (r, x.epoch) }

theorem State.gateAbort_eq (hp : (s.tile t).gate.phase = .closed) :
    ∃ s₁ : State, (∀ u, (s₁.tile u).own = (s.tile u).own) ∧
      s.gateAbort t = s₁.discardHeld t (s.tile t).epoch ((s.tile t).gate.receivers.filter s₁.reachable) := by
  refine ⟨foldEach (s.tile t).gate.receivers s (State.dropInflight t (s.tile t).epoch), fun u => ?_, ?_⟩
  · exact foldEach_keeps (fun r : State => (r.tile u).own) _ (fun r s => State.dropInflight_own s _ _ r u) _ _
  · unfold State.gateAbort
    dsimp only
    rw [hp]
    rfl

theorem State.tile_discardHeld (e : BitVec 32) (told : List Receiver) :
    ((s.discardHeld t e told).tile t).gate = .closed ∧ ((s.discardHeld t e told).tile t).epoch = (s.tile t).epoch ∧
      ((s.discardHeld t e told).tile t).pc = (s.tile t).pc ∧ ((s.discardHeld t e told).tile t).g = (s.tile t).g := by
  have e₁ : ((foldEach told s (State.sendCommit t e true)).tile t).own = (s.tile t).own :=
    foldEach_keeps (fun r : State => (r.tile t).own) _ (fun r s => State.sendCommit_own s _ _ _ r t) _ _
  unfold State.discardHeld
  rw [State.tile_onTile_self]
  exact ⟨rfl, (epoch_of_own e₁ :), (pc_of_own e₁ :), (g_of_own e₁ :)⟩

theorem State.discardHeld_commits (e : BitVec 32) (told : List Receiver) (u : Nat) :
    ((s.discardHeld t e told).tile u).commits =
      (s.tile u).commits ++ List.replicate (told.count (.tile u)) ⟨.tile t, e, true⟩ := by
  rw [← State.foldEach_sendCommit_commits]
  unfold State.discardHeld
  rw [State.tile_onTile]
  split
  · next h => rw [h]
  · rfl

/-- Every tile among the receivers is sent the abort. -/
theorem State.mem_discardHeld_commits (e : BitVec 32) {rs : List Receiver} {u : Nat} (hu : .tile u ∈ rs) :
    (⟨.tile t, e, true⟩ : CommitMsg) ∈ ((s.discardHeld t e (rs.filter s.reachable)).tile u).commits := by
  have hm : Receiver.tile u ∈ rs.filter s.reachable := List.mem_filter.2 ⟨hu, rfl⟩
  rw [State.discardHeld_commits]
  exact List.mem_append_right _ (List.mem_replicate.2 ⟨(List.count_pos_iff.2 hm).ne', rfl⟩)

theorem exec_gateAbort_released (ht : t < 4352) (hp : (s.tile t).gate.phase ≠ .closed) :
    exec (.gateAbort t) s = .next s := by
  have hx : exec (.gateAbort t) s = execGateAbort t s := rfl
  rw [hx, execGateAbort, guardUnit_true _ _ (isTile_of_lt ht), State.gateAbort_released s t hp, ite_self,
    State.inClock_self]

theorem gateAbortDiscardsHeldItems : Claims.GateAbortDiscardsHeldItems := by
  refine fun s t ht => ⟨exec_gateAbort_released s t ht, fun h hp => ⟨_, exec_gateAbort s t h, ?_⟩⟩
  have htally := s.gateAbort_tally t
  obtain ⟨s₁, hown, e⟩ := State.gateAbort_eq s t hp
  rw [e] at htally ⊢
  obtain ⟨gate, epoch, pc, g⟩ := s₁.tile_discardHeld t (s.tile t).epoch ((s.tile t).gate.receivers.filter s₁.reachable)
  exact ⟨gate, epoch.trans (epoch_of_own (hown t)), pc.trans (pc_of_own (hown t)), g.trans (g_of_own (hown t)), htally,
    fun u _ hu => s₁.mem_discardHeld_commits t _ hu⟩

/-- Settles O18: an opened gate keeps the tile's own part and ends the step once nothing is awaited; an abort empties a gate
that has not opened. -/
theorem gatesReleaseAndAbort : Obligations.GatesReleaseAndAbort :=
  ⟨gateReleasesTheStep, gateAbortDiscardsHeldItems⟩

end Sys2Proof.Machine

/-! ## The memories stay canonical (R57, R296)

A lemma for each function of the model that answers a state: it leaves memories in canonical form so. Functions that
answer `some` state, or a state beside a value, say so of that state; a row of the dispatcher says it by
`NextCanonical`. They follow the order of the model, each citing those of the functions it calls. -/

/-! ### States built around the same memories -/

namespace Sys2Proof.Machine

section Update

variable {x : State} {pending : List Instr} {fresh : Nat} {regs : SMap Reg} {tiles : SMap Tile}
  {pillars : SMap Pillar} {channels : SMap Channel} {gangs : SMap Gang} {lastQueue : Nat} {disp : Dispatch}
  {mesh : List MemReq} {lastSource lastHead : Nat} {tally : TallyNet} {h0 h1 : HostPort} {events : EventLogs}
  {locHeld : SMap Nat} {fuses : Fuses} {sensed : Bool} {fence : Fence} {ridge : Ridge} {tithe : Tithe}
  {traceQ : List TraceEvent} {straps : Straps} {st : Steward} {out : List Output}

/-- A state built anew around the four memories of `x`, as every update of another field is. -/
theorem update_canonical (h : MemoriesCanonical x) :
    MemoriesCanonical ⟨pending, fresh, regs, tiles, pillars, channels, x.fieldData, x.fieldCheck, x.barnData,
      x.barnCheck, gangs, lastQueue, disp, mesh, lastSource, lastHead, tally, h0, h1, events, locHeld, fuses,
      sensed, fence, ridge, tithe, traceQ, straps, st, out⟩ := h

end Update

theorem ite_canonical {s s' : State} {c : Prop} [Decidable c] (h : MemoriesCanonical s) (h' : MemoriesCanonical s') :
    MemoriesCanonical (if c then s else s') := by split <;> assumption

/-- A pass whose every step keeps a property keeps it. -/
theorem foldEach_invariant {α σ : Type} {P : σ → Prop} {f : α → σ → σ} {xs : List α} {s : σ}
    (hf : ∀ x s, P s → P (f x s)) (h : P s) : P (foldEach xs s f) := by
  induction xs generalizing s with
  | nil => exact h
  | cons x xs ih => exact ih (hf x s h)

theorem foldEach_canonical {α : Type} {f : α → State → State} {xs : List α} {s : State}
    (hs : MemoriesCanonical s) (hf : ∀ x s, MemoriesCanonical s → MemoriesCanonical (f x s)) :
    MemoriesCanonical (foldEach xs s f) :=
  foldEach_invariant hf hs

theorem foldl_canonical {α : Type} {f : State → α → State} {xs : List α} {s : State} (hs : MemoriesCanonical s)
    (hf : ∀ s x, MemoriesCanonical s → MemoriesCanonical (f s x)) : MemoriesCanonical (xs.foldl f s) :=
  foldEach_canonical (f := fun x s => f s x) hs fun x s => hf s x

/-- What an empty answer holds has every property. -/
theorem forall_mem_none {α : Type} {P : α → Prop} : ∀ x ∈ (none : Option α), P x := by simp

theorem forall_mem_some {α : Type} {P : α → Prop} {x : α} (h : P x) : ∀ y ∈ some x, P y := by simpa using h

theorem map_canonical {f : State → State} {o : Option State} (h : ∀ s' ∈ o, MemoriesCanonical s')
    (hf : ∀ s, MemoriesCanonical s → MemoriesCanonical (f s)) : ∀ s' ∈ o.map f, MemoriesCanonical s' := by
  intro s' e
  obtain ⟨s, hs, rfl⟩ := Option.map_eq_some_iff.1 e
  exact hf s (h s hs)

theorem getD_canonical {s : State} {o : Option State} (h : ∀ s' ∈ o, MemoriesCanonical s') (hs : MemoriesCanonical s) :
    MemoriesCanonical (o.getD s) := by
  cases o with
  | none => exact hs
  | some s' => exact h s' rfl

theorem getD_map_canonical {α : Type} {s : State} {f : α → State} {o : Option α} (hs : MemoriesCanonical s)
    (hf : ∀ x, MemoriesCanonical (f x)) : MemoriesCanonical ((o.map f).getD s) := by
  cases o with
  | none => exact hs
  | some x => exact hf x

/-- Memories that hold nothing are canonical. -/
theorem empty_canonical {s : State} (h : memories s = ([], [], [], []) := by rfl) : MemoriesCanonical s := by
  obtain ⟨h1, h2, h3, h4⟩ : s.fieldData = [] ∧ s.fieldCheck = [] ∧ s.barnData = [] ∧ s.barnCheck = [] := by
    simpa [memories] using h
  rw [MemoriesCanonical, h1, h2, h3, h4]
  exact ⟨rfl, rfl, rfl, rfl⟩

theorem memories_of_interior {s s' : State} (e : s'.interior = s.interior) : memories s' = memories s :=
  (congrArg memories e :)

/-- The next state that a command answers, if it does, has its memories in canonical form. -/
def NextCanonical (r : Res) : Prop := ∀ s', r = .next s' → MemoriesCanonical s'

theorem next_canonical {s : State} (hs : MemoriesCanonical s) : NextCanonical (.next s) :=
  fun _ e => Host.Outcome.next.inj e ▸ hs

theorem guardUnit_canonical {ok : Bool} {s : State} (hs : MemoriesCanonical s) : NextCanonical (guardUnit ok s) := by
  cases ok with
  | true => exact next_canonical hs
  | false => exact fun _ e => by simp [guardUnit] at e

theorem SMap.wf_filter {α : Type} [DecidableEq α] (d : α) (p : Nat × α → Bool) {m : SMap α} (h : SMap.wf d m = true) :
    SMap.wf d (m.filter p) = true := by
  simp only [SMap.wf, Bool.and_eq_true, List.all_eq_true, SMap.sorted_iff_pairwise] at h ⊢
  exact ⟨h.1.filter p, fun c hc => h.2 c (List.mem_of_mem_filter hc)⟩

theorem foldl_put_wf {α β : Type} [DecidableEq α] (d : α) (k : β → Nat) (v : β → α) (xs : List β) {m : SMap α}
    (h : SMap.wf d m = true) : SMap.wf d (xs.foldl (fun m x => SMap.put d m (k x) (v x)) m) = true := by
  induction xs generalizing m with
  | nil => exact h
  | cons x xs ih => exact ih (SMap.wf_put d m _ _ h)

end Sys2Proof.Machine

namespace Sys2Proof.Machine.State

variable {s : State} (hs : MemoriesCanonical s)

include hs

/-! ### The state after reset -/

omit hs in
theorem reset_canonical : MemoriesCanonical reset := empty_canonical

/-! ### Registers, logs, traffic and single codewords (R465, R302, R64) -/

theorem setTile_canonical {t : Nat} {x : Tile} : MemoriesCanonical (s.setTile t x) := update_canonical hs
theorem onTile_canonical {t : Nat} {f : Tile → Tile} : MemoriesCanonical (s.onTile t f) := setTile_canonical hs
theorem onPillar_canonical {t : Nat} {f : Pillar → Pillar} : MemoriesCanonical (s.onPillar t f) := update_canonical hs

theorem onChannel_canonical {c : Nat} {f : Channel → Channel} : MemoriesCanonical (s.onChannel c f) :=
  update_canonical hs

theorem onGang_canonical {g : Nat} {f : Gang → Gang} : MemoriesCanonical (s.onGang g f) := update_canonical hs

theorem onHost_canonical {h : Nat} {f : HostPort → HostPort} : MemoriesCanonical (s.onHost h f) :=
  ite_canonical (update_canonical hs) (update_canonical hs)

theorem emit_canonical {o : Output} : MemoriesCanonical (s.emit o) := update_canonical hs
theorem setReg_canonical {a v : Nat} : MemoriesCanonical (s.setReg a v) := update_canonical hs
theorem setF_canonical {a hi lo v : Nat} : MemoriesCanonical (s.setF a hi lo v) := setReg_canonical hs
theorem addF_canonical {a hi lo n : Nat} : MemoriesCanonical (s.addF a hi lo n) := setF_canonical hs
theorem peakF_canonical {a hi lo n : Nat} : MemoriesCanonical (s.peakF a hi lo n) := setF_canonical hs

theorem inClock_canonical {k : Nat} {s' : State} (hs' : MemoriesCanonical s') : MemoriesCanonical (s.inClock k s') :=
  ite_canonical hs hs'

theorem sendVector_canonical {v : Nat} : MemoriesCanonical (s.sendVector v) :=
  ite_canonical (ite_canonical (onHost_canonical hs) (emit_canonical hs)) (ite_canonical (ite_canonical
    (onHost_canonical hs) (emit_canonical hs)) hs)

theorem raise_canonical {v : Nat} : MemoriesCanonical (s.raise v) := canonical_of_memories (raise_memories s v) hs

theorem addEvent_canonical {b : EventBody} : MemoriesCanonical (s.addEvent b) :=
  canonical_of_memories (addEvent_memories s b) hs

theorem logAs_canonical {p : Page} {c : Cause} {injected : Bool} {detail : Nat} :
    MemoriesCanonical (s.logAs p c injected detail).2 :=
  canonical_of_memories (logAs_memories s p c injected detail) hs

theorem log_canonical {p : Page} {c : Cause} : MemoriesCanonical (s.log p c) := logAs_canonical hs
theorem deadLine_canonical : MemoriesCanonical s.deadLine.2 := update_canonical hs

theorem handOn_canonical {r : MemReq} : ∀ s' ∈ s.handOn r, MemoriesCanonical s' :=
  fun s' e => canonical_of_memories (handOn_memories s r s' e) hs

theorem drainMesh_canonical : MemoriesCanonical s.drainMesh := canonical_of_memories (drainMesh_memories s) hs

theorem sendMesh_canonical {rs : List MemReq} : MemoriesCanonical (s.sendMesh rs) :=
  drainMesh_canonical (update_canonical hs)

theorem postLines_canonical {dpa : Nat} {bytes : List Byte} {vector : Option Nat} :
    MemoriesCanonical (s.postLines dpa bytes vector) :=
  sendMesh_canonical hs

theorem postHalf_canonical {src : ReqSrc} {dpa : Nat} {bytes : List Byte} :
    MemoriesCanonical (s.postHalf src dpa bytes) :=
  sendMesh_canonical hs

theorem updatePanic_canonical : MemoriesCanonical s.updatePanic := setF_canonical (setF_canonical hs)
theorem respond_canonical {h tag : Nat} {a : MemAnswer} : MemoriesCanonical (s.respond h tag a) := emit_canonical hs

theorem serve_canonical {n : Nat} : MemoriesCanonical (s.serve n) :=
  canonical_of_memories (memories_of_interior (serve_interior s n)) hs

theorem drainHosts_canonical : MemoriesCanonical s.drainHosts := updatePanic_canonical (serve_canonical hs)
theorem cper_canonical {i : CperInfo} : MemoriesCanonical (s.cper i) := canonical_of_memories (cper_memories s i) hs

theorem fenceAsk_canonical {pt : Nat} {pillar : Bool} : MemoriesCanonical (s.fenceAsk pt pillar) :=
  ite_canonical hs (update_canonical hs)

theorem strike_canonical {pt : Nat} : MemoriesCanonical (s.strike pt) := addF_canonical hs

theorem sweepStrike_canonical {pt : Nat} : MemoriesCanonical (s.sweepStrike pt) :=
  ite_canonical (update_canonical (strike_canonical hs)) hs

theorem settleBanks_canonical {t : Nat} {sequences : List Nat} : MemoriesCanonical (s.settleBanks t sequences) :=
  ite_canonical (onPillar_canonical hs) hs

theorem parityIn_canonical {a : Loc} : MemoriesCanonical (s.parityIn a) := by
  unfold parityIn
  split
  · exact sweepStrike_canonical (log_canonical hs)
  · exact log_canonical hs

/-! ### Sending over the ridge -/

theorem onRport_canonical {p : Nat} {f : RidgePort → RidgePort} : MemoriesCanonical (s.onRport p f) :=
  update_canonical hs

theorem sendFlit_canonical {p : Nat} {data lcr : Bool} {bytes : List Byte} {pkts : List Packet} :
    MemoriesCanonical (s.sendFlit p data lcr bytes pkts) :=
  ite_canonical (addF_canonical (emit_canonical (onRport_canonical hs))) (emit_canonical (onRport_canonical hs))

theorem pump_canonical {p n : Nat} : MemoriesCanonical (s.pump p n) :=
  canonical_of_memories (memories_of_interior (pump_interior s p n)) hs

theorem pumpAll_canonical {p : Nat} : MemoriesCanonical (s.pumpAll p) := pump_canonical hs

theorem sendOn_canonical {input p : Nat} {pkt : Packet} : MemoriesCanonical (s.sendOn input p pkt) :=
  pumpAll_canonical (onRport_canonical hs)

theorem showHeld_canonical : MemoriesCanonical s.showHeld :=
  canonical_of_memories (memories_of_interior (showHeld_interior s)) hs

theorem leaveBy_canonical {input p : Nat} {pkt : Packet} : MemoriesCanonical (s.leaveBy input p pkt) :=
  sendOn_canonical hs

theorem injectAt_canonical {input : Nat} {pkt : Packet} {n : Nat} : MemoriesCanonical (s.injectAt input pkt n).2 :=
  canonical_of_memories (memories_of_interior (injectAt_interior s input pkt n)) hs

theorem inject_canonical {pkt : Packet} {n : Nat} : MemoriesCanonical (s.inject pkt n).2 := injectAt_canonical hs

/-! ### Records, status lines and faults -/

theorem advanceCycle_canonical {t : Nat} : MemoriesCanonical (s.advanceCycle t) :=
  onTile_canonical (update_canonical hs)

theorem advanceBeat_canonical {t : Nat} : MemoriesCanonical (s.advanceBeat t) :=
  ite_canonical (setF_canonical (onPillar_canonical (update_canonical hs))) (onPillar_canonical (update_canonical hs))

theorem traceWith_canonical {t type queue tag qindex : Nat} {fault : Option (Nat × FaultInfo)} :
    MemoriesCanonical (s.traceWith t type queue tag qindex fault) := by
  unfold traceWith
  dsimp only
  split
  · exact hs
  · exact ite_canonical (update_canonical (advanceCycle_canonical hs)) hs

theorem trace_canonical {t type queue tag qindex : Nat} : MemoriesCanonical (s.trace t type queue tag qindex) :=
  traceWith_canonical hs

theorem traceGang_canonical {g type dqueue : Nat} {flagged : Bool} {epoch : Nat} :
    MemoriesCanonical (s.traceGang g type dqueue flagged epoch) :=
  ite_canonical (update_canonical hs) hs

theorem faultRecord_canonical {i : FaultInfo} {c : RecordContext} {t : Option Nat} :
    MemoriesCanonical (s.faultRecord i c t).2.2 :=
  ite_canonical (raise_canonical (addF_canonical (setF_canonical hs))) (postLines_canonical (setF_canonical hs))

theorem sendCommit_canonical {t : Nat} {epoch : BitVec 32} {abort : Bool} {r : Receiver} :
    MemoriesCanonical (sendCommit t epoch abort r s) := by
  unfold sendCommit
  dsimp only
  split
  · exact onTile_canonical hs
  · exact update_canonical hs
  · exact inject_canonical hs

theorem countCycles_canonical {t off : Nat} : MemoriesCanonical (s.countCycles t off) :=
  addF_canonical (update_canonical hs)

theorem dropInflight_canonical {u : Nat} {epoch : BitVec 32} {r : Receiver} :
    MemoriesCanonical (dropInflight u epoch r s) := by
  unfold dropInflight
  split
  · exact ite_canonical (drainHosts_canonical (onTile_canonical (ite_canonical (countCycles_canonical hs) hs)))
      (onTile_canonical (ite_canonical (countCycles_canonical hs) hs))
  · exact hs

theorem dropWrites_canonical {t : Nat} : MemoriesCanonical (s.dropWrites t) := by
  unfold dropWrites
  exact ite_canonical (foldEach_canonical (update_canonical hs) (fun _ _ h => ite_canonical (onChannel_canonical h)
    h)) (drainHosts_canonical (foldEach_canonical (update_canonical hs) (fun _ _ h => ite_canonical
    (onChannel_canonical h) h)))

theorem gateAbort_canonical {t : Nat} : MemoriesCanonical (s.gateAbort t) := by
  unfold gateAbort
  dsimp only
  split
  · exact hs
  · exact hs
  · exact onTile_canonical (foldEach_canonical (foldEach_canonical hs (fun _ _ h2 => dropInflight_canonical h2))
      (fun _ _ h2 => sendCommit_canonical h2))

theorem countStopped_canonical {t : Nat} : MemoriesCanonical (s.countStopped t) :=
  foldEach_canonical (ite_canonical (countCycles_canonical (ite_canonical (countCycles_canonical hs) hs))
    (ite_canonical (countCycles_canonical hs) hs)) (fun _ _ h => countCycles_canonical h)

theorem stopTile_canonical {t : Nat} : MemoriesCanonical (s.stopTile t) := by
  unfold stopTile
  exact settleBanks_canonical (onTile_canonical (dropWrites_canonical (gateAbort_canonical (countStopped_canonical
    hs))))

theorem restRuns_canonical {t : Nat} {c : TitheStep} : MemoriesCanonical (s.restRuns t c) :=
  foldEach_canonical hs (fun _ _ h => ite_canonical h (onTile_canonical h))

theorem dropCheck_canonical {t : Nat} : MemoriesCanonical (s.dropCheck t) := by
  unfold dropCheck
  split
  · exact hs
  · exact update_canonical (ite_canonical (restRuns_canonical hs) hs)

theorem stopOthers_canonical {g : Nat} {t : Option Nat} : MemoriesCanonical (s.stopOthers g t) :=
  foldEach_canonical hs (fun _ _ h => ite_canonical h (stopTile_canonical (dropCheck_canonical h)))

theorem gangFault_canonical {g : Nat} {i : FaultInfo} {t : Nat} : MemoriesCanonical (s.gangFault g i t) := by
  unfold gangFault
  dsimp only
  split
  · exact hs
  · split
    · exact onGang_canonical (ite_canonical (onGang_canonical (faultRecord_canonical hs)) (onGang_canonical hs))
    · exact onGang_canonical (stopOthers_canonical (ite_canonical (onGang_canonical (faultRecord_canonical hs)) hs))

theorem reportFault_canonical {t : Nat} {i : FaultInfo} : MemoriesCanonical (s.reportFault t i) := by
  unfold reportFault
  split
  · exact gangFault_canonical hs
  · exact hs

theorem tileFault_canonical {t : Nat} {i : FaultInfo} : MemoriesCanonical (s.tileFault t i) :=
  ite_canonical (sweepStrike_canonical (onTile_canonical (stopTile_canonical (dropCheck_canonical
    (traceWith_canonical hs))))) (reportFault_canonical (sweepStrike_canonical (onTile_canonical (stopTile_canonical
    (dropCheck_canonical (traceWith_canonical hs))))))

theorem dropReport_canonical {t : Nat} : MemoriesCanonical (s.dropReport t) := update_canonical hs

theorem keepRelease_canonical {t : Nat} : MemoriesCanonical (s.keepRelease t) :=
  ite_canonical (onTile_canonical hs) hs

theorem resetTile_canonical {t : Nat} : MemoriesCanonical (s.resetTile t) := by
  unfold resetTile
  exact settleBanks_canonical (onTile_canonical (dropReport_canonical (dropWrites_canonical (keepRelease_canonical
    (gateAbort_canonical (countStopped_canonical (dropCheck_canonical hs)))))))

/-! ### Operands and runs in check mode -/

theorem binParity_canonical {t a : Nat} : MemoriesCanonical (s.binParity t a) :=
  ite_canonical hs (sweepStrike_canonical (log_canonical (onTile_canonical hs)))

theorem onCheck_canonical {t : Nat} {f : TitheStep → TitheStep} : MemoriesCanonical (s.onCheck t f) :=
  ite_canonical (update_canonical hs) hs

theorem touch_canonical {t a n : Nat} : MemoriesCanonical (s.touch t a n) := onCheck_canonical hs
theorem sign_canonical {t : Nat} {w : WriteRec} : MemoriesCanonical (s.sign t w) := onCheck_canonical hs

theorem logApplied_canonical {t : Nat} {dest : LineDest} {mask : Nat} {l : Line} :
    MemoriesCanonical (s.logApplied t dest mask l) :=
  onCheck_canonical hs

theorem holdLine_canonical {t : Nat} {e : Entry} {node addr : Nat} {l : Line} :
    MemoriesCanonical (s.holdLine t e node addr l) :=
  onCheck_canonical hs

theorem swapPages_canonical {a b : Nat} : MemoriesCanonical (s.swapPages a b) := update_canonical hs

theorem enterView_canonical {pt t : Nat} {run : RunKind} {c : TitheStep} :
    MemoriesCanonical (s.enterView pt t run c) :=
  ite_canonical (update_canonical (setTile_canonical hs)) (update_canonical (swapPages_canonical (setTile_canonical
    (setTile_canonical hs))))

theorem leaveView_canonical {pt t : Nat} {run : RunKind} {c : TitheStep} :
    MemoriesCanonical (s.leaveView pt t run c) := by
  unfold leaveView
  split
  · exact hs
  · exact update_canonical (ite_canonical (setTile_canonical hs) (swapPages_canonical (setTile_canonical
      (setTile_canonical hs))))

theorem asRun_canonical {t : Nat} {f : Nat → State → State} (hf : ∀ x s, MemoriesCanonical s → MemoriesCanonical (f x
    s)) :
    MemoriesCanonical (s.asRun t f) := by
  unfold asRun
  refine inClock_canonical hs ?_
  split
  · exact hf _ _ hs
  · split
    · exact leaveView_canonical (hf _ _ (enterView_canonical hs))
    · exact hs

theorem keepBefore_canonical {t off : Nat} : MemoriesCanonical (s.keepBefore t off) := onCheck_canonical hs

theorem ownRead_canonical {t off : Nat} : MemoriesCanonical (s.ownRead t off).2 := by
  unfold ownRead
  dsimp only
  split
  · exact hs
  · exact readLoc_canonical _ _ hs

theorem ownWrite_canonical {t off : Nat} {env : Env} {data : List Byte} {mask : Nat} {blight : Bool} :
    MemoriesCanonical (s.ownWrite t off env data mask blight) :=
  ite_canonical (onCheck_canonical (ownRead_canonical hs)) (mergeLoc_canonical _ _ _ _ _ _ (keepBefore_canonical hs))

theorem freeEnv_canonical {cws : List Nat} : MemoriesCanonical (s.freeEnv cws).2 :=
  foldEach_invariant (P := fun r : Env × State => MemoriesCanonical r.2) (fun _ _ h => update_canonical h) hs

theorem reapply_canonical {env : Env} {t n : Nat} : MemoriesCanonical (s.reapply env t n) := by
  unfold reapply
  split
  · exact hs
  · refine foldEach_canonical hs (fun _ _ h2 => ?_)
    split
    · exact onTile_canonical h2
    · exact ownWrite_canonical h2
    · exact h2

theorem syncDone_canonical {t : Nat} : MemoriesCanonical (s.syncDone t) := by
  unfold syncDone
  dsimp only
  split
  · exact reapply_canonical (freeEnv_canonical (onCheck_canonical hs))
  · exact onCheck_canonical hs

theorem holdData_canonical {t n m : Nat} : MemoriesCanonical (s.holdData t n m) := onCheck_canonical hs

theorem signBytes_canonical {t source entry kind a : Nat} {bs : List Byte} {blight : Bool} {n : Nat} :
    MemoriesCanonical (s.signBytes t source entry kind a bs blight n) := by
  induction n generalizing s a bs with
  | zero => exact hs
  | succ n ih =>
    unfold signBytes
    exact ite_canonical (sign_canonical hs) (ih (sign_canonical hs))

theorem binWrite_canonical {t q id a : Nat} {bs : List Byte} {blight : Bool} :
    MemoriesCanonical (s.binWrite t q id a bs blight) :=
  ite_canonical hs (onTile_canonical (signBytes_canonical hs))

theorem countRetired_canonical {t : Nat} : MemoriesCanonical (s.countRetired t) := addF_canonical hs

theorem coreFault_canonical {t code detail addr : Nat} : MemoriesCanonical (s.coreFault t code detail addr) :=
  tileFault_canonical hs

theorem goTo_canonical {t next : Nat} : MemoriesCanonical (s.goTo t next) :=
  ite_canonical (coreFault_canonical (onTile_canonical hs)) (onTile_canonical hs)

theorem retireTo_canonical {t seq : Nat} : MemoriesCanonical (s.retireTo t seq) :=
  goTo_canonical (onTile_canonical (countRetired_canonical hs))

theorem retire_canonical {t : Nat} : MemoriesCanonical (s.retire t) := retireTo_canonical hs

theorem jumpTo_canonical {t : Nat} {tgt : Int} {isJ : Bool} {link : Option (BitVec 5)} :
    MemoriesCanonical (s.jumpTo t tgt isJ link) :=
  ite_canonical (coreFault_canonical hs) (onTile_canonical (countRetired_canonical hs))

theorem yilac_canonical {t : Nat} {w : Option Word} {f : Nat → State → State} (hf : ∀ x s, MemoriesCanonical s →
    MemoriesCanonical (f x s)) :
    NextCanonical (yilac t w s f) :=
  guardUnit_canonical (asRun_canonical hs (fun _ _ h => ite_canonical (hf _ _ h) h))

theorem aluRow_canonical {t : Nat} {w : Option Word} {rd : BitVec 5} {v : Tile → Word} :
    NextCanonical (aluRow t w rd v s) :=
  yilac_canonical hs (fun _ _ h => retire_canonical (onTile_canonical h))

/-! ### Yilac rows -/

theorem load_canonical {t a n : Nat} {bad : Bool} {rd : BitVec 5} {ext : Nat → Word} :
    MemoriesCanonical (s.load t a n bad rd ext) :=
  ite_canonical (coreFault_canonical hs) (ite_canonical (coreFault_canonical hs) (ite_canonical (ite_canonical
    (coreFault_canonical (ite_canonical (binParity_canonical (touch_canonical hs)) (touch_canonical hs)))
    (retire_canonical (onTile_canonical (ite_canonical (binParity_canonical (touch_canonical hs)) (touch_canonical
    hs))))) (ite_canonical (coreFault_canonical hs) (ite_canonical (coreFault_canonical hs) (retire_canonical
    (onTile_canonical (touch_canonical hs)))))))

theorem store_canonical {t a n : Nat} {bad : Bool} {v : Word} : MemoriesCanonical (s.store t a n bad v) :=
  ite_canonical (coreFault_canonical hs) (ite_canonical (coreFault_canonical hs) (ite_canonical (retire_canonical
    (onTile_canonical (signBytes_canonical (ite_canonical (binParity_canonical hs) hs)))) (retire_canonical
    (onTile_canonical (signBytes_canonical hs)))))

theorem loadRow_canonical {t : Nat} {i : Instr} {rd ra : BitVec 5} {imm : BitVec 16} {n : Nat} {bad : Bool} {ext :
    Nat → Word} :
    NextCanonical (loadRow t i rd ra imm n bad ext s) :=
  yilac_canonical hs (fun _ _ h => load_canonical h)

theorem storeRow_canonical {t : Nat} {i : Instr} {rb ra : BitVec 5} {off : BitVec 16} {n : Nat} {bad : Bool} :
    NextCanonical (storeRow t i rb ra off n bad s) :=
  yilac_canonical hs (fun _ _ h => store_canonical h)

theorem branchRow_canonical {t : Nat} {i : Instr} {ra rb : BitVec 5} {off : BitVec 16} {c : Word → Word → Bool} :
    NextCanonical (branchRow t i ra rb off c s) :=
  yilac_canonical hs (fun _ _ h => ite_canonical (jumpTo_canonical h) (retire_canonical h))

theorem execBge_canonical {t : Nat} {ra rb : BitVec 5} {off : BitVec 16} : NextCanonical (execBge t ra rb off s) :=
  branchRow_canonical hs

theorem execBgeu_canonical {t : Nat} {ra rb : BitVec 5} {off : BitVec 16} : NextCanonical (execBgeu t ra rb off s) :=
  branchRow_canonical hs

theorem execLoop_canonical {t : Nat} {k : BitVec 2} {m : BitVec 1} {cnt : BitVec 11} {body : BitVec 12} :
    NextCanonical (execLoop t k m cnt body s) :=
  yilac_canonical hs (fun _ _ h => ite_canonical (coreFault_canonical h) (ite_canonical (coreFault_canonical h)
    (ite_canonical (coreFault_canonical h) (ite_canonical (retireTo_canonical h) (onTile_canonical (retire_canonical
    h))))))

theorem readTs_canonical {t num : Nat} : ∀ r ∈ s.readTs t num, MemoriesCanonical r.2 := by
  unfold readTs
  dsimp only
  split
  · exact forall_mem_some (onTile_canonical (advanceCycle_canonical hs))
  · exact forall_mem_some hs
  · exact forall_mem_some (onTile_canonical (advanceBeat_canonical hs))
  · exact forall_mem_some hs
  · split
    · exact forall_mem_some hs
    · exact forall_mem_some (update_canonical hs)
  · exact forall_mem_some hs
  · exact forall_mem_some hs
  · exact forall_mem_some hs
  · exact forall_mem_some hs
  · exact forall_mem_some hs
  · exact forall_mem_some hs
  · exact forall_mem_some hs
  · exact forall_mem_some hs
  · exact forall_mem_some hs
  · exact forall_mem_some hs
  · exact forall_mem_some hs
  · exact forall_mem_some hs
  · exact forall_mem_some hs
  · exact forall_mem_some hs
  · exact forall_mem_some hs
  · exact forall_mem_some hs
  · exact forall_mem_none

theorem execMfts_canonical {t : Nat} {rd : BitVec 5} {num : BitVec 16} : NextCanonical (execMfts t rd num s) := by
  unfold execMfts
  refine yilac_canonical hs (fun _ _ h => ?_)
  split
  next _ s2 e2 => exact retire_canonical (onTile_canonical (readTs_canonical h _ e2))
  · exact coreFault_canonical h

theorem execMtts_canonical {t : Nat} {ra : BitVec 5} {num : BitVec 16} : NextCanonical (execMtts t ra num s) :=
  yilac_canonical hs (fun _ _ h => ite_canonical (retire_canonical (onTile_canonical h)) (coreFault_canonical h))

theorem execIllegalInstr_canonical {t : Nat} {bad : Bool} : NextCanonical (execIllegalInstr t bad s) :=
  guardUnit_canonical (asRun_canonical hs (fun _ _ h => ite_canonical (ite_canonical (coreFault_canonical h)
    (ite_canonical (coreFault_canonical h) h)) h))

/-! ### Descriptors and output lines -/

theorem binErrors_canonical {t : Nat} {env : Env} {ranges : List (Nat × Nat)} :
    MemoriesCanonical (s.binErrors t env ranges) :=
  foldEach_canonical hs (fun _ _ h => binParity_canonical h)

theorem binLine_canonical {t : Nat} {env : Env} {a mask : Nat} {data : List Byte} {blight : Bool} :
    MemoriesCanonical (s.binLine t env a mask data blight) :=
  foldEach_canonical (binErrors_canonical hs) (fun _ _ h => onTile_canonical h)

theorem writeOut_canonical {t q id : Nat} {env : Env} {es : List OutElem} :
    MemoriesCanonical (s.writeOut t q id env es) :=
  foldEach_canonical hs (fun _ _ h => binLine_canonical (sign_canonical h))

theorem binParitiesIn_canonical {t : Nat} {env : Env} {ranges : List (Nat × Nat)} :
    MemoriesCanonical (s.binParitiesIn t env ranges) :=
  binErrors_canonical (foldEach_canonical hs (fun _ _ h => touch_canonical h))

theorem setEntry_canonical {t : Nat} {e : Entry} : MemoriesCanonical (s.setEntry t e) := onTile_canonical hs

theorem onEntry_canonical {t id : Nat} {f : Entry → Entry} : MemoriesCanonical (s.onEntry t id f) :=
  onTile_canonical hs

theorem entryFault_canonical {t : Nat} {e : Entry} {code detail addr : Nat} :
    MemoriesCanonical (s.entryFault t e code detail addr) :=
  tileFault_canonical hs

theorem engineRow_canonical {t q : Nat} {ops : List Nat} {env : Env} {f : Nat → Entry → State → State} (hf : ∀ x x1
    s, MemoriesCanonical s → MemoriesCanonical (f x x1 s)) :
    NextCanonical (engineRow t q ops env s f) := by
  unfold engineRow
  refine guardUnit_canonical ?_
  refine asRun_canonical hs (fun _ _ h => ?_)
  split
  · exact ite_canonical (hf _ _ _ (upset_canonical _ _ h)) h
  · exact h

theorem performed_canonical {t : Nat} {e : Entry} : MemoriesCanonical (s.performed t e) := setEntry_canonical hs

/-! ### The tensor engine -/

theorem fillTransb_canonical {t : Nat} {c : TeCmd} : MemoriesCanonical (s.fillTransb t c) :=
  ite_canonical hs (onTile_canonical hs)

theorem teWrite_canonical {t : Nat} {env : Env} {e : Entry} {rows : List (List OutElem)} :
    MemoriesCanonical (s.teWrite t env e rows) :=
  foldEach_canonical hs (fun _ _ h => writeOut_canonical h)

theorem teStrips_canonical {t : Nat} {env : Env} {e : Entry} {c : TeCmd} {cols : List TeCol} {b n : Nat} :
    MemoriesCanonical (s.teStrips t env e c cols b n) := by
  induction n generalizing s b with
  | zero => exact hs
  | succ n ih => exact ih (teWrite_canonical hs)

theorem takeSink_canonical {t k : Nat} {e : Entry} {n : Nat} {env : Env} :
    MemoriesCanonical (s.takeSink t k e n env).2 :=
  foldEach_canonical (onTile_canonical (setEntry_canonical hs)) (fun _ _ h => log_canonical h)

theorem loadActs_canonical {t : Nat} {env : Env} {c : TeCmd} {e : Entry} {j : Nat} :
    MemoriesCanonical (s.loadActs t env c e j).2 :=
  binParitiesIn_canonical hs

theorem loadStores_canonical {t : Nat} {env : Env} {c : TeCmd} {e : Entry} {n : Nat} :
    MemoriesCanonical (s.loadStores t env c e n).2 := by
  have ha := foldEach_invariant (P := fun r : Entry × State => MemoriesCanonical r.2)
    (f := fun j r => r.2.loadActs t env c r.1 j) (xs := (List.range (min c.ktiles (c.begun n + 1))).drop
      e.acts.length)
    (s := (e, s)) (fun _ _ h => loadActs_canonical h) hs
  unfold loadStores
  extract_lets
  split
  · exact ha
  · exact ite_canonical (binParitiesIn_canonical ha) ha

theorem runStreamMm_canonical {t : Nat} {env : Env} {e : Entry} : MemoriesCanonical (s.runStreamMm t env e) := by
  unfold runStreamMm
  dsimp only
  split
  · exact performed_canonical hs
  · split
    · exact entryFault_canonical (takeSink_canonical hs)
    · exact ite_canonical (setEntry_canonical (loadStores_canonical (takeSink_canonical hs))) (ite_canonical
        (entryFault_canonical (setEntry_canonical (loadStores_canonical (takeSink_canonical hs))))
        (performed_canonical (countCycles_canonical (countCycles_canonical (teWrite_canonical (setEntry_canonical
        (loadStores_canonical (takeSink_canonical hs))))))))

theorem execBlockMm_canonical {t : Nat} {env : Env} : NextCanonical (execBlockMm t env s) :=
  engineRow_canonical hs (fun _ _ _ h => ite_canonical (performed_canonical h) (performed_canonical
    (countCycles_canonical (countCycles_canonical (teStrips_canonical (fillTransb_canonical (binParitiesIn_canonical
    h)))))))

/-! ### Copies -/

theorem fetchPlaces_canonical {t : Nat} {e : Entry} {ps : List Place} :
    ∀ s' ∈ s.fetchPlaces t e ps, MemoriesCanonical s' := by
  unfold fetchPlaces
  extract_lets got wanted
  split
  · exact forall_mem_some (sendMesh_canonical (onEntry_canonical hs))
  · split
    · exact forall_mem_some hs
    · exact forall_mem_none

theorem readPlace_canonical {t : Nat} {e : Entry} {env : Env} {p : Place} :
    MemoriesCanonical (s.readPlace t e env p).2 := by
  unfold readPlace
  dsimp only
  split
  · exact binParitiesIn_canonical hs
  · exact hs
  · split
    · exact hs
    · split
      · exact update_canonical hs
      · exact hs
  · split
    · split
      · exact hs
      · split
        · exact update_canonical hs
        · exact hs
    · exact binErrors_canonical hs
  · split
    · exact hs
    · split
      · exact update_canonical hs
      · exact hs
  · split
    · exact update_canonical hs
    · exact hs

theorem readPlaces_canonical {t : Nat} {e : Entry} {env : Env} {ps : List Place} :
    MemoriesCanonical (s.readPlaces t e env ps).2 := by
  induction ps generalizing s with
  | nil => exact hs
  | cons p ps ih =>
    unfold readPlaces
    exact ih (getD_map_canonical (readPlace_canonical hs) (fun _ => holdLine_canonical (readPlace_canonical hs)))

theorem addReceiver_canonical {t : Nat} {r : Receiver} : MemoriesCanonical (s.addReceiver t r) := onTile_canonical hs

theorem sendLine_canonical {t : Nat} {e : Entry} {u : Nat} {dest : LineDest} {w : WriteUnit} :
    MemoriesCanonical (s.sendLine t e u dest w) :=
  ite_canonical hs (onEntry_canonical (onTile_canonical (addReceiver_canonical hs)))

theorem sendBarn_canonical {t : Nat} {e : Entry} {d : Nat} {w : WriteUnit} : MemoriesCanonical (s.sendBarn t e d w) :=
  ite_canonical hs (sendMesh_canonical (onEntry_canonical hs))

theorem writeUnit_canonical {t : Nat} {e : Entry} {env : Env} {w : WriteUnit} :
    MemoriesCanonical (s.writeUnit t e env w) := by
  unfold writeUnit
  dsimp only
  split
  · exact binLine_canonical (sign_canonical hs)
  · exact sign_canonical (ownWrite_canonical hs)
  · exact sign_canonical (sendBarn_canonical (holdData_canonical hs))
  · exact sign_canonical (sendLine_canonical hs)
  · exact sign_canonical (sendLine_canonical hs)
  · exact sign_canonical hs

theorem sendPiece_canonical {t : Nat} {e : Entry} {node addr : Nat} {bytes : List Byte} {blight : Nat} :
    MemoriesCanonical (s.sendPiece t e node addr bytes blight) := by
  unfold sendPiece
  dsimp only
  split
  · exact hs
  · split
    next _ s1 e1 => exact entryFault_canonical (e1 ▸ inject_canonical (onEntry_canonical (addReceiver_canonical hs))
      :)
    next s1 e1 => exact (e1 ▸ inject_canonical (onEntry_canonical (addReceiver_canonical hs)) :)

theorem moveGroups_canonical {t : Nat} {e : Entry} {env : Env} {gs : List (List ByteMove)} :
    MemoriesCanonical (s.moveGroups t e env gs) := by
  unfold moveGroups
  refine onEntry_canonical ?_
  refine foldEach_canonical (readPlaces_canonical hs) (fun _ _ h => ?_)
  split
  · exact writeUnit_canonical h
  · exact writeUnit_canonical h
  · exact onEntry_canonical h

theorem tookTurn_canonical {t k : Nat} : MemoriesCanonical (s.tookTurn t k) := onTile_canonical hs

theorem ownReads_canonical {t k id n : Nat} : MemoriesCanonical (s.ownReads t k id n) := by
  induction n generalizing s with
  | zero => exact hs
  | succ n ih =>
    unfold ownReads
    split
    · exact ite_canonical (ih (tookTurn_canonical (onEntry_canonical (ownRead_canonical hs)))) hs
    · exact hs

theorem ownWrites_canonical {t k id : Nat} {env : Env} {n : Nat} : MemoriesCanonical (s.ownWrites t k id env n) := by
  induction n generalizing s with
  | zero => exact hs
  | succ n ih =>
    unfold ownWrites
    split
    · exact hs
    · dsimp only
      split
      · exact onEntry_canonical hs
      · exact ite_canonical (ite_canonical (ih (onEntry_canonical (tookTurn_canonical (writeUnit_canonical hs)))) hs)
          (ite_canonical (ih (onEntry_canonical (writeUnit_canonical hs))) hs)
      · exact ite_canonical (ih (onEntry_canonical (sendPiece_canonical hs))) hs

theorem runMoves_canonical {t k : Nat} {env : Env} {e : Entry} {gs : List (List ByteMove)} {moving : State → Entry →
    State} (hf : ∀ x1 s, MemoriesCanonical s → MemoriesCanonical (moving s x1)) :
    MemoriesCanonical (s.runMoves t k env e gs moving) := by
  unfold runMoves
  dsimp only
  split
  · exact ownWrites_canonical (ownReads_canonical (ite_canonical (onEntry_canonical hs) hs))
  · split
    · exact ownReads_canonical (ite_canonical (onEntry_canonical hs) hs)
    · split
      next s2 e2 => exact fetchPlaces_canonical (ownReads_canonical (ite_canonical (onEntry_canonical hs) hs)) _ e2
      · exact ite_canonical (ownWrites_canonical (moveGroups_canonical (hf _ _ (ownReads_canonical (ite_canonical
          (onEntry_canonical hs) hs))))) (ownReads_canonical (ite_canonical (onEntry_canonical hs) hs))

theorem sendReads_canonical {t node : Nat} {e : Entry} {k : Nat} {rs : List (Nat × Nat)} :
    MemoriesCanonical (s.sendReads t node e k rs) := by
  induction rs generalizing s k with
  | nil => exact hs
  | cons r rs ih =>
    unfold sendReads
    dsimp only
    split
    next e1 => exact entryFault_canonical (e1 ▸ inject_canonical (onEntry_canonical hs) :)
    next e1 => exact ih (e1 ▸ inject_canonical (onEntry_canonical hs) :)

theorem fillLattice_canonical {t : Nat} {e : Entry} {c : CpCmd} {f : FarEnd} :
    MemoriesCanonical (s.fillLattice t e c f) :=
  onTile_canonical hs

theorem runCopy_canonical {t : Nat} {env : Env} {e : Entry} : MemoriesCanonical (s.runCopy t env e) := by
  unfold runCopy
  dsimp only
  split
  · exact performed_canonical hs
  · split
    · exact ite_canonical (ite_canonical hs (ite_canonical (sendReads_canonical hs) (runMoves_canonical hs
        (fun _ _ h2 => countCycles_canonical (fillLattice_canonical h2))))) (runMoves_canonical hs (fun _ _ h2 =>
        countCycles_canonical (fillLattice_canonical h2)))
    · exact runMoves_canonical hs (fun _ _ h2 => countCycles_canonical (fillLattice_canonical h2))

/-! ### Carts -/

theorem cartMoves_canonical {t : Nat} {env : Env} {e : Entry} {c : CtCmd} {ps : List IndexAt} :
    MemoriesCanonical (s.cartMoves t env e c ps) := by
  unfold cartMoves
  exact runMoves_canonical hs (fun _ _ h => countCycles_canonical h)

theorem runCart_canonical {t : Nat} {env : Env} {e : Entry} : MemoriesCanonical (s.runCart t env e) := by
  unfold runCart
  dsimp only
  split
  · exact performed_canonical hs
  · split
    · split
      · exact entryFault_canonical (binParitiesIn_canonical hs)
      · exact cartMoves_canonical (setEntry_canonical (binParitiesIn_canonical hs))
    · exact cartMoves_canonical hs

/-! ### The vector engine -/

theorem veWriteRows_canonical {t : Nat} {env : Env} {e : Entry} {c : VeCmd} {row : State → Nat → List OutElem} :
    MemoriesCanonical (s.veWriteRows t env e c row) :=
  ite_canonical (foldEach_canonical hs (fun _ _ h => writeOut_canonical h)) (writeOut_canonical hs)

theorem scanRows_canonical {t : Nat} {env : Env} {e : Entry} {c : VeCmd} {each : Bool} {r : Nat} {carry : Lane} {acc
    : List OutElem} {n : Nat} :
    MemoriesCanonical (s.scanRows t env e c each r carry acc n) := by
  induction n generalizing s r carry acc with
  | zero => exact writeOut_canonical hs
  | succ n ih =>
    unfold scanRows
    exact ite_canonical (ih (writeOut_canonical hs)) (ih hs)

theorem vePerformed_canonical {t : Nat} {e : Entry} : MemoriesCanonical (s.vePerformed t e) :=
  performed_canonical (countCycles_canonical (countCycles_canonical hs))

theorem veRowOp_canonical {t op : Nat} {env : Env} {f : Entry → VeCmd → State → State} (hf : ∀ x x1 s,
    MemoriesCanonical s → MemoriesCanonical (f x x1 s)) :
    NextCanonical (veRowOp t op env s f) :=
  engineRow_canonical hs (fun _ _ _ h => ite_canonical (performed_canonical h) (vePerformed_canonical (hf _ _ _
    (binParitiesIn_canonical h))))

theorem execEw_canonical {t : Nat} {env : Env} : NextCanonical (execEw t env s) :=
  veRowOp_canonical hs (fun _ _ _ h => veWriteRows_canonical h)

theorem execScan_canonical {t : Nat} {env : Env} : NextCanonical (execScan t env s) :=
  veRowOp_canonical hs (fun _ _ _ h => scanRows_canonical h)

theorem execReduce_canonical {t : Nat} {env : Env} : NextCanonical (execReduce t env s) :=
  veRowOp_canonical hs (fun _ _ _ h => ite_canonical (writeOut_canonical h) (writeOut_canonical h))

theorem execConvert_canonical {t : Nat} {env : Env} : NextCanonical (execConvert t env s) := by
  refine veRowOp_canonical hs (fun e c s h => ?_)
  refine writeOut_canonical ?_
  split
  · exact foldEach_invariant (P := fun p : List OutElem × State => MemoriesCanonical p.2)
      (fun _ _ h => writeOut_canonical h) h
  · exact writeOut_canonical h

theorem smWrite_canonical {t : Nat} {env : Env} {e : Entry} {base dim q : Nat} {x : SmState} :
    MemoriesCanonical (s.smWrite t env e base dim q x) :=
  writeOut_canonical hs

theorem runAttn_canonical {t : Nat} {env : Env} {e : Entry} : MemoriesCanonical (s.runAttn t env e) := by
  unfold runAttn
  dsimp only
  exact ite_canonical (performed_canonical hs) (ite_canonical (takeSink_canonical hs) (vePerformed_canonical
    (foldEach_canonical (binParitiesIn_canonical (takeSink_canonical hs)) (fun _ _ h => smWrite_canonical h))))

theorem execSmMerge_canonical {t : Nat} {env : Env} : NextCanonical (execSmMerge t env s) :=
  engineRow_canonical hs (fun _ _ _ h => ite_canonical (performed_canonical h) (vePerformed_canonical
    (foldEach_canonical (binParitiesIn_canonical h) (fun _ _ h2 => smWrite_canonical h2))))

theorem execSmFinal_canonical {t : Nat} {env : Env} : NextCanonical (execSmFinal t env s) :=
  engineRow_canonical hs (fun _ _ _ h => ite_canonical (performed_canonical h) (vePerformed_canonical
    (writeOut_canonical (binParitiesIn_canonical h))))

/-! ### Queues and sync entries -/

theorem issueEntry_canonical {t : Nat} {e : Entry} : MemoriesCanonical (s.issueEntry t e) :=
  retire_canonical (trace_canonical (sign_canonical (onTile_canonical hs)))

theorem streamCheck_canonical {t : Nat} : MemoriesCanonical (s.streamCheck t) :=
  ite_canonical (coreFault_canonical hs) (ite_canonical (coreFault_canonical hs) hs)

theorem present_canonical {t : Nat} : MemoriesCanonical (s.present t) :=
  ite_canonical (ite_canonical (coreFault_canonical hs) (onTile_canonical hs)) hs

theorem settle_canonical {t : Nat} : MemoriesCanonical (s.settle t) := ite_canonical hs (settleBanks_canonical hs)

theorem streamReads_canonical {t id n : Nat} : MemoriesCanonical (s.streamReads t id n) := by
  induction n generalizing s with
  | zero => exact hs
  | succ n ih =>
    unfold streamReads
    split
    · exact hs
    · split
      · exact ih (tookTurn_canonical (onEntry_canonical (ite_canonical (binWrite_canonical (ownRead_canonical hs))
          (onTile_canonical (ownRead_canonical hs)))))
      · exact hs

theorem execEnq_canonical {t : Nat} {q : BitVec 3} {ra : BitVec 5} {tag : BitVec 16} {bad : Bool} :
    NextCanonical (execEnq t q ra tag bad s) := by
  unfold execEnq
  refine yilac_canonical hs (fun _ _ h => ?_)
  dsimp only
  split
  · exact coreFault_canonical h
  · exact ite_canonical h (ite_canonical (issueEntry_canonical (touch_canonical h)) (onTile_canonical
      (touch_canonical h)))

theorem execEnqStallEnd_canonical {t : Nat} : NextCanonical (execEnqStallEnd t s) := by
  unfold execEnqStallEnd
  refine guardUnit_canonical ?_
  refine asRun_canonical hs (fun _ _ h => ?_)
  split
  · exact ite_canonical (issueEntry_canonical (countCycles_canonical h)) h
  · exact h

theorem execWaitq_canonical {t : Nat} {mask : BitVec 6} : NextCanonical (execWaitq t mask s) :=
  yilac_canonical hs (fun _ _ h => ite_canonical (retire_canonical h) (streamCheck_canonical (onTile_canonical h)))

theorem execWaitqSatisfied_canonical {t : Nat} : NextCanonical (execWaitqSatisfied t s) := by
  unfold execWaitqSatisfied
  refine guardUnit_canonical ?_
  refine asRun_canonical hs (fun _ _ h => ?_)
  split
  · exact ite_canonical (retire_canonical (onTile_canonical h)) h
  · exact h

theorem execCommit_canonical {t : Nat} : NextCanonical (execCommit t s) :=
  yilac_canonical hs (fun _ _ h => ite_canonical (coreFault_canonical h) (present_canonical (streamCheck_canonical
    (onTile_canonical h))))

theorem execHalt_canonical {t : Nat} : NextCanonical (execHalt t s) :=
  yilac_canonical hs (fun _ _ h => ite_canonical (coreFault_canonical h) (dropCheck_canonical (onTile_canonical
    (countRetired_canonical h))))

theorem execEntryStart_canonical {t q : Nat} : NextCanonical (execEntryStart t q s) := by
  unfold execEntryStart
  refine guardUnit_canonical ?_
  refine asRun_canonical hs (fun _ _ h => ?_)
  split
  · exact ite_canonical (streamCheck_canonical (setEntry_canonical (settle_canonical (onTile_canonical h)))) h
  · exact h

theorem execEntryComplete_canonical {t q : Nat} : NextCanonical (execEntryComplete t q s) := by
  unfold execEntryComplete
  refine guardUnit_canonical ?_
  refine asRun_canonical hs (fun _ _ h => ?_)
  split
  · exact ite_canonical (present_canonical (streamCheck_canonical (trace_canonical (settle_canonical
      (onTile_canonical (ite_canonical (syncDone_canonical h) h)))))) h
  · exact h

theorem execPillarStreamRead_canonical {t : Nat} {env : Env} : NextCanonical (execPillarStreamRead t env s) :=
  engineRow_canonical hs (fun _ _ _ h => streamCheck_canonical (ite_canonical (performed_canonical h)
    (streamReads_canonical h)))

/-! ### Tallies and flags -/

theorem onTally_canonical {f : TallyNet → TallyNet} : MemoriesCanonical (s.onTally f) := update_canonical hs

theorem onPadNode_canonical {p id : Nat} {f : TallyNode → TallyNode} : MemoriesCanonical (s.onPadNode p id f) := by
  unfold onPadNode
  dsimp only
  split <;> exact onTally_canonical hs

theorem onDev_canonical {n : Nat} {f : TallyNode → TallyNode} : MemoriesCanonical (s.onDev n f) :=
  onTally_canonical hs

theorem onCrew_canonical {n : Nat} {f : Crew → Crew} : MemoriesCanonical (s.onCrew n f) := onTally_canonical hs
theorem onFlag_canonical {f : Nat} {g : Flag → Flag} : MemoriesCanonical (s.onFlag f g) := onTally_canonical hs
theorem sendTally_canonical {m : TallyMsg} : MemoriesCanonical (s.sendTally m) := onTally_canonical hs
theorem onLeaf_canonical {t id : Nat} {f : Leaf → Leaf} : MemoriesCanonical (s.onLeaf t id f) := onTile_canonical hs

theorem signSync_canonical {t : Nat} {e : Entry} {data : List Byte} : MemoriesCanonical (s.signSync t e data) :=
  sign_canonical hs

theorem holdItem_canonical {t : Nat} {i : HeldItem} : MemoriesCanonical (s.holdItem t i) := onTile_canonical hs

theorem holdWait_canonical {t : Nat} {e : Entry} {r : SyncResult} {w : List Byte} :
    MemoriesCanonical (s.holdWait t e r w) :=
  onCheck_canonical hs

theorem endSyncWith_canonical {t : Nat} {e : Entry} {r : SyncResult} {word : List Byte} :
    MemoriesCanonical (s.endSyncWith t e r word) :=
  ite_canonical (setEntry_canonical (onTile_canonical (signBytes_canonical (holdWait_canonical (ite_canonical
    (signSync_canonical (holdItem_canonical (onLeaf_canonical hs))) hs))))) (ite_canonical (setEntry_canonical
    (holdWait_canonical (ite_canonical (signSync_canonical (holdItem_canonical (onLeaf_canonical hs))) hs)))
    (entryFault_canonical (holdWait_canonical (ite_canonical (signSync_canonical (holdItem_canonical
    (onLeaf_canonical hs))) hs))))

theorem endSync_canonical {t : Nat} {e : Entry} {r : SyncResult} : MemoriesCanonical (s.endSync t e r) :=
  endSyncWith_canonical hs

theorem countGated_canonical {t : Nat} : MemoriesCanonical (s.countGated t) :=
  ite_canonical (countCycles_canonical hs) hs

theorem wake_canonical {t : Nat} : MemoriesCanonical (s.wake t) := by
  unfold wake
  refine inClock_canonical hs ?_
  split
  · split
    · exact endSync_canonical (countGated_canonical hs)
    · exact hs
  · exact hs

theorem wakeReleased_canonical {t id : Nat} : MemoriesCanonical (s.wakeReleased t id) := by
  unfold wakeReleased
  split
  · exact ite_canonical (endSync_canonical (countGated_canonical hs)) (wake_canonical hs)
  · exact hs

theorem wakeAll_canonical {ts : List Nat} : MemoriesCanonical (s.wakeAll ts) :=
  foldEach_canonical hs (fun _ _ h => wake_canonical h)

theorem syncRow_canonical {t : Nat} {e : Entry} : MemoriesCanonical (s.syncRow t e) := by
  unfold syncRow
  split
  · exact endSyncWith_canonical hs
  · exact endSync_canonical hs
  · exact ite_canonical (endSync_canonical hs) (setEntry_canonical hs)

theorem crewLost_canonical {n : Nat} : MemoriesCanonical (s.crewLost n) :=
  ite_canonical (wakeAll_canonical (foldEach_canonical (onCrew_canonical hs) (fun _ _ h => onPadNode_canonical h)))
    (foldEach_canonical (onCrew_canonical hs) (fun _ _ h => onPadNode_canonical h))

theorem crewRelease_canonical {n : Nat} {epoch : BitVec 32} : MemoriesCanonical (s.crewRelease n epoch) :=
  foldEach_canonical (onCrew_canonical hs) (fun _ _ h => ite_canonical (sendTally_canonical h) h)

theorem takeCrew_canonical {pkt : Packet} {fuel : Nat} : MemoriesCanonical (s.takeCrew pkt fuel) := by
  induction fuel generalizing s pkt with
  | zero => exact hs
  | succ fuel ih =>
    unfold takeCrew
    extract_lets send n l epoch c known stray
    have hsend : ∀ s p, MemoriesCanonical s → MemoriesCanonical (send s p) := by
      intro s p h
      have hi : MemoriesCanonical (s.inject p 2).2 := inject_canonical h
      dsimp only [send]
      split
      next e => exact ih (e ▸ hi :)
      next e => exact (e ▸ hi :)
    have hstray : MemoriesCanonical stray := log_canonical hs
    have hall : ∀ (ds : List Nat) (p : Nat → State → Packet) (s : State), MemoriesCanonical s →
        MemoriesCanonical (foldEach ds s fun d s => send s (p d s)) :=
      fun ds p s h => foldEach_canonical h (fun d s h => hsend s (p d s) h)
    split
    · exact ite_canonical hstray (ite_canonical hs (ite_canonical (onCrew_canonical hs)
        (ite_canonical (hsend _ _ (onCrew_canonical hs)) (hall _ _ _ (onCrew_canonical (onCrew_canonical hs))))))
    · have h := ite_canonical (c := (!known || !(decide (pkt.src = s.node ∧ epoch = c.epoch) || epoch = c.epoch + 1))
        = true)
        hstray hs
      exact ite_canonical (crewRelease_canonical h) (hall _ _ _ (onCrew_canonical h))
    · have h : MemoriesCanonical ((s.onCrew n fun c => lowerCrewExp c l).crewLost n) := crewLost_canonical
        (onCrew_canonical hs)
      exact ite_canonical hs (hall _ _ _ (ite_canonical (hsend _ _ h) h))
    · exact ite_canonical hs (ite_canonical (crewLost_canonical hs) (hall _ _ _ (crewLost_canonical hs)))
    · exact hs

theorem sendRow_canonical {op n : Nat} {epoch : BitVec 32} : MemoriesCanonical (s.sendRow op n epoch) := by
  unfold sendRow
  split
  next _ s1 e1 => exact takeCrew_canonical (e1 ▸ inject_canonical hs :)
  next s1 e1 => exact (e1 ▸ inject_canonical hs :)

theorem takeArrival_canonical {p id src : Nat} {epoch : BitVec 32} :
    MemoriesCanonical (s.takeArrival p id src epoch) :=
  ite_canonical (ite_canonical (log_canonical hs) (ite_canonical hs (ite_canonical (onPadNode_canonical hs)
    (ite_canonical (foldEach_canonical (onPadNode_canonical hs) (fun _ _ h => sendTally_canonical h))
    (sendTally_canonical (onPadNode_canonical hs)))))) (ite_canonical (ite_canonical (log_canonical hs)
    (ite_canonical hs (ite_canonical (foldEach_canonical (onDev_canonical hs) (fun _ _ h => sendTally_canonical h))
    (onDev_canonical hs)))) (ite_canonical (log_canonical hs) (ite_canonical hs (ite_canonical (sendRow_canonical
    (onCrew_canonical hs)) (onCrew_canonical hs)))))

theorem takeRelease_canonical {at_ : TallyPart} {id : Nat} {epoch : BitVec 32} :
    MemoriesCanonical (s.takeRelease at_ id epoch) := by
  unfold takeRelease
  split
  · exact wakeReleased_canonical (onLeaf_canonical hs)
  · exact foldEach_canonical (onPadNode_canonical (ite_canonical hs (log_canonical hs))) (fun _ _ h2 =>
      sendTally_canonical h2)
  · exact hs

theorem takeWithdrawal_canonical {p id src : Nat} : MemoriesCanonical (s.takeWithdrawal p id src) :=
  ite_canonical (ite_canonical hs (ite_canonical (wakeAll_canonical (onPadNode_canonical hs)) (sendTally_canonical
    (wakeAll_canonical (onPadNode_canonical hs))))) (ite_canonical (ite_canonical hs (wakeAll_canonical
    (foldEach_canonical (onDev_canonical hs) (fun _ _ h => onPadNode_canonical h)))) (ite_canonical hs
    (sendRow_canonical (crewLost_canonical (onCrew_canonical hs)))))

theorem withdrawTile_canonical {t g : Nat} : MemoriesCanonical (s.withdrawTile t g) :=
  foldEach_canonical hs (fun _ _ h => ite_canonical (sendTally_canonical h) h)

theorem bindLeaves_canonical {ts : List Nat} {id : Nat} {epoch : BitVec 32} :
    MemoriesCanonical (s.bindLeaves ts id epoch) :=
  foldEach_canonical hs (fun _ _ h => onLeaf_canonical h)

theorem bindParts_canonical {id g : Nat} {epoch : BitVec 32} : MemoriesCanonical (s.bindParts id g epoch) :=
  foldEach_canonical hs (fun _ _ h => ite_canonical h (onPadNode_canonical h))

theorem writeTCfg_canonical {p n v : Nat} : MemoriesCanonical (s.writeTCfg p n v) :=
  ite_canonical (ite_canonical (ite_canonical (log_canonical hs) (ite_canonical (bindLeaves_canonical
    (onPadNode_canonical hs)) (onPadNode_canonical (log_canonical hs)))) (ite_canonical (ite_canonical (log_canonical
    hs) (onPadNode_canonical hs)) (onPadNode_canonical hs))) (ite_canonical (ite_canonical (log_canonical hs)
    (ite_canonical (bindLeaves_canonical (bindParts_canonical (onDev_canonical hs))) (onDev_canonical (log_canonical
    hs)))) (ite_canonical (ite_canonical (log_canonical hs) (foldEach_canonical (onDev_canonical hs) (fun _ _ h =>
    onPadNode_canonical h))) (onDev_canonical hs)))

theorem writeCCfg_canonical {n v : Nat} : MemoriesCanonical (s.writeCCfg n v) :=
  ite_canonical (ite_canonical (log_canonical hs) (ite_canonical (log_canonical hs) (foldEach_canonical
    (onCrew_canonical hs) (fun _ _ h => onPadNode_canonical h)))) (ite_canonical (onCrew_canonical hs) (ite_canonical
    (log_canonical (onCrew_canonical hs)) (ite_canonical (bindLeaves_canonical (bindParts_canonical (onCrew_canonical
    (onCrew_canonical hs)))) (onCrew_canonical (onCrew_canonical hs)))))

theorem wakeFlag_canonical {f : Nat} : MemoriesCanonical (s.wakeFlag f) := wakeAll_canonical hs

theorem takeFlagAdd_canonical {m : FlagMsg} : MemoriesCanonical (s.takeFlagAdd m) :=
  ite_canonical (wakeFlag_canonical (onFlag_canonical hs)) (log_canonical hs)

theorem writeFlag_canonical {f : Nat} {v : BitVec 64} : MemoriesCanonical (s.writeFlag f v) :=
  ite_canonical (wakeFlag_canonical (onFlag_canonical hs)) (log_canonical hs)

theorem writeFlagOwner_canonical {f v : Nat} : MemoriesCanonical (s.writeFlagOwner f v) := onFlag_canonical hs

theorem gangGone_canonical {g : Nat} {reset : Bool} : MemoriesCanonical (s.gangGone g reset) :=
  foldEach_canonical (foldEach_canonical hs (fun _ _ h => ite_canonical (sendRow_canonical (foldEach_canonical
    (onCrew_canonical (ite_canonical (foldEach_canonical (onDev_canonical (foldEach_canonical h (fun _ _ h2 =>
    ite_canonical (onPadNode_canonical h2) h2))) (fun _ _ h2 => onPadNode_canonical h2)) (foldEach_canonical h
    (fun _ _ h2 => ite_canonical (onPadNode_canonical h2) h2)))) (fun _ _ h2 => onPadNode_canonical h2)))
    (ite_canonical (foldEach_canonical (onDev_canonical (foldEach_canonical h (fun _ _ h2 => ite_canonical
    (onPadNode_canonical h2) h2))) (fun _ _ h2 => onPadNode_canonical h2)) (foldEach_canonical h (fun _ _ h2 =>
    ite_canonical (onPadNode_canonical h2) h2))))) (fun _ _ h => ite_canonical (ite_canonical (wakeFlag_canonical
    (onFlag_canonical h)) (onFlag_canonical h)) (ite_canonical (wakeFlag_canonical (onFlag_canonical h)) h))

theorem execFlagAdd_canonical {t : Nat} : NextCanonical (execFlagAdd t s) :=
  engineRow_canonical hs (fun _ _ _ h => setEntry_canonical (ite_canonical h (signSync_canonical (holdItem_canonical
    h))))

theorem execSyncTimeout_canonical {t : Nat} : NextCanonical (execSyncTimeout t s) := by
  unfold execSyncTimeout
  refine guardUnit_canonical ?_
  refine asRun_canonical hs (fun _ _ h => ?_)
  split
  · exact ite_canonical h (endSync_canonical (countGated_canonical h))
  · exact h

theorem execTallyArrival_canonical {p : Nat} {id : BitVec 8} : NextCanonical (execTallyArrival p id s) := by
  unfold execTallyArrival
  refine guardUnit_canonical ?_
  refine inClock_canonical hs ?_
  split
  · exact takeArrival_canonical (onTally_canonical hs)
  · exact hs

theorem execTallyRelease_canonical {p : TallyPart} {id : BitVec 8} : NextCanonical (execTallyRelease p id s) := by
  unfold execTallyRelease
  refine guardUnit_canonical ?_
  refine inClock_canonical hs ?_
  split
  · exact takeRelease_canonical (onTally_canonical hs)
  · exact hs

theorem execTallyWithdrawal_canonical {p : Nat} {id : BitVec 8} : NextCanonical (execTallyWithdrawal p id s) := by
  unfold execTallyWithdrawal
  refine guardUnit_canonical ?_
  refine inClock_canonical hs ?_
  split
  · exact takeWithdrawal_canonical (onTally_canonical hs)
  · exact hs

theorem execFlagUpdate_canonical {f : Nat} : NextCanonical (execFlagUpdate f s) := by
  unfold execFlagUpdate
  refine guardUnit_canonical ?_
  refine inClock_canonical hs ?_
  split
  · exact takeFlagAdd_canonical (onTally_canonical hs)
  · exact hs

/-! ### The commit gate and staging -/

theorem startStep_canonical {t : Nat} : MemoriesCanonical (s.startStep t) := by
  unfold startStep
  dsimp only
  split
  · exact ite_canonical (update_canonical (update_canonical hs)) (update_canonical hs)
  · exact hs

theorem sendHeld_canonical {t : Nat} {gang : Option Nat} {crew : Nat} {i : HeldItem} :
    MemoriesCanonical (sendHeld t gang crew i s) := by
  unfold sendHeld
  split
  · exact sendTally_canonical hs
  · exact onTally_canonical hs
  · exact inject_canonical hs

theorem beginStep_canonical {t : Nat} : MemoriesCanonical (s.beginStep t) :=
  ite_canonical hs (ite_canonical (onTile_canonical hs) (startStep_canonical hs))

theorem leaveBoundary_canonical {t : Nat} : MemoriesCanonical (s.leaveBoundary t) :=
  ite_canonical (startStep_canonical (onTile_canonical hs)) hs

theorem gateFinish_canonical {t : Nat} : MemoriesCanonical (s.gateFinish t) :=
  ite_canonical (beginStep_canonical (retire_canonical (onTile_canonical (foldEach_canonical hs (fun _ _ h =>
    sendHeld_canonical h))))) (onTile_canonical (foldEach_canonical hs (fun _ _ h => sendHeld_canonical h)))

theorem gateOpen_canonical {t : Nat} : MemoriesCanonical (s.gateOpen t) :=
  ite_canonical (gateFinish_canonical (onTile_canonical (foldEach_canonical (trace_canonical hs) (fun _ _ h =>
    sendCommit_canonical h)))) (onTile_canonical (foldEach_canonical (trace_canonical hs) (fun _ _ h =>
    sendCommit_canonical h)))

theorem gateAck_canonical {t : Nat} {r : Receiver} {epoch : Option (BitVec 32)} :
    MemoriesCanonical (s.gateAck t r epoch) := by
  unfold gateAck
  dsimp only
  split
  · exact ite_canonical (foldEach_canonical (onTile_canonical hs) (fun _ _ h2 => sendHeld_canonical h2))
      (onTile_canonical hs)
  · exact ite_canonical (ite_canonical (gateFinish_canonical (onTile_canonical hs)) (onTile_canonical hs)) hs

theorem setRecv_canonical {t : Nat} {r : RecvState} : MemoriesCanonical (s.setRecv t r) :=
  ite_canonical (onTile_canonical hs) (update_canonical hs)

theorem stagePeak_canonical {t : Nat} : MemoriesCanonical (s.stagePeak t) :=
  ite_canonical (peakF_canonical hs) (peakF_canonical hs)

theorem placed_canonical {l : StageLine} : MemoriesCanonical (s.placed l) := by
  unfold placed
  split
  · split
    · exact setEntry_canonical hs
    · exact hs
  · exact ite_canonical (inject_canonical hs) hs

theorem placeLine_canonical {t : Nat} {l : StageLine} : MemoriesCanonical (s.placeLine t l) :=
  placed_canonical (stagePeak_canonical (setRecv_canonical hs))

theorem stageArrive_canonical {t : Nat} {l : StageLine} : MemoriesCanonical (s.stageArrive t l) :=
  ite_canonical (placeLine_canonical hs) (setRecv_canonical hs)

theorem applyBin_canonical {t : Nat} {env : Env} {l : StageLine} : MemoriesCanonical (applyBin t env l s) := by
  unfold applyBin
  split
  · exact binLine_canonical (logApplied_canonical hs)
  · exact hs

theorem acknowledge_canonical {t : Nat} {m : CommitMsg} : MemoriesCanonical (s.acknowledge t m) := by
  unfold acknowledge
  split
  · exact ite_canonical hs (onTile_canonical hs)
  · exact inject_canonical hs

theorem takeCommit_canonical {t : Nat} {env : Env} {m : CommitMsg} : MemoriesCanonical (s.takeCommit t env m) :=
  ite_canonical (drainHosts_canonical (acknowledge_canonical (setRecv_canonical hs))) (ite_canonical
    (acknowledge_canonical (foldEach_canonical (setRecv_canonical hs) (fun _ _ h => applyBin_canonical h)))
    (sendMesh_canonical (setRecv_canonical (foldEach_canonical (setRecv_canonical hs) (fun _ _ h =>
    applyBin_canonical h)))))

theorem lineApplied_canonical {t : Nat} {m : CommitMsg} : MemoriesCanonical (s.lineApplied t m) := by
  unfold lineApplied
  dsimp only
  split
  · exact hs
  · exact ite_canonical (acknowledge_canonical (setRecv_canonical hs)) (setRecv_canonical hs)

theorem commitRow_canonical {t src : Nat} {abort : Bool} {env : Env} :
    MemoriesCanonical (s.commitRow t src abort env) := by
  unfold commitRow
  dsimp only
  split
  · exact ite_canonical (takeCommit_canonical (upset_canonical _ _ (setRecv_canonical hs))) hs
  · exact hs

theorem execGateRelease_canonical {t : Nat} : NextCanonical (execGateRelease t s) := by
  unfold execGateRelease
  refine guardUnit_canonical ?_
  refine inClock_canonical hs ?_
  dsimp only
  split
  · exact ite_canonical hs (gateOpen_canonical hs)
  · exact leaveBoundary_canonical hs
  · exact hs

theorem execRemoteWriteStage_canonical {t src : Nat} : NextCanonical (execRemoteWriteStage t src s) := by
  unfold execRemoteWriteStage
  refine guardUnit_canonical ?_
  refine inClock_canonical hs ?_
  dsimp only
  split
  · exact stageArrive_canonical (setRecv_canonical hs)
  · exact hs

theorem execStageRoomFree_canonical {t : Nat} : NextCanonical (execStageRoomFree t s) := by
  unfold execStageRoomFree
  refine guardUnit_canonical ?_
  refine inClock_canonical hs ?_
  dsimp only
  split
  · split
    · refine drainHosts_canonical ?_
      refine placeLine_canonical ?_
      refine setRecv_canonical ?_
      split
      · exact countCycles_canonical hs
      · exact hs
    · exact hs
  · exact hs

theorem execStageFull_canonical {t src : Nat} : NextCanonical (execStageFull t src s) := by
  unfold execStageFull
  refine guardUnit_canonical ?_
  refine inClock_canonical hs ?_
  split
  · split
    · split
      · exact entryFault_canonical hs
      · exact hs
    · exact hs
  · exact hs

/-! ### Sheaves, gangs and traces -/

theorem putTrace_canonical {e : TraceEvent} : MemoriesCanonical (s.putTrace e) :=
  ite_canonical (ite_canonical (ite_canonical (emit_canonical hs) hs) (addF_canonical (ite_canonical (emit_canonical
    hs) hs))) (ite_canonical (addF_canonical (ite_canonical (emit_canonical hs) hs)) (setF_canonical (ite_canonical
    (postHalf_canonical (ite_canonical (emit_canonical hs) hs)) (ite_canonical (emit_canonical hs) hs))))

theorem takeTrace_canonical : MemoriesCanonical s.takeTrace := by
  unfold takeTrace
  split
  · dsimp only
    split
    · exact reportFault_canonical (putTrace_canonical (update_canonical hs))
    · exact putTrace_canonical (update_canonical hs)
  · exact hs

theorem onDisp_canonical {f : Dispatch → Dispatch} : MemoriesCanonical (s.onDisp f) := update_canonical hs
theorem setHead_canonical {q : Nat} {x : Fetch} : MemoriesCanonical (s.setHead q x) := onDisp_canonical hs

theorem dispRead_canonical {dpas : List Nat} : MemoriesCanonical (s.dispRead dpas).2 :=
  sendMesh_canonical (onDisp_canonical hs)

theorem dispGot_canonical {id : Nat} {l : Line} : MemoriesCanonical (s.dispGot id l) := onDisp_canonical hs

theorem postStatus_canonical {q cqi : Nat} {src : ReqSrc} : ∀ s' ∈ s.postStatus q cqi src, MemoriesCanonical s' := by
  unfold postStatus
  dsimp only
  split
  · exact forall_mem_some (sendMesh_canonical hs)
  · exact forall_mem_none

theorem postRecord_canonical {q i : Nat} {c : Completion} : ∀ s' ∈ s.postRecord q i c, MemoriesCanonical s' := by
  unfold postRecord
  dsimp only
  split
  · exact forall_mem_some (postHalf_canonical hs)
  · exact forall_mem_none

theorem completionDone_canonical {q : Nat} : MemoriesCanonical (s.completionDone q) :=
  ite_canonical (sendVector_canonical (onDisp_canonical (setF_canonical hs))) (onDisp_canonical (setF_canonical hs))

theorem completionStatus_canonical {q : Nat} : MemoriesCanonical (s.completionStatus q).2 := by
  unfold completionStatus
  split
  next s1 e1 => exact postStatus_canonical hs _ e1
  · exact completionDone_canonical hs

theorem pushCompletions_canonical {q n : Nat} : MemoriesCanonical (s.pushCompletions q n) := by
  induction n generalizing s with
  | zero => exact hs
  | succ n ih =>
    unfold pushCompletions
    split
    · dsimp only
      split
      next s' e => exact postRecord_canonical (onDisp_canonical hs) s' e
      next =>
        exact ite_canonical (ih (completionStatus_canonical (onDisp_canonical hs)))
          (completionStatus_canonical (onDisp_canonical hs))
    · exact hs

theorem complete_canonical {q : Nat} {c : Completion} : MemoriesCanonical (s.complete q c) :=
  pushCompletions_canonical (onDisp_canonical hs)

theorem recordWritten_canonical {q : Nat} : MemoriesCanonical (s.recordWritten q) :=
  ite_canonical (pushCompletions_canonical (completionStatus_canonical hs)) (completionStatus_canonical hs)

theorem statusWritten_canonical {q : Nat} : MemoriesCanonical (s.statusWritten q) :=
  pushCompletions_canonical (completionDone_canonical hs)

theorem formGang_canonical {c : SheafCmd} {ls : List Nat} : MemoriesCanonical (s.formGang c ls) :=
  onGang_canonical (foldEach_canonical hs (fun _ _ h => onTile_canonical (resetTile_canonical h)))

theorem startTile_canonical {t : Nat} {arg : Word} : MemoriesCanonical (s.startTile t arg) :=
  beginStep_canonical (onTile_canonical hs)

theorem performSheaf_canonical {q idx : Nat} {c : SheafCmd} {k : Checked} :
    MemoriesCanonical (s.performSheaf q idx c k) :=
  ite_canonical (complete_canonical hs) (ite_canonical (traceGang_canonical (onGang_canonical (ite_canonical
    (formGang_canonical hs) hs))) (foldEach_canonical (ite_canonical (foldEach_canonical (traceGang_canonical
    (onGang_canonical (ite_canonical (formGang_canonical hs) hs))) (fun _ _ h => onTile_canonical h))
    (traceGang_canonical (onGang_canonical (ite_canonical (formGang_canonical hs) hs)))) (fun _ _ h =>
    startTile_canonical h)))

theorem rejectSheaf_canonical {q idx g cookie code addr : Nat} :
    MemoriesCanonical (s.rejectSheaf q idx g cookie code addr) :=
  complete_canonical (faultRecord_canonical hs)

theorem readHeads_canonical : MemoriesCanonical s.readHeads :=
  foldEach_canonical hs (fun _ _ h => ite_canonical (setHead_canonical (dispRead_canonical h)) h)

theorem goOn_canonical {k : Taking} : MemoriesCanonical (s.goOn k) := by
  unfold goOn
  dsimp only
  split
  · exact dispRead_canonical (onDisp_canonical hs)
  · exact rejectSheaf_canonical (onDisp_canonical hs)
  · exact ite_canonical hs (performSheaf_canonical (onDisp_canonical hs))

theorem takeHead_canonical {q : Nat} : MemoriesCanonical (s.takeHead q) := by
  unfold takeHead
  dsimp only
  split
  · exact rejectSheaf_canonical (update_canonical (setF_canonical (setHead_canonical hs)))
  · exact goOn_canonical (onDisp_canonical (update_canonical (setF_canonical (setHead_canonical hs))))

theorem takeSheaf_canonical {q : Nat} : MemoriesCanonical (s.takeSheaf q) := by
  unfold takeSheaf
  split
  · exact ite_canonical (goOn_canonical hs) hs
  · exact ite_canonical (takeHead_canonical (readHeads_canonical hs)) (readHeads_canonical hs)

theorem snapOn_canonical {g : Nat} {env : Env} : MemoriesCanonical (s.snapOn g env) := by
  unfold snapOn
  dsimp only
  split
  · exact sendMesh_canonical (onGang_canonical hs)
  · exact sendMesh_canonical (onGang_canonical (foldEach_canonical hs (fun _ _ h2 => binErrors_canonical h2)))
  · exact hs

theorem snapDone_canonical {g : Nat} {l : Line} : MemoriesCanonical (s.snapDone g l) := by
  unfold snapDone
  dsimp only
  split
  · exact onGang_canonical hs
  · exact ite_canonical (onGang_canonical hs) (sendMesh_canonical (onGang_canonical hs))
  · exact onGang_canonical hs
  · exact hs

theorem dropSnap_canonical {g : Nat} : MemoriesCanonical (s.dropSnap g) := onGang_canonical (update_canonical hs)

theorem freeGang_canonical {g : Nat} : MemoriesCanonical (s.freeGang g) :=
  onGang_canonical (foldEach_canonical (dropSnap_canonical hs) (fun _ _ h => onTile_canonical h))

theorem finishSheaf_canonical {g status : Nat} : MemoriesCanonical (s.finishSheaf g status) := by
  unfold finishSheaf
  dsimp only
  split
  · exact hs
  · exact complete_canonical (ite_canonical (freeGang_canonical (gangGone_canonical (traceGang_canonical
      (onGang_canonical (onGang_canonical hs))))) (traceGang_canonical (onGang_canonical (onGang_canonical hs))))

theorem resetEnd_canonical {g : Nat} : MemoriesCanonical (s.resetEnd g) := by
  unfold resetEnd
  dsimp only
  split
  · exact ite_canonical hs (freeGang_canonical (complete_canonical (traceGang_canonical hs)))
  · exact freeGang_canonical hs

theorem sheafEnd_canonical {g : Nat} {env : Env} : MemoriesCanonical (s.sheafEnd g env) := by
  unfold sheafEnd
  dsimp only
  split
  · exact hs
  · exact ite_canonical (resetEnd_canonical hs) (ite_canonical hs (ite_canonical (finishSheaf_canonical
      (stopOthers_canonical (dropSnap_canonical hs))) (ite_canonical (ite_canonical (snapOn_canonical
      (upset_canonical _ _ hs)) (finishSheaf_canonical hs)) hs)))

theorem resetGang_canonical {g : Nat} : MemoriesCanonical (s.resetGang g) :=
  ite_canonical hs (resetEnd_canonical (onGang_canonical (foldEach_canonical (gangGone_canonical (dropSnap_canonical
    (foldEach_canonical hs (fun _ _ h => dropCheck_canonical (stopTile_canonical h))))) (fun _ _ h =>
    resetTile_canonical h))))

theorem gangReset_canonical {g : Nat} : MemoriesCanonical (s.gangReset g) :=
  ite_canonical (resetGang_canonical hs) (log_canonical hs)

theorem lateResets_canonical : MemoriesCanonical s.lateResets := by
  unfold lateResets
  split
  · exact hs
  · exact foldEach_canonical (onDisp_canonical hs) (fun _ _ h2 => gangReset_canonical h2)

theorem resetQueue_canonical {q : Nat} : MemoriesCanonical (s.resetQueue q) :=
  ite_canonical (log_canonical hs) (getD_canonical (postStatus_canonical (foldEach_canonical (setHead_canonical hs)
    (fun _ _ h => setReg_canonical h))) (foldEach_canonical (setHead_canonical hs) (fun _ _ h => setReg_canonical h)))

theorem writeQctrl_canonical {q v : Nat} : MemoriesCanonical (s.writeQctrl q v) :=
  ite_canonical (setHead_canonical (setF_canonical (setF_canonical (setF_canonical (ite_canonical (ite_canonical
    (log_canonical (ite_canonical (resetQueue_canonical hs) hs)) (ite_canonical (resetQueue_canonical hs) hs))
    (setF_canonical (ite_canonical (resetQueue_canonical hs) hs))))))) (ite_canonical (setF_canonical (setF_canonical
    (ite_canonical (ite_canonical (log_canonical (ite_canonical (resetQueue_canonical hs) hs)) (ite_canonical
    (resetQueue_canonical hs) hs)) (setF_canonical (ite_canonical (resetQueue_canonical hs) hs))))) (ite_canonical
    (setF_canonical (setF_canonical (setF_canonical (ite_canonical (ite_canonical (log_canonical (ite_canonical
    (resetQueue_canonical hs) hs)) (ite_canonical (resetQueue_canonical hs) hs)) (setF_canonical (ite_canonical
    (resetQueue_canonical hs) hs)))))) (log_canonical (setF_canonical (setF_canonical (ite_canonical (ite_canonical
    (log_canonical (ite_canonical (resetQueue_canonical hs) hs)) (ite_canonical (resetQueue_canonical hs) hs))
    (setF_canonical (ite_canonical (resetQueue_canonical hs) hs))))))))

theorem writeQbase_canonical {q off v : Nat} : MemoriesCanonical (s.writeQbase q off v) :=
  ite_canonical (log_canonical hs) (setF_canonical hs)

theorem writeProd_canonical {q v : Nat} : MemoriesCanonical (s.writeProd q v) :=
  ite_canonical (log_canonical hs) (setHead_canonical (setReg_canonical hs))

theorem writeCqHead_canonical {q v : Nat} : MemoriesCanonical (s.writeCqHead q v) :=
  ite_canonical (log_canonical hs) (setReg_canonical hs)

theorem writeGangReset_canonical {v : Nat} : MemoriesCanonical (s.writeGangReset v) :=
  ite_canonical hs (ite_canonical (onDisp_canonical hs) (gangReset_canonical hs))

theorem writeRingCtrl_canonical {a base unit v : Nat} {p : Page} {c : Cause} :
    MemoriesCanonical (s.writeRingCtrl a base unit v p c) :=
  ite_canonical (setF_canonical (ite_canonical hs (setF_canonical hs))) (ite_canonical (ite_canonical hs
    (setF_canonical hs)) (ite_canonical (setF_canonical (ite_canonical hs (setF_canonical hs))) (log_canonical
    (ite_canonical hs (setF_canonical hs)))))

theorem writeTileCtrl_canonical {t v : Nat} : MemoriesCanonical (s.writeTileCtrl t v) :=
  ite_canonical hs (ite_canonical (log_canonical hs) (resetTile_canonical hs))

theorem execSheafTake_canonical {q : Nat} {env : Env} : NextCanonical (execSheafTake q env s) :=
  guardUnit_canonical (inClock_canonical hs (ite_canonical (lateResets_canonical (takeSheaf_canonical
    (upset_canonical _ _ hs))) hs))

/-! ### Pillars -/

theorem remoteLine_canonical {id k : Nat} {l : Line} : MemoriesCanonical (s.remoteLine id k l) := by
  unfold remoteLine
  split
  · exact hs
  · exact ite_canonical (update_canonical hs) (inject_canonical (update_canonical hs))

theorem entryAnswer_canonical {t id dpa : Nat} {op : MemOp} {l : Line} :
    MemoriesCanonical (s.entryAnswer t id dpa op l) :=
  onEntry_canonical hs

theorem restoreLine_canonical {g t k : Nat} {l : Line} : MemoriesCanonical (s.restoreLine g t k l) :=
  ite_canonical hs (onTile_canonical (onGang_canonical hs))

theorem restoreBegin_canonical {g : Nat} {h : Line} : MemoriesCanonical (s.restoreBegin g h) :=
  ite_canonical hs (ite_canonical (log_canonical (onGang_canonical hs)) (sendMesh_canonical (onGang_canonical hs)))

theorem logStaged_canonical {t : Nat} {r : MemReq} : MemoriesCanonical (s.logStaged t r) := by
  unfold logStaged
  split
  · exact hs
  · exact hs
  · exact logApplied_canonical hs
  · exact logApplied_canonical hs

theorem imageLine_canonical {k : Nat} {l : Line} : MemoriesCanonical (s.imageLine k l) := update_canonical hs

theorem mailboxDone_canonical {h code : Nat} {payload : List Byte} :
    MemoriesCanonical (s.mailboxDone h code payload) :=
  ite_canonical (raise_canonical (emit_canonical (onHost_canonical hs))) (emit_canonical (onHost_canonical hs))

theorem mailDone_canonical {h : Nat} : MemoriesCanonical (s.mailDone h) := ite_canonical (mailboxDone_canonical hs) hs

theorem answerReq_canonical {r : MemReq} {l : Line} : MemoriesCanonical (s.answerReq r l) := by
  unfold answerReq
  split
  · exact onHost_canonical hs
  · exact remoteLine_canonical hs
  · exact hs
  · exact entryAnswer_canonical hs
  · exact lineApplied_canonical (logStaged_canonical hs)
  · exact dispGot_canonical hs
  · split
    · exact raise_canonical hs
    · exact hs
  · exact recordWritten_canonical hs
  · exact statusWritten_canonical hs
  · exact snapDone_canonical hs
  · exact restoreLine_canonical hs
  · exact restoreBegin_canonical hs
  · exact imageLine_canonical hs
  · exact mailDone_canonical hs

theorem performReq_canonical {env : Env} {r : MemReq} {loc : Loc} : MemoriesCanonical (s.performReq env r loc).2 := by
  unfold performReq
  dsimp only
  split
  · exact readLoc_canonical _ _ hs
  · exact writeLoc_canonical _ _ _ _ (ite_canonical (parityIn_canonical hs) hs)
  · exact writeLoc_canonical _ _ _ _ (readLoc_canonical _ _ hs)
  · split
    · exact hs
    · exact mergeLoc_canonical _ _ _ _ _ _ (ite_canonical (parityIn_canonical hs) hs)

theorem admitNext_canonical {t : Nat} : MemoriesCanonical (s.admitNext t) := by
  unfold admitNext
  split
  · exact hs
  · split
    · exact drainHosts_canonical (onPillar_canonical (settle_canonical hs))
    · exact hs

theorem keepStaged_canonical {t : Nat} {r : MemReq} : MemoriesCanonical (s.keepStaged t r) := by
  unfold keepStaged
  split
  · exact keepBefore_canonical hs
  · exact hs

theorem accessDone_canonical {t : Nat} {env : Env} : MemoriesCanonical (s.accessDone t env) := by
  unfold accessDone
  split
  · exact hs
  · exact ite_canonical hs (settle_canonical (answerReq_canonical (performReq_canonical (keepStaged_canonical
      (upset_canonical _ _ (onPillar_canonical hs))))))

theorem writeMode_canonical {p v : Nat} : MemoriesCanonical (s.writeMode p v) :=
  ite_canonical (log_canonical hs) (ite_canonical (setF_canonical hs) (setF_canonical (setF_canonical hs)))

theorem switchMode_canonical {p : Nat} : MemoriesCanonical (s.switchMode p) :=
  ite_canonical (setF_canonical (setF_canonical hs)) hs

theorem setOwed_canonical {t b n : Nat} : MemoriesCanonical (s.setOwed t b n) :=
  peakF_canonical (onPillar_canonical hs)

theorem applyHot_canonical {p : Nat} : MemoriesCanonical (s.applyHot p) := setF_canonical hs

theorem refreshDue_canonical {t b : Nat} : MemoriesCanonical (s.refreshDue t b) :=
  ite_canonical (setOwed_canonical (settle_canonical (applyHot_canonical hs))) (settle_canonical (applyHot_canonical
    hs))

theorem forceRefresh_canonical {t b : Nat} : MemoriesCanonical (s.forceRefresh t b) :=
  ite_canonical (addF_canonical (settle_canonical hs)) (settle_canonical hs)

theorem inField_canonical {t : Nat} {s' : State} (hs' : MemoriesCanonical s') : MemoriesCanonical (s.inField t s') :=
  ite_canonical (inClock_canonical hs hs') hs

theorem passDone_canonical {p : Nat} : MemoriesCanonical (s.passDone p) := ite_canonical (setF_canonical hs) hs

theorem glean_canonical {t : Nat} {env : Env} : MemoriesCanonical (s.glean t env) :=
  passDone_canonical (onPillar_canonical (ite_canonical (upset_canonical _ _ hs) (foldEach_canonical (upset_canonical
    _ _ hs) (fun _ _ h => readCw_canonical _ _ _ h))))

theorem writeGlean_canonical {p v : Nat} : MemoriesCanonical (s.writeGlean p v) :=
  ite_canonical (foldEach_canonical (setF_canonical (setF_canonical hs)) (fun _ _ h => ite_canonical
    (onPillar_canonical h) h)) (setF_canonical hs)

/-! ### Barn channels -/

theorem setLane_canonical {c i : Nat} {l : List MemReq} : MemoriesCanonical (s.setLane c i l) :=
  onChannel_canonical hs

theorem acceptWrite_canonical {c dpa : Nat} {data : List Byte} {be : Nat} {poison : Bool} :
    ∀ s' ∈ s.acceptWrite c dpa data be poison, MemoriesCanonical s' := by
  unfold acceptWrite
  dsimp only
  split
  · exact forall_mem_some (onChannel_canonical hs)
  · split
    · exact forall_mem_some (onChannel_canonical hs)
    · exact forall_mem_none

theorem acceptReq_canonical {c : Nat} {env : Env} {r : MemReq} :
    ∀ s' ∈ s.acceptReq c env r, MemoriesCanonical s' := by
  unfold acceptReq
  dsimp only
  split
  · split
    · exact forall_mem_some (answerReq_canonical (deadLine_canonical hs))
    · split
      · exact forall_mem_some (onChannel_canonical hs)
      · exact forall_mem_none
  · split
    · exact forall_mem_some (answerReq_canonical hs)
    · exact map_canonical (acceptWrite_canonical (ite_canonical (parityIn_canonical hs) hs)) (fun _ h2 =>
        answerReq_canonical h2)
  · split
    · exact forall_mem_some (answerReq_canonical hs)
    · split
      · exact forall_mem_some (answerReq_canonical hs)
      · exact map_canonical (acceptWrite_canonical (ite_canonical (parityIn_canonical hs) hs)) (fun _ h2 =>
          answerReq_canonical h2)
  · split
    · exact forall_mem_some (answerReq_canonical hs)
    · exact map_canonical (acceptWrite_canonical (ite_canonical (parityIn_canonical hs) hs)) (fun _ h2 =>
        answerReq_canonical h2)

theorem updateDrain_canonical {c : Nat} : MemoriesCanonical (s.updateDrain c) := onChannel_canonical hs

theorem acceptNext_canonical {c : Nat} {env : Env} : MemoriesCanonical (s.acceptNext c env) := by
  unfold acceptNext
  extract_lets ch order panics others tries
  have ht : ∀ x ∈ tries, MemoriesCanonical x.2 := by
    intro x hx
    obtain ⟨i, -, hi⟩ := List.mem_filterMap.1 hx
    split at hi
    · cases hi
    · obtain ⟨s', e, rfl⟩ := Option.map_eq_some_iff.1 hi
      exact acceptReq_canonical (setLane_canonical hs) s' e
  clear_value tries
  cases tries with
  | nil => exact hs
  | cons x _ =>
    have hx : MemoriesCanonical x.2 := ht x List.mem_cons_self
    exact drainHosts_canonical (updateDrain_canonical (onChannel_canonical hx))

theorem settleBarn_canonical {c : Nat} : MemoriesCanonical (s.settleBarn c) :=
  ite_canonical hs (onChannel_canonical hs)

theorem readValue_canonical {r : BarnRead} : MemoriesCanonical (s.readValue r).2 := by
  unfold readValue
  dsimp only
  split
  · split
    · exact hs
    · exact readCw_canonical _ _ _ hs
  · split
    · exact addF_canonical hs
    · split
      · exact addF_canonical hs
      · exact readCw_canonical _ _ _ (addF_canonical hs)

theorem popRead_canonical {c b : Nat} {r : BarnRead} : MemoriesCanonical (s.popRead c b r) := onChannel_canonical hs

theorem readDone_canonical {c b : Nat} {env : Env} : MemoriesCanonical (s.readDone c b env) := by
  unfold readDone
  split
  · split
    · exact settleBarn_canonical (updateDrain_canonical (answerReq_canonical (readValue_canonical (upset_canonical _
        _ (popRead_canonical hs)))))
    · exact hs
  · exact hs

theorem mergeDone_canonical {c i : Nat} {env : Env} : MemoriesCanonical (s.mergeDone c i env) := by
  unfold mergeDone
  split
  · exact hs
  · dsimp only
    split
    · split
      · exact ite_canonical (updateDrain_canonical (mergeAt_canonical _ _ (upset_canonical _ _ (onChannel_canonical
          hs)))) hs
      · exact hs
    · exact hs

theorem drainEntry_canonical {c : Nat} {w : WqEntry} : MemoriesCanonical (s.drainEntry c w) :=
  storeCw_canonical _ _ _ _ (onChannel_canonical hs)

theorem writeDrain_canonical {c : Nat} : MemoriesCanonical (s.writeDrain c) := by
  unfold writeDrain
  dsimp only
  split
  · exact updateDrain_canonical hs
  · split
    · split
      · exact settleBarn_canonical (updateDrain_canonical (drainEntry_canonical (onChannel_canonical
          (updateDrain_canonical hs))))
      · exact updateDrain_canonical hs
    · exact updateDrain_canonical hs

theorem applyModes_canonical {c : Nat} : MemoriesCanonical (s.applyModes c) :=
  ite_canonical (setF_canonical hs) (ite_canonical (onChannel_canonical (setF_canonical hs)) (onChannel_canonical
    (setF_canonical hs)))

theorem barnRefresh_canonical {c b : Nat} : MemoriesCanonical (s.barnRefresh c b) :=
  ite_canonical hs (ite_canonical (peakF_canonical (onChannel_canonical (settleBarn_canonical (applyModes_canonical
    hs)))) (settleBarn_canonical (applyModes_canonical hs)))

theorem barnForce_canonical {c b : Nat} : MemoriesCanonical (s.barnForce c b) :=
  ite_canonical (addF_canonical (ite_canonical hs (settleBarn_canonical (applyModes_canonical hs)))) (ite_canonical
    hs (settleBarn_canonical (applyModes_canonical hs)))

theorem enterSelfRefresh_canonical {c : Nat} : MemoriesCanonical (s.enterSelfRefresh c) :=
  ite_canonical (onChannel_canonical hs) hs

theorem wakeChannel_canonical {c : Nat} : MemoriesCanonical (s.wakeChannel c) :=
  ite_canonical (addF_canonical (onChannel_canonical hs)) hs

theorem exitSelfRefresh_canonical {c : Nat} : MemoriesCanonical (s.exitSelfRefresh c) :=
  ite_canonical (wakeChannel_canonical hs) hs

theorem scrubOne_canonical {c : Nat} {env : Env} : MemoriesCanonical (s.scrubOne c env) :=
  ite_canonical (onChannel_canonical (readCw_canonical _ _ _ (upset_canonical _ _ hs))) hs

theorem writeBankHash_canonical {c i v : Nat} : MemoriesCanonical (s.writeBankHash c i v) := by
  unfold writeBankHash
  have ⟨h1, h2, _, _⟩ := hs
  refine ite_canonical hs (ite_canonical (log_canonical hs) ⟨h1, h2, ?_, ?_⟩)
  · exact foldl_put_wf 0 _ _ _ (SMap.wf_nil 0)
  · exact foldl_put_wf 0 _ _ _ (SMap.wf_nil 0)

theorem writeBarnCtrl_canonical {c v : Nat} : MemoriesCanonical (s.writeBarnCtrl c v) :=
  setF_canonical (ite_canonical (setF_canonical (setF_canonical hs)) hs)

theorem inBarn_canonical {c : Nat} {s' : State} (hs' : MemoriesCanonical s') : MemoriesCanonical (s.inBarn c s') :=
  ite_canonical (inClock_canonical hs hs') hs

theorem drainReads_canonical {c : Nat} : MemoriesCanonical (s.drainReads c) :=
  onChannel_canonical (foldEach_canonical hs (fun _ _ h => answerReq_canonical (readValue_canonical h)))

theorem drainWrites_canonical {c : Nat} : MemoriesCanonical (s.drainWrites c) := by
  unfold drainWrites
  refine foldEach_canonical hs (fun _ _ h => ?_)
  dsimp only
  split
  · exact drainEntry_canonical (mergeAt_canonical _ _ h)
  · exact mergeAt_canonical _ _ h

theorem beginTraining_canonical {c : Nat} : MemoriesCanonical (s.beginTraining c) :=
  ite_canonical hs (setF_canonical (onChannel_canonical hs))

theorem retrain_canonical {c : Nat} {ok1 ok2 : Bool} : MemoriesCanonical (s.retrain c ok1 ok2) :=
  ite_canonical (ite_canonical (setF_canonical (onChannel_canonical (exitSelfRefresh_canonical (onChannel_canonical
    (drainWrites_canonical (drainReads_canonical hs)))))) (setF_canonical (setF_canonical (onChannel_canonical
    (exitSelfRefresh_canonical (onChannel_canonical (drainWrites_canonical (drainReads_canonical hs))))))))
    (log_canonical (onChannel_canonical (ite_canonical (setF_canonical (onChannel_canonical
    (exitSelfRefresh_canonical (onChannel_canonical (drainWrites_canonical (drainReads_canonical hs))))))
    (setF_canonical (setF_canonical (onChannel_canonical (exitSelfRefresh_canonical (onChannel_canonical
    (drainWrites_canonical (drainReads_canonical hs))))))))))

theorem execHostRequestAge_canonical {c lane i : Nat} : NextCanonical (execHostRequestAge c lane i s) := by
  unfold execHostRequestAge
  dsimp only
  refine guardUnit_canonical ?_
  refine inBarn_canonical hs ?_
  split
  · exact setLane_canonical hs
  · split
    · exact onChannel_canonical hs
    · exact hs

/-! ### Host ports -/

theorem linkUp_canonical {h : Nat} {rate : LinkRate} {width : Nat} {flit256 : Bool} :
    MemoriesCanonical (s.linkUp h rate width flit256) :=
  ite_canonical (log_canonical (setReg_canonical hs)) (setReg_canonical hs)

theorem enter_canonical {h : Nat} {w : Waiting} : MemoriesCanonical (s.enter h w) :=
  drainHosts_canonical (updatePanic_canonical (peakF_canonical (onHost_canonical (addF_canonical hs))))

theorem memRequest_canonical {h tag a : Nat} {op : MemOp} : MemoriesCanonical (s.memRequest h tag a op) := by
  unfold memRequest
  split
  · exact hs
  · dsimp only
    split
    · exact enter_canonical (log_canonical (ite_canonical (addF_canonical hs) hs))
    · exact ite_canonical (enter_canonical (log_canonical (ite_canonical (addF_canonical hs) hs))) (enter_canonical
        (ite_canonical (addF_canonical hs) hs))

theorem memOther_canonical {h : Nat} {w : Waiting} : MemoriesCanonical (s.memOther h w) :=
  ite_canonical (enter_canonical hs) hs

theorem memRespond_canonical {h : Nat} : MemoriesCanonical (s.memRespond h) := by
  unfold memRespond
  split
  · exact hs
  · dsimp only
    split
    · exact ite_canonical (addF_canonical (respond_canonical (onHost_canonical hs))) (respond_canonical
        (onHost_canonical hs))
    · exact respond_canonical (onHost_canonical hs)

theorem hdmCommit_canonical {h d : Nat} {r : HdmRequest} : MemoriesCanonical (s.hdmCommit h d r) :=
  ite_canonical hs (ite_canonical (onHost_canonical hs) (log_canonical (onHost_canonical hs)))

theorem resetMsix_canonical {h : Nat} : MemoriesCanonical (s.resetMsix h) := by
  unfold resetMsix
  generalize List.range 288 = is
  exact onHost_canonical (foldl_canonical hs (fun _ _ h => update_canonical h))

theorem flr_canonical {h : Nat} : MemoriesCanonical (s.flr h) := onHost_canonical (resetMsix_canonical hs)
theorem orphanAll_canonical {h : Nat} : MemoriesCanonical (s.orphanAll h) := update_canonical hs

theorem resetHead_canonical {h state : Nat} : MemoriesCanonical (s.resetHead h state) :=
  updatePanic_canonical (setReg_canonical (onHost_canonical (resetMsix_canonical (orphanAll_canonical hs))))

theorem portReset_canonical {h : Nat} {why : PortReset} : MemoriesCanonical (s.portReset h why) := by
  unfold portReset
  split
  · exact ite_canonical hs (update_canonical (ite_canonical (resetHead_canonical hs) hs))
  · exact ite_canonical (resetHead_canonical hs) hs
  · exact ite_canonical (addF_canonical (resetHead_canonical hs)) hs

theorem sendPending_canonical {h v : Nat} : MemoriesCanonical (s.sendPending h v) :=
  ite_canonical (emit_canonical (onHost_canonical hs)) hs

theorem writeMsix_canonical {h off v : Nat} : MemoriesCanonical (s.writeMsix h off v) :=
  sendPending_canonical (setReg_canonical hs)

theorem freeBytes_canonical {n : Nat} : MemoriesCanonical (s.freeBytes n).2 := update_canonical hs

theorem eventBytes_canonical {log : Nat} {e : EventRec} : MemoriesCanonical (s.eventBytes log e).2 := by
  unfold eventBytes
  extract_lets head
  split
  · exact freeBytes_canonical hs (n := 72)
  · exact freeBytes_canonical hs (n := 80)
  · exact freeBytes_canonical hs (n := 16)

theorem eventsBytes_canonical {log : Nat} {es : List EventRec} : MemoriesCanonical (s.eventsBytes log es).2 := by
  induction es generalizing s with
  | nil => exact hs
  | cons e es ih => exact ih (eventBytes_canonical hs)

theorem getEvents_canonical {h log : Nat} : MemoriesCanonical (s.getEvents h log) :=
  ite_canonical (mailboxDone_canonical hs) (mailboxDone_canonical (eventsBytes_canonical hs))

theorem clearEvents_canonical {h log : Nat} {all : Bool} {handles : List (BitVec 16)} :
    MemoriesCanonical (s.clearEvents h log all handles) :=
  ite_canonical (mailboxDone_canonical hs) (ite_canonical (mailboxDone_canonical (update_canonical hs))
    (ite_canonical (mailboxDone_canonical (update_canonical hs)) (mailboxDone_canonical hs)))

theorem setPolicy_canonical {h : Nat} {p : List Byte} : MemoriesCanonical (s.setPolicy h p) :=
  ite_canonical (mailboxDone_canonical hs) (ite_canonical (mailboxDone_canonical (onHost_canonical hs))
    (mailboxDone_canonical hs))

theorem getLog_canonical {h : Nat} {uuid : List Byte} {off len : Nat} : MemoriesCanonical (s.getLog h uuid off len) :=
  ite_canonical (mailboxDone_canonical hs) (ite_canonical (mailboxDone_canonical hs) (mailboxDone_canonical hs))

theorem poisonRow_canonical {h dpa : Nat} {op : MemOp} : MemoriesCanonical (s.poisonRow h dpa op) :=
  ite_canonical (mailboxDone_canonical hs) (ite_canonical (mailboxDone_canonical hs) (sendMesh_canonical
    (onHost_canonical hs)))

theorem poisonAt_canonical {h dpa : Nat} {env : Env} : MemoriesCanonical (s.poisonAt h dpa env) :=
  poisonRow_canonical (upset_canonical _ _ hs)

theorem unpoisonAt_canonical {h dpa : Nat} {data : BitVec 512} {env : Env} :
    MemoriesCanonical (s.unpoisonAt h dpa data env) :=
  poisonRow_canonical (upset_canonical _ _ hs)

theorem doeFind_canonical {h i : Nat} : MemoriesCanonical (s.doeFind h i) := emit_canonical hs

theorem tableRead_canonical {h i : Nat} : MemoriesCanonical (s.tableRead h i) := by
  unfold tableRead
  dsimp only
  split
  · exact emit_canonical hs
  · exact emit_canonical (freeBytes_canonical hs)

theorem headRow_canonical {h : Nat} {f : State → State} (hf : ∀ s, MemoriesCanonical s → MemoriesCanonical (f s)) :
    NextCanonical (headRow h s f) :=
  guardUnit_canonical (ite_canonical (hf _ hs) hs)

theorem memOtherRow_canonical {h : Nat} {w : Waiting} : NextCanonical (headRow h s fun s => s.memOther h w) :=
  headRow_canonical hs (fun _ h => memOther_canonical h)

theorem logAccess_canonical {c : Cause} {a : Nat} {write : Bool} : MemoriesCanonical (s.logAccess c a write) :=
  ite_canonical (setReg_canonical (logAs_canonical hs)) (logAs_canonical hs)

theorem logLost_canonical {lost : Option Nat} : MemoriesCanonical (s.logLost lost) := by
  unfold logLost
  split
  · exact logAccess_canonical hs
  · exact hs

theorem clearLatches_canonical {h : Nat} {lost : Option Nat} : MemoriesCanonical (s.clearLatches h lost) :=
  onHost_canonical hs

theorem bar0Row_canonical {h a : Nat} {f : State → State} (hf : ∀ s, MemoriesCanonical s → MemoriesCanonical (f s)) :
    MemoriesCanonical (s.bar0Row h a f) :=
  ite_canonical hs (ite_canonical (logAccess_canonical (logLost_canonical (clearLatches_canonical hs))) (hf _
    (logLost_canonical (clearLatches_canonical hs))))

theorem mailRow_canonical {h : Nat} {f : State → State} (hf : ∀ s, MemoriesCanonical s → MemoriesCanonical (f s)) :
    NextCanonical (mailRow h s f) :=
  headRow_canonical hs (fun _ h => bar0Row_canonical h (fun _ h2 => ite_canonical h2 (hf _ h2)))

theorem execIdentifyMemoryDevice_canonical {h : Nat} : NextCanonical (execIdentifyMemoryDevice h s) := by
  refine mailRow_canonical hs (fun _ h => ?_)
  have h := freeBytes_canonical (n := 16) h
  have h := freeBytes_canonical (n := 2) h
  have h := freeBytes_canonical (n := 1) h
  exact mailboxDone_canonical h

theorem execGetHealthInfo_canonical {h : Nat} : NextCanonical (execGetHealthInfo h s) := by
  refine mailRow_canonical hs (fun _ h => ?_)
  have h := freeBytes_canonical (n := 3) h
  have h := freeBytes_canonical (n := 12) h
  exact mailboxDone_canonical h

theorem execGetAlertConfiguration_canonical {h : Nat} : NextCanonical (execGetAlertConfiguration h s) := by
  refine mailRow_canonical hs (fun _ h => ?_)
  have h := freeBytes_canonical (n := 2) h
  have h := freeBytes_canonical (n := 4) h
  exact mailboxDone_canonical h

/-! ### Registers of the heads -/

theorem hdmSet_canonical {h d : Nat} {r : HdmRequest} : MemoriesCanonical (s.hdmSet h d r) := onHost_canonical hs

theorem hdmWrite_canonical {h d i v : Nat} : MemoriesCanonical (s.hdmWrite h d i v) :=
  ite_canonical (ite_canonical (ite_canonical hs (hdmSet_canonical hs)) (ite_canonical (hdmSet_canonical hs)
    (ite_canonical hs (hdmCommit_canonical hs)))) (ite_canonical hs (ite_canonical (hdmSet_canonical hs)
    (ite_canonical (hdmSet_canonical hs) (ite_canonical (hdmSet_canonical hs) (ite_canonical (hdmSet_canonical hs)
    (ite_canonical (hdmSet_canonical hs) (ite_canonical (hdmSet_canonical hs) hs)))))))

theorem plainHead_canonical {h a v : Nat} : MemoriesCanonical (s.plainHead h a v) := onHost_canonical hs

theorem writeMsixControl_canonical {h : Nat} {enable mask : Bool} :
    MemoriesCanonical (s.writeMsixControl h enable mask) :=
  foldEach_canonical (onHost_canonical hs) (fun _ _ h => sendPending_canonical h)

theorem headWrite_canonical {h a v : Nat} : MemoriesCanonical (s.headWrite h a v) := by
  unfold headWrite
  split
  · exact writeMsixControl_canonical hs
  · split
    · exact ite_canonical hs (plainHead_canonical hs)
    · split
      · exact flr_canonical hs
      · split
        · exact onHost_canonical hs
        · split
          · exact onHost_canonical hs
          · split
            · exact hdmWrite_canonical hs
            · exact plainHead_canonical hs

theorem cxlRead_canonical {h a w : Nat} : MemoriesCanonical (s.cxlRead h a w) := emit_canonical hs

theorem cxlWrite_canonical {h a w v : Nat} : MemoriesCanonical (s.cxlWrite h a w v) :=
  ite_canonical (headWrite_canonical (headWrite_canonical hs)) (headWrite_canonical hs)

theorem configRead_canonical {h a : Nat} : MemoriesCanonical (s.configRead h a) :=
  ite_canonical hs (ite_canonical (emit_canonical hs) (emit_canonical hs))

theorem configWrite_canonical {h a v : Nat} : MemoriesCanonical (s.configWrite h a v) :=
  ite_canonical hs (ite_canonical (emit_canonical hs) (headWrite_canonical hs))

/-! ### Signatures -/

theorem extend_canonical {i : Nat} {data : List Byte} : MemoriesCanonical (s.extend i data) := update_canonical hs

/-! ### Tithe -/

theorem setCheck_canonical {t : Nat} {c : TitheStep} : MemoriesCanonical (s.setCheck t c) := update_canonical hs

theorem endCheck_canonical {t : Nat} : MemoriesCanonical (s.endCheck t) :=
  update_canonical (getD_map_canonical hs (fun _ => restRuns_canonical hs))

theorem countChecked_canonical : MemoriesCanonical s.countChecked := addF_canonical hs
theorem countUnchecked_canonical : MemoriesCanonical s.countUnchecked := addF_canonical hs
theorem countMismatch_canonical : MemoriesCanonical s.countMismatch := addF_canonical hs

theorem runUnchecked_canonical {t : Nat} : MemoriesCanonical (s.runUnchecked t) :=
  countUnchecked_canonical (endCheck_canonical hs)

theorem pickPlace_canonical {t : Nat} {but : List Nat} : ∀ r ∈ s.pickPlace t but, MemoriesCanonical r.2 := by
  unfold pickPlace
  dsimp only
  split
  · exact forall_mem_some (update_canonical hs)
  · exact forall_mem_none

theorem grant_canonical {t : Nat} : MemoriesCanonical (s.grant t) := by
  unfold grant
  split
  · dsimp only
    split
    · exact hs
    · split
      next _ s2 e2 => exact setCheck_canonical (pickPlace_canonical hs _ e2)
      · exact runUnchecked_canonical hs
  · exact hs

theorem holdFull_canonical {c : TitheStep} : MemoriesCanonical (s.holdFull c).2 := by
  unfold holdFull
  dsimp only
  split
  · exact hs
  · split
    · exact hs
    · exact update_canonical hs

theorem writeHold_canonical {pt : Nat} {c : TitheStep} : MemoriesCanonical (s.writeHold pt c) :=
  foldEach_canonical hs (fun _ _ h => writeLoc_canonical _ _ _ _ h)

theorem holdSend_canonical {t : Nat} : MemoriesCanonical (s.holdSend t) := by
  unfold holdSend
  split
  · exact ite_canonical hs (ite_canonical (runUnchecked_canonical (holdFull_canonical hs)) (setCheck_canonical
      (getD_map_canonical (holdFull_canonical hs) (fun _ => onTile_canonical (writeHold_canonical (holdFull_canonical
      hs))))))
  · exact hs

theorem enterRun_canonical {t : Nat} {c : TitheStep} {run : RunKind} : MemoriesCanonical (s.enterRun t c run) := by
  unfold enterRun
  dsimp only
  split
  · exact setCheck_canonical hs
  · exact asRun_canonical (ite_canonical (setCheck_canonical hs) (setTile_canonical (setCheck_canonical hs)))
      (fun _ _ h2 => reapply_canonical h2)

theorem leaveRun_canonical {t : Nat} {c : TitheStep} {run : RunKind} {failed : Bool} :
    MemoriesCanonical (s.leaveRun t c run failed) := by
  unfold leaveRun
  split
  · exact hs
  · exact ite_canonical (setCheck_canonical hs) (ite_canonical (foldEach_canonical (onTile_canonical hs)
      (fun _ _ h2 => onTile_canonical (update_canonical h2))) (onTile_canonical hs))

theorem runStart_canonical {t : Nat} {run : RunKind} : MemoriesCanonical (s.runStart t run) := by
  unfold runStart
  split
  · exact ite_canonical (enterRun_canonical hs) hs
  · exact hs

theorem decideStrike_canonical {pt : Nat} {transient : Bool} {info : CperInfo} :
    MemoriesCanonical (s.decideStrike pt transient info) :=
  ite_canonical (ite_canonical (fenceAsk_canonical (cper_canonical (addF_canonical hs))) (cper_canonical
    (addF_canonical hs))) (fenceAsk_canonical (cper_canonical hs))

theorem decideBy_canonical {c : TitheStep} {pt : Nat} {rep major : RunSignature} :
    MemoriesCanonical (s.decideBy c pt rep major) :=
  ite_canonical hs (decideStrike_canonical hs)

theorem blightWrite_canonical {t : Nat} {env : Env} {w : WriteRec} : MemoriesCanonical (blightWrite t env w s) := by
  unfold blightWrite
  dsimp only
  split
  · exact writeLoc_canonical _ _ _ _ (readLoc_canonical _ _ hs)
  · split
    · exact sendMesh_canonical hs
    · exact hs
  · exact hs
  · exact hs
  · exact onTile_canonical hs

theorem failStep_canonical {env : Env} {t code : Nat} {c : TitheStep} : MemoriesCanonical (s.failStep env t code c) :=
  tileFault_canonical (cper_canonical (foldEach_canonical hs (fun _ _ h => blightWrite_canonical h)))

theorem purgeStep_canonical {t : Nat} {epoch : BitVec 32} {rs : List Receiver} :
    MemoriesCanonical (s.purgeStep t epoch rs) := by
  unfold purgeStep
  refine foldEach_canonical hs (fun _ _ h => ?_)
  split
  · exact onTile_canonical h
  · exact h

theorem rollBack_canonical {env : Env} {t : Nat} {c : TitheStep} : MemoriesCanonical (s.rollBack env t c) :=
  onTile_canonical (foldEach_canonical (onTile_canonical (purgeStep_canonical (gateAbort_canonical hs)))
    (fun _ _ h => writeLoc_canonical _ _ _ _ h))

theorem restartStep_canonical {env : Env} {t : Nat} {c : TitheStep} {phase : CheckPhase} :
    MemoriesCanonical (s.restartStep env t c phase) :=
  reapply_canonical (setCheck_canonical (onTile_canonical hs))

theorem noReferee_canonical {env : Env} {t : Nat} {c : TitheStep} : MemoriesCanonical (s.noReferee env t c) :=
  failStep_canonical (setCheck_canonical (raise_canonical (foldEach_canonical (countChecked_canonical hs)
    (fun _ _ h => strike_canonical h))))

theorem judgeShadow_canonical {env : Env} {t : Nat} {c : TitheStep} {sig : RunSignature} :
    MemoriesCanonical (s.judgeShadow env t c sig) :=
  ite_canonical (runUnchecked_canonical hs) (ite_canonical (countChecked_canonical (endCheck_canonical hs))
    (ite_canonical (setCheck_canonical (countMismatch_canonical hs)) (noReferee_canonical (countMismatch_canonical
    hs))))

theorem refereeGrant_canonical {env : Env} {t : Nat} : MemoriesCanonical (s.refereeGrant env t) := by
  unfold refereeGrant
  split
  · split
    · exact hs
    · split
      · exact noReferee_canonical hs
      · split
        next _ s2 e2 => exact setCheck_canonical (pickPlace_canonical hs _ e2)
        · exact hs
  · exact hs

theorem judge_canonical {env : Env} {t : Nat} {c : TitheStep} {sr : RunSignature} {rep : Nat × RunSignature} :
    MemoriesCanonical (s.judge env t c sr rep) := by
  unfold judge
  dsimp only
  split
  · exact raise_canonical (decideBy_canonical (endCheck_canonical (strike_canonical (countChecked_canonical hs))))
  · split
    · split
      · exact ite_canonical (setCheck_canonical (raise_canonical (strike_canonical (countChecked_canonical hs))))
          (setCheck_canonical (raise_canonical (strike_canonical (countChecked_canonical hs))))
      · exact endCheck_canonical (raise_canonical (strike_canonical (countChecked_canonical hs)))
    · exact failStep_canonical (setCheck_canonical (raise_canonical (foldEach_canonical (countChecked_canonical hs)
        (fun _ _ h => strike_canonical h))))

theorem endRepeats_canonical {env : Env} {t : Nat} {c : TitheStep} : MemoriesCanonical (s.endRepeats env t c) := by
  unfold endRepeats
  dsimp only
  split
  · exact ite_canonical (endCheck_canonical hs) (foldEach_canonical (endCheck_canonical hs) (fun _ _ h2 =>
      decideStrike_canonical h2))
  · exact ite_canonical (failStep_canonical (foldEach_canonical (endCheck_canonical hs) (fun _ _ h2 =>
      decideBy_canonical h2))) (foldEach_canonical (endCheck_canonical hs) (fun _ _ h2 => decideBy_canonical h2))

theorem settleCheck_canonical {env : Env} {t : Nat} {c : TitheStep} : MemoriesCanonical (s.settleCheck env t c) := by
  unfold settleCheck
  split
  · exact judge_canonical hs
  · exact setCheck_canonical hs

theorem runEnd_canonical {env : Env} {t : Nat} {run : RunKind} {report : RunSignature} :
    MemoriesCanonical (s.runEnd env t run report) := by
  unfold runEnd
  split
  · exact hs
  · split
    · exact hs
    · split
      · exact hs
      · dsimp only
        split
        · exact judgeShadow_canonical (leaveRun_canonical hs)
        · exact ite_canonical (setCheck_canonical (leaveRun_canonical hs)) (settleCheck_canonical (leaveRun_canonical
            hs))
        · split
          · exact settleCheck_canonical (leaveRun_canonical hs)
          · split
            · exact leaveRun_canonical hs
            · exact ite_canonical (endRepeats_canonical (leaveRun_canonical hs)) (setCheck_canonical
                (leaveRun_canonical hs))

theorem replayStep_canonical {env : Env} {t : Nat} {report : RunSignature} :
    MemoriesCanonical (s.replayStep env t report) := by
  unfold replayStep
  split
  · dsimp only
    split
    · exact restartStep_canonical (rollBack_canonical hs)
    · exact ite_canonical hs (ite_canonical (endCheck_canonical (decideBy_canonical hs)) (setCheck_canonical
        (rollBack_canonical (decideBy_canonical hs))))
    · exact ite_canonical hs (ite_canonical (endCheck_canonical hs) (failStep_canonical hs))
    · exact hs
  · exact hs

theorem stall_canonical {t : Nat} : MemoriesCanonical (s.stall t) := by
  unfold stall
  split
  · exact ite_canonical (log_canonical (runUnchecked_canonical hs)) hs
  · exact hs

theorem outputEnv_canonical {t : Nat} {c : TitheStep} : MemoriesCanonical (s.outputEnv t c).2 := freeEnv_canonical hs

theorem placeLost_canonical {p t : Nat} {c : TitheStep} : MemoriesCanonical (s.placeLost p t c) := by
  unfold placeLost
  dsimp only
  split
  · exact ite_canonical (runUnchecked_canonical hs) hs
  · exact ite_canonical (setCheck_canonical hs) (settleCheck_canonical (outputEnv_canonical hs))
  · exact ite_canonical hs (ite_canonical (endRepeats_canonical (outputEnv_canonical hs)) (setCheck_canonical hs))
  · exact hs

theorem placesLost_canonical {p : Nat} : MemoriesCanonical (s.placesLost p) :=
  foldEach_canonical hs (fun _ _ h => getD_map_canonical h (fun _ => placeLost_canonical h))

theorem restoreGang_canonical {g : Nat} : MemoriesCanonical (s.restoreGang g) :=
  ite_canonical (log_canonical hs) (ite_canonical hs (sendMesh_canonical (onGang_canonical hs)))

theorem writeGranary_canonical {v : Nat} : MemoriesCanonical (s.writeGranary v) :=
  ite_canonical (setF_canonical hs) (ite_canonical (ite_canonical (onGang_canonical (setF_canonical hs))
    (setF_canonical hs)) (ite_canonical (restoreGang_canonical (setF_canonical hs)) (setF_canonical hs)))

/-! ### Fences -/

theorem renameTile_canonical {o n : Nat} : MemoriesCanonical (s.renameTile o n) := update_canonical hs

theorem resumeAll_canonical : MemoriesCanonical s.resumeAll :=
  foldEach_canonical hs (fun _ _ h => leaveBoundary_canonical h)

theorem drainPillar_canonical {env : Env} {t : Nat} : MemoriesCanonical (s.drainPillar env t) :=
  onPillar_canonical (foldEach_canonical hs (fun _ _ h => answerReq_canonical (performReq_canonical
    (keepStaged_canonical h))))

theorem copyPillar_canonical {env : Env} {o n : Nat} : MemoriesCanonical (s.copyPillar env o n) := by
  obtain ⟨h1, h2, h3, h4⟩ := hs
  unfold copyPillar
  extract_lets lo dst keep cws s1
  have hk : MemoriesCanonical s1 := ⟨SMap.wf_filter 0 _ h1, SMap.wf_filter 0 _ h2, h3, h4⟩
  refine foldEach_canonical hk (fun k s h => ?_)
  dsimp only
  exact writeLoc_canonical _ _ _ _ (readCw_canonical _ _ _ h)

theorem bumpGen_canonical : MemoriesCanonical s.bumpGen := setF_canonical hs

theorem remapTo_canonical {env : Env} {l o n : Nat} : MemoriesCanonical (s.remapTo env l o n) := by
  unfold remapTo
  dsimp only
  split
  · exact ite_canonical (restartStep_canonical (drainHosts_canonical (bumpGen_canonical (update_canonical
      (renameTile_canonical (setTile_canonical (setTile_canonical (copyPillar_canonical (drainPillar_canonical
      (drainPillar_canonical hs)))))))))) (drainHosts_canonical (bumpGen_canonical (update_canonical
      (renameTile_canonical (setTile_canonical (setTile_canonical (copyPillar_canonical (drainPillar_canonical
      (drainPillar_canonical hs)))))))))
  · exact drainHosts_canonical (bumpGen_canonical (update_canonical (renameTile_canonical (setTile_canonical
      (setTile_canonical (copyPillar_canonical (drainPillar_canonical (drainPillar_canonical hs))))))))

theorem popFence_canonical : MemoriesCanonical s.popFence := update_canonical hs
theorem setFence_canonical {j : FenceJob} : MemoriesCanonical (s.setFence j) := update_canonical hs

theorem fencePillar_canonical {t : Nat} {dead : Bool} : MemoriesCanonical (s.fencePillar t dead) :=
  update_canonical hs

theorem fenceDone_canonical {j : FenceJob} {l : Option Nat} {noSpare : Bool} {kind gang : Option Nat} :
    MemoriesCanonical (s.fenceDone j l noSpare kind gang) := by
  unfold fenceDone
  refine resumeAll_canonical ?_
  refine raise_canonical ?_
  split
  · exact cper_canonical (setF_canonical (setF_canonical (ite_canonical (setF_canonical (setF_canonical
      (popFence_canonical hs))) (setF_canonical (popFence_canonical hs)))))
  · exact setF_canonical (setF_canonical (ite_canonical (setF_canonical (setF_canonical (popFence_canonical hs)))
      (setF_canonical (popFence_canonical hs))))

theorem fenceNoSpare_canonical {j : FenceJob} {l : Nat} : MemoriesCanonical (s.fenceNoSpare j l) := by
  unfold fenceNoSpare
  refine fenceDone_canonical ?_
  split
  · exact ite_canonical (fencePillar_canonical hs) hs
  · dsimp only
    split
    · exact ite_canonical (withdrawTile_canonical (bumpGen_canonical (ite_canonical (fencePillar_canonical hs) hs)))
        (tileFault_canonical (withdrawTile_canonical (bumpGen_canonical (ite_canonical (fencePillar_canonical hs)
        hs))))
    · exact bumpGen_canonical (ite_canonical (fencePillar_canonical hs) hs)

theorem fenceGo_canonical {env : Env} {j : FenceJob} : MemoriesCanonical (s.fenceGo env j) := by
  unfold fenceGo
  split
  · exact fenceDone_canonical (ite_canonical (fencePillar_canonical hs) hs)
  · split
    · exact fenceNoSpare_canonical hs
    · split
      · exact hs
      · exact ite_canonical (fenceDone_canonical (ite_canonical (fencePillar_canonical (remapTo_canonical
          (setFence_canonical hs))) (remapTo_canonical (setFence_canonical hs)))) (setFence_canonical hs)

theorem fenceStep_canonical {env : Env} : MemoriesCanonical (s.fenceStep env) := by
  unfold fenceStep
  split
  · exact hs
  · exact ite_canonical hs (ite_canonical (fenceGo_canonical hs) (ite_canonical (popFence_canonical hs)
      (fenceGo_canonical (setFence_canonical (update_canonical hs)))))

theorem writeFenceReq_canonical {v : Nat} : MemoriesCanonical (s.writeFenceReq v) :=
  ite_canonical hs (ite_canonical (log_canonical hs) (ite_canonical (log_canonical hs) (fenceAsk_canonical hs)))

/-! ### Manifests -/

theorem measureManifest_canonical {img : List Byte} {slot : Nat} : MemoriesCanonical (s.measureManifest img slot) :=
  foldEach_canonical (foldEach_canonical (foldEach_canonical (foldEach_canonical (foldEach_canonical
    (extend_canonical (extend_canonical hs)) (fun _ _ h => extend_canonical h)) (fun _ _ h => extend_canonical h))
    (fun _ _ h => extend_canonical h)) (fun _ _ h => extend_canonical h)) (fun _ _ h => extend_canonical h)

/-! ### Resets -/

theorem resetRegs_canonical {keep : Nat → Nat} : MemoriesCanonical (s.resetRegs keep) := update_canonical hs

theorem channelSleep_canonical {c : Nat} : MemoriesCanonical (s.channelSleep c) :=
  ite_canonical (onChannel_canonical hs) (onChannel_canonical (drainWrites_canonical (drainReads_canonical hs)))

theorem refuseReq_canonical {r : MemReq} : MemoriesCanonical (refuseReq r s) := by
  unfold refuseReq
  split
  · exact respond_canonical (log_canonical hs)
  · exact hs

theorem refuseWaiting_canonical {h : Nat} {w : Waiting} : MemoriesCanonical (refuseWaiting h w s) := by
  unfold refuseWaiting
  split
  · exact refuseReq_canonical hs
  · exact respond_canonical hs
  · exact hs
  · exact emit_canonical (log_canonical hs)

theorem updateAlert_canonical : MemoriesCanonical s.updateAlert := update_canonical hs

theorem mailAbort_canonical {h : Nat} : MemoriesCanonical (s.mailAbort h) :=
  ite_canonical (mailboxDone_canonical hs) hs

theorem warmStart_canonical : MemoriesCanonical s.warmStart :=
  updateAlert_canonical (updatePanic_canonical (mailAbort_canonical (mailAbort_canonical (update_canonical
    (resetRegs_canonical (foldEach_canonical (foldEach_canonical (foldEach_canonical (foldEach_canonical
    (update_canonical hs) (fun _ _ h => channelSleep_canonical h)) (fun _ _ h => refuseReq_canonical h))
    (fun _ _ h => refuseWaiting_canonical h)) (fun _ _ h => refuseWaiting_canonical h)))))))

omit hs in
theorem fullReset_canonical {power : Bool} : MemoriesCanonical (s.fullReset power) :=
  ite_canonical (update_canonical reset_canonical) (setF_canonical (update_canonical reset_canonical))

omit hs in
theorem stopModule_canonical : MemoriesCanonical s.stopModule := empty_canonical

theorem setVddt_canonical {p mv : Nat} : MemoriesCanonical (s.setVddt p mv) := update_canonical hs
theorem setOpPoint_canonical {p i : Nat} : MemoriesCanonical (s.setOpPoint p i) := update_canonical hs
theorem vrRead_canonical {p cmd : Nat} : MemoriesCanonical (s.vrRead p cmd) := emit_canonical hs

theorem vrWrite_canonical {p cmd : Nat} {data : List Byte} : MemoriesCanonical (s.vrWrite p cmd data) :=
  emit_canonical hs

theorem vrMode_canonical {p : Nat} : MemoriesCanonical (s.vrMode p) :=
  ite_canonical hs (update_canonical (update_canonical (vrRead_canonical hs)))

theorem driveRail_canonical {p mv : Nat} : MemoriesCanonical (s.driveRail p mv) :=
  setVddt_canonical (vrWrite_canonical (vrMode_canonical hs))

theorem pollRail_canonical {p : Nat} : MemoriesCanonical (s.pollRail p) := vrRead_canonical (vrRead_canonical hs)
theorem setFreq_canonical {k f : Nat} : MemoriesCanonical (s.setFreq k f) := setF_canonical (setF_canonical hs)

theorem setTclk_canonical {p i mhz : Nat} : MemoriesCanonical (s.setTclk p i mhz) :=
  setF_canonical (setFreq_canonical hs)

theorem bootPoint_canonical {p : Nat} : MemoriesCanonical (s.bootPoint p) := by
  unfold bootPoint
  split
  · exact hs
  · dsimp only
    split
    · exact hs
    · exact setTclk_canonical (setOpPoint_canonical (ite_canonical hs (driveRail_canonical hs)))

theorem paddockTile_canonical {t : Nat} : MemoriesCanonical (paddockTile t s) :=
  setF_canonical (onPillar_canonical (onTile_canonical (resetTile_canonical hs)))

theorem paddockReset_canonical {p : Nat} : MemoriesCanonical (s.paddockReset p) := by
  unfold paddockReset
  exact bootPoint_canonical (setF_canonical (setF_canonical (setF_canonical (foldEach_canonical (placesLost_canonical
    (foldEach_canonical hs (fun _ _ h => resetGang_canonical h))) (fun _ _ h => paddockTile_canonical h)))))

theorem runWaiting_canonical : MemoriesCanonical s.runWaiting :=
  foldEach_canonical (update_canonical hs) (fun _ _ h => paddockReset_canonical h)

theorem writeReset_canonical {v : Nat} : MemoriesCanonical (s.writeReset v) :=
  ite_canonical hs (ite_canonical (log_canonical hs) (ite_canonical (warmStart_canonical hs) (ite_canonical
    (update_canonical hs) (paddockReset_canonical hs))))

/-! ### Packets received -/

theorem updateRidgePanic_canonical : MemoriesCanonical s.updateRidgePanic :=
  foldEach_canonical hs (fun _ _ h => setF_canonical h)

theorem popRx_canonical {p : Nat} {k : Packet} : MemoriesCanonical (s.popRx p k) :=
  updateRidgePanic_canonical (onRport_canonical hs)

theorem sendMgmt_canonical {p op len : Nat} {args data : List Byte} :
    MemoriesCanonical (s.sendMgmt p op len args data) :=
  ite_canonical (leaveBy_canonical (update_canonical hs)) hs

theorem passOn_canonical {p : Nat} {k : Packet} : MemoriesCanonical (s.passOn p k) :=
  ite_canonical (leaveBy_canonical hs) hs

theorem sendHello_canonical {p : Nat} : MemoriesCanonical (s.sendHello p) := sendMgmt_canonical hs

theorem takeRwr_canonical {k : Packet} : MemoriesCanonical (s.takeRwr k) := by
  unfold takeRwr
  refine foldEach_canonical hs (fun _ _ h => ?_)
  split
  · exact h
  · exact stageArrive_canonical h

theorem handRead_canonical {r : MemReq} : ∀ s' ∈ s.handRead r, MemoriesCanonical s' := by
  unfold handRead
  split
  · exact forall_mem_none
  · exact handOn_canonical hs

theorem takeRrd_canonical {env : Env} {k : Packet} : ∀ s' ∈ s.takeRrd env k, MemoriesCanonical s' := by
  have hf : ∀ (f : State → Nat → Option State), (∀ s i, MemoriesCanonical s → ∀ s' ∈ f s i, MemoriesCanonical s') →
      ∀ (xs : List Nat) (o : Option State), (∀ s ∈ o, MemoriesCanonical s) →
        ∀ s' ∈ xs.foldl (fun o i => o.bind fun s => f s i) o, MemoriesCanonical s' := by
    intro f hf xs
    induction xs with
    | nil => exact fun _ h => h
    | cons x xs ih =>
      refine fun o h => ih _ fun s' e => ?_
      obtain ⟨s, hs, e⟩ := Option.bind_eq_some_iff.1 e
      exact hf s x (h s hs) s' e
  unfold takeRrd
  dsimp only
  split
  · split
    · exact forall_mem_none
    · exact forall_mem_some (inject_canonical (binErrors_canonical hs))
  · split
    · exact forall_mem_some hs
    · exact hf _ (fun _ _ h => handRead_canonical h) _ _ (forall_mem_some (update_canonical hs))

theorem takeRrsp_canonical {k : Packet} : MemoriesCanonical (s.takeRrsp k) := by
  unfold takeRrsp
  dsimp only
  split
  · exact hs
  · split
    · exact hs
    · exact ite_canonical (entryFault_canonical hs) (setEntry_canonical hs)

theorem takeWack_canonical {k : Packet} : MemoriesCanonical (s.takeWack k) := by
  unfold takeWack
  dsimp only
  split
  · exact hs
  · exact ite_canonical hs (ite_canonical (entryFault_canonical hs) (setEntry_canonical hs))

theorem takeRemoteCommit_canonical {env : Env} {k : Packet} : MemoriesCanonical (s.takeRemoteCommit env k) :=
  takeCommit_canonical (upset_canonical _ _ hs)

theorem takeCack_canonical {k : Packet} : MemoriesCanonical (s.takeCack k) :=
  ite_canonical (onTile_canonical hs) (gateAck_canonical hs)

theorem takeReply_canonical {k : Packet} : MemoriesCanonical (s.takeReply k) :=
  ite_canonical (takeRrsp_canonical hs) (ite_canonical (takeWack_canonical hs) hs)

theorem sendFrom_canonical {input : Nat} {k : Packet} : MemoriesCanonical (s.sendFrom input k) := by
  unfold sendFrom
  split
  next _ s1 e1 => exact takeReply_canonical (e1 ▸ injectAt_canonical hs :)
  next s1 e1 => exact (e1 ▸ injectAt_canonical hs :)

theorem cackTimeout_canonical {t : Nat} : MemoriesCanonical (s.cackTimeout t) := by
  unfold cackTimeout
  dsimp only
  split
  · exact ite_canonical hs (tileFault_canonical hs)
  · exact ite_canonical (onTile_canonical hs) (tileFault_canonical (onTile_canonical hs))
  · exact hs

theorem replyTimeout_canonical {t q : Nat} : MemoriesCanonical (s.replyTimeout t q) := by
  unfold replyTimeout
  split
  · split
    · split
      · exact entryFault_canonical hs
      · exact ite_canonical (entryFault_canonical hs) hs
    · exact hs
  · exact cackTimeout_canonical hs

theorem release_canonical {d cls : Nat} : MemoriesCanonical (s.release d cls) := by
  unfold release
  split
  · exact hs
  · exact foldEach_canonical (showHeld_canonical (update_canonical (update_canonical hs))) (fun _ _ h2 =>
      sendFrom_canonical h2)

theorem bounce_canonical {p : Nat} {k : Packet} : MemoriesCanonical (bounce p k s) := by
  unfold bounce
  dsimp only
  split
  · exact ite_canonical (release_canonical hs) (leaveBy_canonical hs)
  · split
    · exact ite_canonical (leaveBy_canonical hs) hs
    · split
      · exact leaveBy_canonical hs
      · exact hs
      · exact sendFrom_canonical hs

theorem bounceAll_canonical {p : Nat} {ks : List Packet} : MemoriesCanonical (s.bounceAll p ks) :=
  foldEach_canonical (onRport_canonical hs) (fun _ _ h => bounce_canonical h)

theorem bounceAfter_canonical {p : Nat} {seq : BitVec 12} : MemoriesCanonical (s.bounceAfter p seq) :=
  bounceAll_canonical hs

theorem goAlong_canonical {input p : Nat} {k : Packet} : MemoriesCanonical (s.goAlong input p k) :=
  ite_canonical (leaveBy_canonical hs) (bounce_canonical hs)

theorem sealUp_canonical {d p : Nat} {dsts : List Nat} : MemoriesCanonical (s.sealUp d p dsts) :=
  foldEach_canonical hs (fun _ _ h => goAlong_canonical (update_canonical h))

theorem purgeNode_canonical {n : Nat} : MemoriesCanonical (s.purgeNode n) := update_canonical hs

theorem dropOrphans_canonical : MemoriesCanonical s.dropOrphans := by
  unfold dropOrphans
  split
  · exact hs
  · exact log_canonical (foldEach_canonical hs (fun _ _ h2 => purgeNode_canonical h2))

theorem setCut_canonical {d : Nat} {bs : List Nat} : MemoriesCanonical (s.setCut d bs) := update_canonical hs

theorem setRing_canonical {d len state : Nat} {bs : List Nat} : MemoriesCanonical (s.setRing d len state bs) := by
  unfold setRing
  dsimp only
  split
  · exact raise_canonical (setCut_canonical (setF_canonical (setF_canonical (setF_canonical hs))))
  · exact ite_canonical (sealUp_canonical (raise_canonical (setCut_canonical (setF_canonical (setF_canonical
      (setF_canonical hs)))))) (raise_canonical (setCut_canonical (setF_canonical (setF_canonical (setF_canonical
      hs)))))

theorem setBreaks_canonical {d : Nat} {bs : List Nat} : MemoriesCanonical (s.setBreaks d bs) := setRing_canonical hs

theorem addBreak_canonical {d b : Nat} : MemoriesCanonical (s.addBreak d b) :=
  ite_canonical (dropOrphans_canonical (setBreaks_canonical hs)) hs

theorem linkGoesDown_canonical {p : Nat} {planned : Bool} : MemoriesCanonical (s.linkGoesDown p planned) := by
  unfold linkGoesDown
  extract_lets d rxseq begun s1 s2 s3 s4 s5
  have h2 : MemoriesCanonical s2 := onRport_canonical (setF_canonical (ite_canonical hs (log_canonical hs)))
  have h3 : MemoriesCanonical s3 := updateRidgePanic_canonical h2
  have h4 : MemoriesCanonical s4 := sendMgmt_canonical h3
  have h5 : MemoriesCanonical s5 := ite_canonical (addBreak_canonical h4) h3
  clear_value s5
  split
  · exact bounceAll_canonical h5
  · split
    · exact bounceAfter_canonical h5
    · exact h5

theorem closeLink_canonical {p : Nat} : MemoriesCanonical (s.closeLink p) :=
  ite_canonical (setF_canonical (linkGoesDown_canonical hs)) (linkGoesDown_canonical hs)

theorem planDown_canonical {p : Nat} : MemoriesCanonical (s.planDown p) :=
  ite_canonical hs (ite_canonical (closeLink_canonical (onRport_canonical (setF_canonical hs))) (onRport_canonical
    (setF_canonical hs)))

theorem ackTo_canonical {p : Nat} {a : BitVec 12} : MemoriesCanonical (s.ackTo p a) :=
  ite_canonical (closeLink_canonical (onRport_canonical hs)) (pumpAll_canonical (onRport_canonical hs))

theorem ackReceive_canonical {p : Nat} {a : BitVec 12} : MemoriesCanonical (s.ackReceive p a) :=
  ite_canonical hs (ite_canonical (ackTo_canonical hs) (log_canonical hs))

theorem resend_canonical {p : Nat} : MemoriesCanonical (s.resend p) := by
  unfold resend
  dsimp only
  split
  · exact addF_canonical (addF_canonical (foldEach_canonical hs (fun _ _ h2 => emit_canonical h2)))
  · exact ite_canonical (linkGoesDown_canonical (onRport_canonical (addF_canonical (addF_canonical
      (foldEach_canonical hs (fun _ _ h2 => emit_canonical h2)))))) (onRport_canonical (addF_canonical
      (addF_canonical (foldEach_canonical hs (fun _ _ h2 => emit_canonical h2)))))

theorem nakReceive_canonical {p : Nat} {a : BitVec 12} : MemoriesCanonical (s.nakReceive p a) := by
  unfold nakReceive
  split
  · exact hs
  · dsimp only
    split
    · exact ite_canonical (resend_canonical hs) (log_canonical hs)
    · exact ite_canonical (resend_canonical hs) (ite_canonical (ite_canonical (closeLink_canonical (resend_canonical
        (onRport_canonical hs))) (resend_canonical (onRport_canonical hs))) (log_canonical hs))

theorem creditReturn_canonical {p vc n : Nat} : MemoriesCanonical (s.creditReturn p vc n) :=
  ite_canonical hs (pumpAll_canonical (onRport_canonical hs))

theorem takeRecord_canonical {p : Nat} {r : List Byte} : MemoriesCanonical (s.takeRecord p r) :=
  foldEach_canonical (ite_canonical (nakReceive_canonical hs) (ite_canonical (ackReceive_canonical hs) hs))
    (fun _ _ h => ite_canonical h (creditReturn_canonical h))

theorem sendRecord_canonical {p : Nat} : MemoriesCanonical (s.sendRecord p) := sendFlit_canonical hs

theorem flitFails_canonical {p : Nat} {proto : Bool} : MemoriesCanonical (s.flitFails p proto) :=
  ite_canonical (ite_canonical (log_canonical (addF_canonical hs)) (addF_canonical hs)) (sendRecord_canonical
    (onRport_canonical (ite_canonical (log_canonical (addF_canonical hs)) (addF_canonical hs))))

theorem flitReceive_canonical {p : Nat} {flit : List Byte} {fecOk : Bool} :
    MemoriesCanonical (s.flitReceive p flit fecOk) :=
  ite_canonical hs (ite_canonical (flitFails_canonical hs) (ite_canonical (addF_canonical hs) (ite_canonical
    (takeRecord_canonical (ite_canonical (updateRidgePanic_canonical (onRport_canonical hs)) hs)) (ite_canonical
    (updateRidgePanic_canonical (onRport_canonical hs)) hs))))

theorem onWalk_canonical {d : Nat} {f : Walk → Walk} : MemoriesCanonical (s.onWalk d f) := update_canonical hs
theorem setCoord_canonical {d c : Nat} : MemoriesCanonical (s.setCoord d c) := setF_canonical hs

theorem sendRinginfo_canonical {p d state len : Nat} {bs : List Nat} :
    MemoriesCanonical (s.sendRinginfo p d state len bs) :=
  sendMgmt_canonical hs

theorem rejoin_canonical {p : Nat} : MemoriesCanonical (s.rejoin p) :=
  ite_canonical (sendRinginfo_canonical (sendRinginfo_canonical (setBreaks_canonical hs))) hs

theorem checkPeer_canonical {p : Nat} : MemoriesCanonical (s.checkPeer p) :=
  ite_canonical hs (ite_canonical (pumpAll_canonical (rejoin_canonical (onRport_canonical hs))) (log_canonical
    (onRport_canonical hs)))

theorem greetAll_canonical : MemoriesCanonical s.greetAll :=
  foldEach_canonical (foldEach_canonical hs (fun _ _ h => sendHello_canonical h)) (fun _ _ h => checkPeer_canonical h)

theorem walksEnded_canonical : MemoriesCanonical s.walksEnded :=
  ite_canonical (ite_canonical (update_canonical (setF_canonical (setF_canonical (greetAll_canonical hs))))
    (greetAll_canonical hs)) hs

theorem endWalk_canonical {d state len : Nat} {bs : List Nat} : MemoriesCanonical (s.endWalk d state len bs) := by
  unfold endWalk
  refine walksEnded_canonical ?_
  refine onWalk_canonical ?_
  split
  · exact log_canonical (ite_canonical (setF_canonical (setCoord_canonical (setF_canonical (setF_canonical
      (setF_canonical hs))))) (setF_canonical (setF_canonical (setF_canonical hs))))
  · exact raise_canonical (ite_canonical (setF_canonical (setCoord_canonical (setF_canonical (setF_canonical
      (setF_canonical hs))))) (setF_canonical (setF_canonical (setF_canonical hs))))

theorem concludeWalk_canonical {d state len : Nat} {bs : List Nat} :
    MemoriesCanonical (s.concludeWalk d state len bs) :=
  endWalk_canonical (foldEach_canonical hs (fun _ _ h => ite_canonical (sendRinginfo_canonical h) h))

theorem sendToken_canonical {p op d : Nat} {nToken : Bool} {count : Int} {serial : List Byte} :
    MemoriesCanonical (s.sendToken p op d nToken count serial) :=
  sendMgmt_canonical hs

theorem pEndKnown_canonical {d a : Nat} : MemoriesCanonical (s.pEndKnown d a) :=
  ite_canonical (sendToken_canonical (onWalk_canonical hs)) (concludeWalk_canonical (onWalk_canonical hs))

theorem takePToken_canonical {d : Nat} {count : Int} {serial : List Byte} :
    MemoriesCanonical (s.takePToken d count serial) :=
  ite_canonical (concludeWalk_canonical hs) (ite_canonical (sendToken_canonical (setCoord_canonical (onWalk_canonical
    hs))) (sendToken_canonical (setCoord_canonical (onWalk_canonical hs))))

theorem takeNToken_canonical {d : Nat} {count : Int} {serial : List Byte} :
    MemoriesCanonical (s.takeNToken d count serial) :=
  ite_canonical (sendToken_canonical (onWalk_canonical hs)) (sendToken_canonical (onWalk_canonical hs))

theorem takeFurrow_canonical {p : Nat} {k : Packet} : MemoriesCanonical (s.takeFurrow p k) :=
  ite_canonical (log_canonical (onRport_canonical hs)) (ite_canonical hs (ite_canonical (onWalk_canonical hs)
    (ite_canonical hs (ite_canonical (ite_canonical (concludeWalk_canonical hs) (ite_canonical hs
    (concludeWalk_canonical hs))) (ite_canonical (concludeWalk_canonical hs) (ite_canonical (takeNToken_canonical hs)
    (takePToken_canonical hs)))))))

theorem takeFurrowend_canonical {p : Nat} {k : Packet} : MemoriesCanonical (s.takeFurrowend p k) :=
  ite_canonical hs (ite_canonical (ite_canonical (passOn_canonical hs) hs) (ite_canonical hs (ite_canonical
    (pEndKnown_canonical hs) (ite_canonical (concludeWalk_canonical hs) (concludeWalk_canonical hs)))))

theorem takeRinginfo_canonical {p : Nat} {k : Packet} : MemoriesCanonical (s.takeRinginfo p k) :=
  ite_canonical (ite_canonical hs (ite_canonical (passOn_canonical (endWalk_canonical hs)) (endWalk_canonical hs)))
    (ite_canonical hs (ite_canonical (passOn_canonical (dropOrphans_canonical (setRing_canonical hs))) hs))

theorem beginWalk_canonical {d : Nat} : MemoriesCanonical (s.beginWalk d) :=
  ite_canonical (endWalk_canonical (onWalk_canonical hs)) (ite_canonical (foldEach_canonical (ite_canonical
    (sendToken_canonical (onWalk_canonical hs)) (pEndKnown_canonical (onWalk_canonical hs))) (fun _ _ h =>
    takeFurrow_canonical h)) (foldEach_canonical (onWalk_canonical hs) (fun _ _ h => takeFurrow_canonical h)))

theorem walkTimeout_canonical : MemoriesCanonical s.walkTimeout :=
  foldEach_canonical hs (fun _ _ h => ite_canonical h (ite_canonical (concludeWalk_canonical h) (ite_canonical h
    (endWalk_canonical h))))

theorem takeHello_canonical {p : Nat} {k : Packet} : MemoriesCanonical (s.takeHello p k) :=
  ite_canonical (log_canonical (onRport_canonical (setF_canonical hs))) (checkPeer_canonical (onRport_canonical
    (setF_canonical hs)))

theorem ridgeUp_canonical {p : Nat} : MemoriesCanonical (s.ridgeUp p) :=
  ite_canonical hs (sendHello_canonical (raise_canonical (onRport_canonical (setF_canonical hs))))

theorem takeLinkdown_canonical {p : Nat} {k : Packet} : MemoriesCanonical (s.takeLinkdown p k) :=
  ite_canonical (passOn_canonical (addBreak_canonical hs)) (ite_canonical (addBreak_canonical hs) (ite_canonical
    (bounceAfter_canonical (addBreak_canonical hs)) (ite_canonical (onRport_canonical (addBreak_canonical hs))
    (addBreak_canonical hs))))

theorem rxseqLost_canonical {p : Nat} : MemoriesCanonical (s.rxseqLost p) :=
  ite_canonical (bounceAll_canonical (addF_canonical hs)) hs

theorem transit_canonical {p : Nat} {k : Packet} : MemoriesCanonical (s.transit p k) :=
  ite_canonical (sendFrom_canonical hs) (ite_canonical (bounce_canonical hs) (goAlong_canonical hs))

theorem ridgeRow_canonical {ok : Bool} {f : State → State} (hf : ∀ s, MemoriesCanonical s → MemoriesCanonical (f s)) :
    NextCanonical (ridgeRow ok s f) :=
  guardUnit_canonical (inClock_canonical hs (hf _ hs))

theorem packetRow_canonical {p vc : Nat} {ops : List Nat} {f : Packet → State → Option State} (hf : ∀ x s,
    MemoriesCanonical s → ∀ s' ∈ f x s, MemoriesCanonical s') :
    NextCanonical (packetRow p vc ops s f) := by
  unfold packetRow
  refine ridgeRow_canonical hs (fun _ h => ?_)
  split
  · exact h
  · exact ite_canonical h (ite_canonical (popRx_canonical h) (ite_canonical (popRx_canonical h) (getD_canonical (hf _
      _ (popRx_canonical h)) h)))

theorem nodeRow_canonical {p vc : Nat} {ops : List Nat} {f : Packet → State → Option State} (hf : ∀ x s,
    MemoriesCanonical s → ∀ s' ∈ f x s, MemoriesCanonical s') :
    NextCanonical (nodeRow p vc ops s f) := by
  unfold nodeRow
  refine packetRow_canonical hs (fun _ _ h => ?_)
  split
  · exact hf _ _ h
  · exact forall_mem_some (transit_canonical h)

theorem execIdleFlitTimer_canonical {p : Nat} : NextCanonical (execIdleFlitTimer p s) :=
  ridgeRow_canonical hs (fun _ h => ite_canonical (sendFlit_canonical h) h)

theorem execAckTimer_canonical {p : Nat} : NextCanonical (execAckTimer p s) :=
  ridgeRow_canonical hs (fun _ h => ite_canonical (sendRecord_canonical h) h)

theorem execNakRepeat_canonical {p : Nat} : NextCanonical (execNakRepeat p s) :=
  ridgeRow_canonical hs (fun _ h => ite_canonical (sendRecord_canonical (onRport_canonical h)) h)

theorem execLinkDown_canonical {p : Nat} : NextCanonical (execLinkDown p s) :=
  ridgeRow_canonical hs (fun _ h => ite_canonical (linkGoesDown_canonical h) (ite_canonical (setF_canonical h) h))

theorem execRxseqTimeout_canonical {p : Nat} : NextCanonical (execRxseqTimeout p s) :=
  ridgeRow_canonical hs (fun _ h => rxseqLost_canonical h)

theorem execRwr_canonical {p vc : Nat} : NextCanonical (execRwr p vc s) :=
  nodeRow_canonical hs (fun _ _ h => forall_mem_some (takeRwr_canonical h))

theorem execRrd_canonical {p : Nat} {vc : Seen Nat} : NextCanonical (execRrd p vc s) :=
  nodeRow_canonical hs (fun _ _ h => takeRrd_canonical (upset_canonical _ _ h))

theorem execRrsp_canonical {p vc : Nat} : NextCanonical (execRrsp p vc s) :=
  nodeRow_canonical hs (fun _ _ h => forall_mem_some (takeRrsp_canonical h))

theorem execWack_canonical {p vc : Nat} : NextCanonical (execWack p vc s) :=
  nodeRow_canonical hs (fun _ _ h => forall_mem_some (takeWack_canonical h))

theorem execCack_canonical {p vc : Nat} : NextCanonical (execCack p vc s) :=
  nodeRow_canonical hs (fun _ _ h => forall_mem_some (takeCack_canonical h))

theorem execFlagadd_canonical {p vc : Nat} : NextCanonical (execFlagadd p vc s) :=
  nodeRow_canonical hs (fun _ _ h => forall_mem_some (takeFlagAdd_canonical h))

theorem execFurrowend_canonical {p vc : Nat} : NextCanonical (execFurrowend p vc s) :=
  packetRow_canonical hs (fun _ _ h => forall_mem_some (takeFurrowend_canonical h))

theorem execRinginfo_canonical {p vc : Nat} : NextCanonical (execRinginfo p vc s) :=
  packetRow_canonical hs (fun _ _ h => forall_mem_some (takeRinginfo_canonical h))

theorem execSealPkt_canonical {p vc : Nat} : NextCanonical (execSealPkt p vc s) :=
  packetRow_canonical hs (fun _ _ h => forall_mem_some (ite_canonical (release_canonical h) (transit_canonical h)))

theorem execPacketBad_canonical {p vc : Nat} : NextCanonical (execPacketBad p vc s) := by
  unfold execPacketBad
  refine ridgeRow_canonical hs (fun _ h => ?_)
  split
  · exact ite_canonical (log_canonical (popRx_canonical h)) h
  · exact h

/-! ### Live changes -/

theorem setPhase_canonical {ph : JobPhase} : MemoriesCanonical (s.setPhase ph) := update_canonical hs

theorem startUpkeep_canonical {op arg : Nat} : MemoriesCanonical (s.startUpkeep op arg) :=
  ite_canonical (log_canonical hs) (update_canonical (ite_canonical (beginTraining_canonical (setF_canonical
    (setF_canonical hs))) (setF_canonical (setF_canonical hs))))

theorem writeUpkeep_canonical {v : Nat} : MemoriesCanonical (s.writeUpkeep v) :=
  ite_canonical (startUpkeep_canonical hs) hs

theorem endUpkeep_canonical {result : Nat} : MemoriesCanonical (s.endUpkeep result) :=
  resumeAll_canonical (setPhase_canonical hs)

theorem reportUpkeep_canonical : MemoriesCanonical s.reportUpkeep := by
  unfold reportUpkeep
  split
  · exact runWaiting_canonical (update_canonical (raise_canonical (extend_canonical (setF_canonical (setF_canonical
      (setF_canonical hs))))))
  · exact hs

theorem recal_canonical : MemoriesCanonical s.recal := by
  unfold recal
  split
  · exact ite_canonical (endUpkeep_canonical (foldEach_canonical hs (fun _ _ h2 => onPillar_canonical h2))) hs
  · exact hs

theorem swapStep_canonical {env : Env} : MemoriesCanonical (s.swapStep env) := by
  unfold swapStep
  dsimp only
  split
  · split
    · split
      · exact hs
      · split
        · exact endUpkeep_canonical hs
        · split
          · split
            · exact endUpkeep_canonical (remapTo_canonical (setPhase_canonical hs))
            · exact setPhase_canonical hs
          · exact setPhase_canonical hs
    · split
      · split
        · exact endUpkeep_canonical (remapTo_canonical hs)
        · exact hs
      · exact hs
    · exact hs
  · exact hs

theorem retrainStep_canonical {c : Nat} {ok1 ok2 : Bool} : MemoriesCanonical (s.retrainStep c ok1 ok2) :=
  ite_canonical (ite_canonical (endUpkeep_canonical hs) hs) (ite_canonical (ite_canonical (endUpkeep_canonical
    (retrain_canonical hs)) (retrain_canonical hs)) hs)

theorem writeTrain_canonical {c v : Nat} : MemoriesCanonical (s.writeTrain c v) :=
  ite_canonical (ite_canonical (setF_canonical (setF_canonical hs)) (setF_canonical hs)) (startUpkeep_canonical
    (ite_canonical (setF_canonical (setF_canonical hs)) (setF_canonical hs)))

theorem ridgeRetrainStep_canonical {p : Nat} {ok : Bool} : MemoriesCanonical (s.ridgeRetrainStep p ok) := by
  unfold ridgeRetrainStep
  dsimp only
  split
  · split
    · exact hs
    · split
      · exact ite_canonical hs (ite_canonical (endUpkeep_canonical hs) (ite_canonical (setPhase_canonical
          (setF_canonical hs)) (ite_canonical (endUpkeep_canonical (ridgeUp_canonical (ite_canonical
          (linkGoesDown_canonical hs) hs))) (endUpkeep_canonical (setF_canonical (ite_canonical
          (linkGoesDown_canonical hs) hs))))))
      · exact ite_canonical (setPhase_canonical (setF_canonical hs)) (ite_canonical (endUpkeep_canonical
          (ridgeUp_canonical (ite_canonical (linkGoesDown_canonical hs) hs))) (endUpkeep_canonical (setF_canonical
          (ite_canonical (linkGoesDown_canonical hs) hs))))
      · exact hs
  · exact hs

theorem writeRidgeCtrl_canonical {p v : Nat} : MemoriesCanonical (s.writeRidgeCtrl p v) :=
  ite_canonical (startUpkeep_canonical (ite_canonical (setF_canonical hs) (ite_canonical (ite_canonical
    (planDown_canonical (setF_canonical hs)) (setF_canonical (setF_canonical hs))) (ite_canonical (setF_canonical hs)
    (ite_canonical (setF_canonical (setF_canonical hs)) (setF_canonical hs)))))) (ite_canonical (setF_canonical hs)
    (ite_canonical (ite_canonical (planDown_canonical (setF_canonical hs)) (setF_canonical (setF_canonical hs)))
    (ite_canonical (setF_canonical hs) (ite_canonical (setF_canonical (setF_canonical hs)) (setF_canonical hs)))))

theorem setSlot_canonical {slot : Nat} {bs : List Byte} : MemoriesCanonical (s.setSlot slot bs) := update_canonical hs

theorem stageFails_canonical {slot : Nat} : MemoriesCanonical (s.stageFails slot) :=
  update_canonical (endUpkeep_canonical (log_canonical (setSlot_canonical hs)))

theorem stageManifest_canonical {env : Env} {same : Bool} : MemoriesCanonical (s.stageManifest env same) := by
  unfold stageManifest
  split
  · dsimp only
    split
    · exact ite_canonical hs (ite_canonical (endUpkeep_canonical hs) (sendMesh_canonical (update_canonical
        (setPhase_canonical (upset_canonical _ _ hs)))))
    · split
      · exact hs
      · exact ite_canonical (setPhase_canonical (setSlot_canonical hs)) (stageFails_canonical hs)
    · split
      · exact hs
      · exact ite_canonical (update_canonical (endUpkeep_canonical (setSlot_canonical hs))) (stageFails_canonical hs)
    · exact hs
  · exact hs

theorem commandRail_canonical {p mv : Nat} : MemoriesCanonical (s.commandRail p mv) :=
  update_canonical (driveRail_canonical hs)

theorem railDone_canonical {p : Nat} : MemoriesCanonical (s.railDone p) := update_canonical hs

theorem vfStep_canonical : MemoriesCanonical s.vfStep := by
  unfold vfStep
  dsimp only
  split
  · split
    · split
      · exact ite_canonical (endUpkeep_canonical hs) hs
      · exact hs
    · split
      · exact ite_canonical (ite_canonical (setPhase_canonical hs) (ite_canonical (commandRail_canonical
          (setPhase_canonical (setPhase_canonical hs))) (ite_canonical (commandRail_canonical (setPhase_canonical
          (setTclk_canonical (setPhase_canonical hs)))) (endUpkeep_canonical (setOpPoint_canonical (setTclk_canonical
          (setPhase_canonical hs))))))) hs
      · exact ite_canonical hs (ite_canonical (commandRail_canonical (setPhase_canonical hs)) (ite_canonical
          (commandRail_canonical (setPhase_canonical (setTclk_canonical hs))) (endUpkeep_canonical
          (setOpPoint_canonical (setTclk_canonical hs)))))
      · exact hs
  · exact hs

theorem railSettled_canonical {p : Nat} : MemoriesCanonical (s.railSettled p) := by
  unfold railSettled
  split
  · exact hs
  · dsimp only
    split
    · split
      · exact railDone_canonical (pollRail_canonical hs)
      · split
        · split
          · exact endUpkeep_canonical (setOpPoint_canonical (setTclk_canonical (railDone_canonical
              (pollRail_canonical hs))))
          · exact railDone_canonical (pollRail_canonical hs)
        · split
          · exact endUpkeep_canonical (setTclk_canonical (railDone_canonical (pollRail_canonical hs)))
          · exact endUpkeep_canonical (railDone_canonical (pollRail_canonical hs))
        · exact railDone_canonical (pollRail_canonical hs)
    · exact railDone_canonical (pollRail_canonical hs)

theorem railTimeout_canonical {p : Nat} : MemoriesCanonical (s.railTimeout p) := by
  unfold railTimeout
  split
  · split
    · exact hs
    · split
      · exact commandRail_canonical (setPhase_canonical hs)
      · exact warmStart_canonical hs
      · exact hs
  · exact hs

theorem quiesceTimeout_canonical : MemoriesCanonical s.quiesceTimeout := by
  unfold quiesceTimeout
  split
  · exact ite_canonical hs (endUpkeep_canonical hs)
  · exact hs

theorem pllUnlock_canonical {k : Nat} : MemoriesCanonical (s.pllUnlock k) :=
  ite_canonical hs (log_canonical (addF_canonical (setF_canonical (setF_canonical (update_canonical hs)))))

theorem pllRelock_canonical {k : Nat} : MemoriesCanonical (s.pllRelock k) :=
  ite_canonical (ite_canonical (wakeAll_canonical (drainHosts_canonical (setF_canonical (update_canonical hs))))
    (ite_canonical (foldEach_canonical (drainHosts_canonical (setF_canonical (update_canonical hs))) (fun _ _ h =>
    pumpAll_canonical h)) (drainHosts_canonical (setF_canonical (update_canonical hs))))) hs

theorem sampleTemps_canonical {r : Readings} : MemoriesCanonical (s.sampleTemps r) := by
  unfold sampleTemps
  extract_lets old _ s1 s2 s3 top s4 s5 s6 s7
  have h2 : MemoriesCanonical s2 :=
    foldEach_canonical (update_canonical hs) (fun _ _ h => update_canonical (setF_canonical h))
  have h3 : MemoriesCanonical s3 := foldEach_canonical h2 (fun _ _ h => onChannel_canonical (setF_canonical h))
  have h5 : MemoriesCanonical s5 :=
    updateAlert_canonical (peakF_canonical (setF_canonical (setF_canonical (setF_canonical h3))))
  have h6 : MemoriesCanonical s6 := foldEach_canonical h5 fun _ _ h =>
    have h := ite_canonical (raise_canonical h) h
    ite_canonical (raise_canonical h) h
  have h7 : MemoriesCanonical s7 := ite_canonical (addEvent_canonical h6) h6
  exact ite_canonical hs (ite_canonical (update_canonical stopModule_canonical) h7)

/-! ### Sweeps -/

theorem writeSweep_canonical {v : Nat} : MemoriesCanonical (s.writeSweep v) :=
  ite_canonical (update_canonical (ite_canonical (setF_canonical (setF_canonical hs)) (setF_canonical hs)))
    (ite_canonical (setF_canonical (setF_canonical hs)) (setF_canonical hs))

theorem endSweep_canonical : MemoriesCanonical s.endSweep :=
  runWaiting_canonical (resumeAll_canonical (setF_canonical (update_canonical hs)))

theorem skipSweep_canonical {p : Nat} : MemoriesCanonical (s.skipSweep p) :=
  endSweep_canonical (cper_canonical (log_canonical (setF_canonical (update_canonical hs))))

theorem onSweep_canonical {f : SweepWork → SweepWork} : MemoriesCanonical (s.onSweep f) := update_canonical hs

theorem wipePillar_canonical {n : Nat} : MemoriesCanonical (wipePillar n s) := by
  unfold wipePillar
  have ⟨h1, h2, h3, h4⟩ := hs
  exact ⟨SMap.wf_filter 0 _ h1, SMap.wf_filter 0 _ h2, h3, h4⟩

theorem saveTiles_canonical {ps ts : List Nat} : MemoriesCanonical (s.saveTiles ps ts) :=
  foldEach_canonical (foldEach_canonical hs (fun _ _ h => wipePillar_canonical h)) (fun _ _ h => foldEach_canonical h
    (fun _ _ h2 => writeLoc_canonical _ _ _ _ h2))

theorem restoreTiles_canonical {ps ts : List Nat} : MemoriesCanonical (s.restoreTiles ps ts) := by
  unfold restoreTiles
  dsimp only
  exact foldEach_canonical hs (fun _ _ h => foldEach_canonical (onTile_canonical h) (fun _ _ h2 => onTile_canonical
    (readLoc_canonical _ _ h2)))

theorem sweepLower_canonical {p : Nat} : MemoriesCanonical (s.sweepLower p) :=
  ite_canonical (skipSweep_canonical hs) (commandRail_canonical (onSweep_canonical (saveTiles_canonical hs)))

theorem sweepStart_canonical {why : SweepCause} {now : Nat} : MemoriesCanonical (s.sweepStart why now) := by
  unfold sweepStart
  split
  · exact ite_canonical (sweepLower_canonical hs) hs
  · split
    · exact hs
    · exact ite_canonical hs (ite_canonical (skipSweep_canonical (setF_canonical (setF_canonical (update_canonical
        hs)))) (setF_canonical (setF_canonical (update_canonical hs))))

theorem sweepDone_canonical {marginal : List (Nat × Bool)} : MemoriesCanonical (s.sweepDone marginal) := by
  unfold sweepDone
  split
  · exact hs
  · dsimp only
    split
    · exact onSweep_canonical (commandRail_canonical (foldEach_canonical hs (fun _ _ h3 => decideStrike_canonical
        (strike_canonical h3))))
    · exact ite_canonical (skipSweep_canonical (restoreTiles_canonical (foldEach_canonical hs (fun _ _ h3 =>
        decideStrike_canonical h3)))) (endSweep_canonical (restoreTiles_canonical (foldEach_canonical hs
        (fun _ _ h3 => decideStrike_canonical h3))))
    · exact hs

theorem sweepSettled_canonical {p : Nat} : MemoriesCanonical (s.sweepSettled p) := by
  unfold sweepSettled
  dsimp only
  split
  · exact onSweep_canonical (setFreq_canonical (railDone_canonical (pollRail_canonical hs)))
  · exact onSweep_canonical (setFreq_canonical (railDone_canonical (pollRail_canonical hs)))
  · exact railDone_canonical (pollRail_canonical hs)

theorem sweepRailFails_canonical {p : Nat} : MemoriesCanonical (s.sweepRailFails p) := by
  unfold sweepRailFails
  dsimp only
  split
  · exact onSweep_canonical (commandRail_canonical hs)
  · exact warmStart_canonical hs
  · exact hs

theorem vrSettled_canonical {p : Nat} : MemoriesCanonical (s.vrSettled p) :=
  ite_canonical (sweepSettled_canonical hs) (railSettled_canonical hs)

theorem vrFails_canonical {p : Nat} : MemoriesCanonical (s.vrFails p) :=
  ite_canonical (sweepRailFails_canonical hs) (railTimeout_canonical hs)

theorem execSweepQuiesceTimeout_canonical : NextCanonical (execSweepQuiesceTimeout s) := by
  unfold execSweepQuiesceTimeout
  refine next_canonical ?_
  split
  · exact ite_canonical hs (skipSweep_canonical hs)
  · exact hs

/-! ### BAR0 -/

theorem plainWrite_canonical {p : Page} {r : RegDesc} {a v : Nat} : MemoriesCanonical (s.plainWrite p r a v) :=
  setReg_canonical hs

theorem writePageCtrl_canonical {p : Page} {v : Nat} : MemoriesCanonical (s.writePageCtrl p v) := by
  unfold writePageCtrl
  dsimp only
  split
  · split
    · exact ite_canonical (setF_canonical (ite_canonical (setF_canonical (setF_canonical hs)) (setF_canonical hs)))
        (ite_canonical (setF_canonical (setF_canonical hs)) (setF_canonical hs))
    · exact ite_canonical (setF_canonical (setF_canonical hs)) (setF_canonical hs)
  · split
    · refine setF_canonical ?_
      split
      · exact ite_canonical (setF_canonical (ite_canonical (setF_canonical (setF_canonical hs)) (setF_canonical hs)))
          (ite_canonical (setF_canonical (setF_canonical hs)) (setF_canonical hs))
      · exact ite_canonical (setF_canonical (setF_canonical hs)) (setF_canonical hs)
    · refine resumeAll_canonical ?_
      refine setF_canonical ?_
      split
      · exact ite_canonical (setF_canonical (ite_canonical (setF_canonical (setF_canonical hs)) (setF_canonical hs)))
          (ite_canonical (setF_canonical (setF_canonical hs)) (setF_canonical hs))
      · exact ite_canonical (setF_canonical (setF_canonical hs)) (setF_canonical hs)

theorem writeErr_canonical {p : Page} {slot v : Nat} : MemoriesCanonical (s.writeErr p slot v) :=
  ite_canonical hs (ite_canonical (update_canonical (setReg_canonical hs)) (setReg_canonical hs))

theorem writeInject_canonical {p : Page} {v : Nat} : MemoriesCanonical (s.writeInject p v) := by
  unfold writeInject
  split
  · exact hs
  · split
    · exact logAs_canonical hs
    · exact hs

theorem writeOverride_canonical {v : Nat} : MemoriesCanonical (s.writeOverride v) :=
  ite_canonical (setReg_canonical hs) (walksEnded_canonical (raise_canonical (update_canonical (setReg_canonical
    (setReg_canonical (setReg_canonical hs))))))

theorem writeBase_canonical {p : Page} {r : RegDesc} {ctrl a v : Nat} :
    MemoriesCanonical (s.writeBase p r ctrl a v) :=
  ite_canonical hs (plainWrite_canonical hs)

theorem writeGlobal_canonical {r : RegDesc} {off v : Nat} : MemoriesCanonical (s.writeGlobal r off v) :=
  ite_canonical (writeReset_canonical hs) (plainWrite_canonical hs)

theorem writeTithe_canonical {r : RegDesc} {off v : Nat} : MemoriesCanonical (s.writeTithe r off v) :=
  ite_canonical (writeGranary_canonical hs) (ite_canonical (writeSweep_canonical hs) (ite_canonical
    (writeBase_canonical hs) (ite_canonical (writeRingCtrl_canonical (ite_canonical (setF_canonical hs) hs))
    (plainWrite_canonical hs))))

theorem writeDispatch_canonical {r : RegDesc} {off v : Nat} : MemoriesCanonical (s.writeDispatch r off v) :=
  ite_canonical (writeGangReset_canonical hs) (ite_canonical (writeBase_canonical hs) (ite_canonical
    (writeRingCtrl_canonical hs) (plainWrite_canonical hs)))

theorem writeTrace_canonical {r : RegDesc} {off v : Nat} : MemoriesCanonical (s.writeTrace r off v) :=
  ite_canonical (writeBase_canonical hs) (ite_canonical (writeRingCtrl_canonical (ite_canonical (setReg_canonical
    (setReg_canonical hs)) hs)) (plainWrite_canonical hs))

theorem writeHost_canonical {h : Nat} {r : RegDesc} {off v : Nat} : MemoriesCanonical (s.writeHost h r off v) :=
  ite_canonical (writeMsix_canonical hs) (ite_canonical (updatePanic_canonical (plainWrite_canonical hs))
    (plainWrite_canonical hs))

theorem writeRidge_canonical {p : Nat} {r : RegDesc} {off v : Nat} : MemoriesCanonical (s.writeRidge p r off v) :=
  ite_canonical (writeRidgeCtrl_canonical hs) (ite_canonical (writeOverride_canonical hs) (ite_canonical
    (ite_canonical (purgeNode_canonical hs) hs) (ite_canonical (updateRidgePanic_canonical (plainWrite_canonical hs))
    (plainWrite_canonical hs))))

theorem writeTally_canonical {p off v : Nat} : MemoriesCanonical (s.writeTally p off v) :=
  ite_canonical (writeTCfg_canonical hs) (ite_canonical (writeCCfg_canonical hs) (ite_canonical (onCrew_canonical hs)
    (ite_canonical (writeFlag_canonical hs) (ite_canonical (writeFlagOwner_canonical hs) hs))))

theorem writeBarn_canonical {c : Nat} {r : RegDesc} {off v : Nat} : MemoriesCanonical (s.writeBarn c r off v) :=
  ite_canonical (writeBarnCtrl_canonical hs) (ite_canonical (writeBankHash_canonical hs) (ite_canonical
    (writeTrain_canonical hs) (ite_canonical (updateDrain_canonical (plainWrite_canonical hs)) (plainWrite_canonical
    hs))))

theorem writeDoorbell_canonical {q off v : Nat} : MemoriesCanonical (s.writeDoorbell q off v) :=
  ite_canonical (writeQctrl_canonical hs) (ite_canonical (writeQbase_canonical hs) (ite_canonical
    (writeProd_canonical hs) (ite_canonical (writeCqHead_canonical hs) hs)))

theorem writeReg_canonical {p : Page} {r : RegDesc} {off v : Nat} : MemoriesCanonical (s.writeReg p r off v) := by
  unfold writeReg
  dsimp only
  split
  · exact writePageCtrl_canonical hs
  · split
    · exact writeErr_canonical hs
    · split
      · exact writeErr_canonical hs
      · split
        · exact writeInject_canonical hs
        · split
          · exact plainWrite_canonical hs
          · split
            · exact writeGlobal_canonical hs
            · exact ite_canonical (writeUpkeep_canonical hs) (plainWrite_canonical hs)
            · exact writeTithe_canonical hs
            · exact ite_canonical (writeFenceReq_canonical hs) (plainWrite_canonical hs)
            · exact writeDispatch_canonical hs
            · exact writeTrace_canonical hs
            · exact writeHost_canonical hs
            · exact writeRidge_canonical hs
            · exact ite_canonical (writeMode_canonical hs) (ite_canonical (writeGlean_canonical hs)
                (plainWrite_canonical hs))
            · exact writeTally_canonical hs
            · exact writeBarn_canonical hs
            · exact writeDoorbell_canonical hs
            · exact ite_canonical (writeTileCtrl_canonical hs) (plainWrite_canonical hs)
            · exact plainWrite_canonical hs
            · exact plainWrite_canonical hs

theorem writeMapped_canonical {h a w : Nat} {v : BitVec 64} {p : Page} {r : RegDesc} {start : Nat} :
    MemoriesCanonical (s.writeMapped h a w v p r start) :=
  ite_canonical (writeReg_canonical hs) (ite_canonical (writeReg_canonical hs) (ite_canonical (onHost_canonical hs)
    (writeReg_canonical (onHost_canonical hs))))

theorem bar0Write_canonical {h a w : Nat} {v : BitVec 64} : MemoriesCanonical (s.bar0Write h a w v) := by
  unfold bar0Write
  split
  · exact hs
  · dsimp only
    split
    · exact logAccess_canonical (logLost_canonical (clearLatches_canonical hs))
    · split
      · exact ite_canonical (logAccess_canonical (logLost_canonical (clearLatches_canonical hs))) (cxlWrite_canonical
          (logLost_canonical (clearLatches_canonical hs)))
      · split
        · exact logAccess_canonical (logLost_canonical (clearLatches_canonical hs))
        · split
          · exact logAccess_canonical (logLost_canonical (clearLatches_canonical hs))
          · exact ite_canonical (logAccess_canonical (logLost_canonical (onHost_canonical (clearLatches_canonical
              hs)))) (ite_canonical (writeMapped_canonical (logLost_canonical (clearLatches_canonical hs)))
              (logLost_canonical (writeMapped_canonical (clearLatches_canonical hs))))

theorem pageWrite_canonical {h : Nat} {p : Page} {off : Nat} {v : BitVec 32} :
    MemoriesCanonical (s.pageWrite h p off v) :=
  bar0Write_canonical hs

theorem countReplays_canonical {a : Nat} : MemoriesCanonical (s.countReplays a) := by
  unfold countReplays
  split
  · exact addF_canonical (update_canonical hs)
  · exact hs

theorem readMapped_canonical {h a w : Nat} {r : RegDesc} {at_ : Nat} {latch : Option (Nat × BitVec 32)} :
    MemoriesCanonical (s.readMapped h a w r at_ latch) := by
  unfold readMapped
  dsimp only
  split
  · split
    · exact emit_canonical (onHost_canonical (ite_canonical (update_canonical (countReplays_canonical hs))
        (countReplays_canonical hs)))
    · split <;> exact emit_canonical (ite_canonical (update_canonical (countReplays_canonical hs))
        (countReplays_canonical hs))
  · exact emit_canonical (ite_canonical (update_canonical (countReplays_canonical hs)) (countReplays_canonical hs))

theorem bar0Read_canonical {h a w : Nat} : MemoriesCanonical (s.bar0Read h a w) := by
  unfold bar0Read
  split
  · exact hs
  · split
    · exact emit_canonical hs
    · dsimp only
      split
      · exact emit_canonical (logAccess_canonical (logLost_canonical (clearLatches_canonical hs)))
      · split
        · exact cxlRead_canonical (logLost_canonical (clearLatches_canonical hs))
        · split
          · exact emit_canonical (logAccess_canonical (logLost_canonical (clearLatches_canonical hs)))
          · split
            · exact emit_canonical (logAccess_canonical (logLost_canonical (clearLatches_canonical hs)))
            · exact readMapped_canonical (logLost_canonical (clearLatches_canonical hs))

theorem writeRow_canonical {h : Nat} {ok : Bool} {p : Page} {off : Nat} {v : BitVec 32} {when_ : Bool} :
    NextCanonical (writeRow s h ok p off v when_) :=
  guardUnit_canonical (ite_canonical (pageWrite_canonical hs) hs)

theorem execUnmapped_canonical {h a : Nat} {write : Bool} : NextCanonical (execUnmapped h a write s) :=
  guardUnit_canonical (ite_canonical hs (ite_canonical (bar0Write_canonical hs) (bar0Read_canonical hs)))

theorem execAccessWidth_canonical {h a w : Nat} {write : Bool} : NextCanonical (execAccessWidth h a w write s) :=
  guardUnit_canonical (ite_canonical (ite_canonical hs (configRead_canonical hs)) (ite_canonical (bar0Read_canonical
    hs) (ite_canonical (bar0Write_canonical hs) hs)))

/-! ### Boot -/

theorem setStage_canonical {n : Nat} : MemoriesCanonical (s.setStage n) := update_canonical (setF_canonical hs)
theorem startBoot_canonical {k : BootKind} : MemoriesCanonical (s.startBoot k) := update_canonical hs

theorem stopBoot_canonical {state : Nat} : MemoriesCanonical (s.stopBoot state) :=
  updateAlert_canonical (update_canonical (foldEach_canonical (setF_canonical hs) (fun _ _ h => ite_canonical
    (setF_canonical h) h)))

theorem senseFuses_canonical {new : Fuses} : MemoriesCanonical (s.senseFuses new) :=
  ite_canonical (update_canonical (setStage_canonical (extend_canonical (setFreq_canonical (update_canonical hs)))))
    (setStage_canonical (extend_canonical (setFreq_canonical (update_canonical hs))))

theorem startLinks_canonical : MemoriesCanonical s.startLinks :=
  ite_canonical (setStage_canonical (update_canonical (setReg_canonical (setReg_canonical (setFreq_canonical
    (extend_canonical hs)))))) (update_canonical (setReg_canonical (setReg_canonical (setFreq_canonical
    (extend_canonical hs)))))

theorem readManifest_canonical : MemoriesCanonical s.readManifest := by
  unfold readManifest
  refine setStage_canonical ?_
  refine update_canonical ?_
  split
  · exact update_canonical hs
  · exact measureManifest_canonical (update_canonical hs)

theorem verifyManifest_canonical : MemoriesCanonical s.verifyManifest := by
  unfold verifyManifest
  split
  · exact stopBoot_canonical hs
  · exact ite_canonical (setStage_canonical (setReg_canonical (setF_canonical hs))) (ite_canonical
      (stopBoot_canonical (update_canonical hs)) (setStage_canonical (update_canonical hs)))

theorem applyFail_canonical : MemoriesCanonical s.applyFail :=
  ite_canonical (setStage_canonical (setF_canonical (update_canonical (log_canonical hs)))) (stopBoot_canonical
    (log_canonical hs))

theorem applyEntry_canonical {e : WriteEntry} : MemoriesCanonical (applyEntry e s) := by
  unfold applyEntry
  split
  · exact hs
  · exact writeReg_canonical hs

theorem applyList_canonical {es : List WriteEntry} : MemoriesCanonical (s.applyList es).2 := by
  induction es generalizing s with
  | nil => exact hs
  | cons e es ih =>
    unfold applyList
    dsimp only
    split
    · split
      · exact ih hs
      · exact hs
    · exact ih (update_canonical (applyEntry_canonical hs))

theorem applyEntries_canonical : MemoriesCanonical s.applyEntries.2 := applyList_canonical hs

theorem buildMap_canonical : MemoriesCanonical s.buildMap :=
  ite_canonical (update_canonical hs) (bumpGen_canonical (update_canonical hs))

theorem commandBoot_canonical : MemoriesCanonical s.commandBoot := by
  unfold commandBoot
  dsimp only
  split
  · exact update_canonical hs
  · refine foldEach_canonical (update_canonical hs) (fun _ _ h2 => ?_)
    split
    · exact commandRail_canonical h2
    · exact h2

theorem lockTclk_canonical {p : Nat} : MemoriesCanonical (lockTclk p s) := by
  unfold lockTclk
  split
  · exact bootPoint_canonical hs
  · exact setFreq_canonical (update_canonical hs)

theorem lockClocks_canonical : MemoriesCanonical s.lockClocks :=
  foldEach_canonical (ite_canonical (setFreq_canonical (foldEach_canonical (foldEach_canonical (foldEach_canonical hs
    (fun _ _ h => lockTclk_canonical h)) (fun _ _ h => setFreq_canonical h)) (fun _ _ h => setFreq_canonical h)))
    (foldEach_canonical (foldEach_canonical (foldEach_canonical hs (fun _ _ h => lockTclk_canonical h)) (fun _ _ h =>
    setFreq_canonical h)) (fun _ _ h => setFreq_canonical h))) (fun _ _ h => ite_canonical h (setF_canonical h))

theorem applyStage_canonical : MemoriesCanonical s.applyStage := by
  have hd : MemoriesCanonical (if s.st.commanded then (true, s) else s.applyEntries).2 := by
    split
    · exact hs
    · exact applyEntries_canonical hs
  unfold applyStage
  generalize (if s.st.commanded then (true, s) else s.applyEntries) = r at hd ⊢
  obtain ⟨done, s1⟩ := r
  have hb : MemoriesCanonical (if s1.st.commanded then s1 else s1.buildMap.commandBoot) :=
    ite_canonical hd (commandBoot_canonical (buildMap_canonical hd))
  exact ite_canonical hd (ite_canonical hb (setStage_canonical (update_canonical (lockClocks_canonical hb))))

theorem trainChannel_canonical {c : Nat} {bad : Bool} : MemoriesCanonical (s.trainChannel c bad) :=
  ite_canonical (ite_canonical hs (wakeChannel_canonical hs)) (ite_canonical (log_canonical (onChannel_canonical hs))
    (onChannel_canonical hs))

theorem barnStage_canonical {failed : List Nat} : MemoriesCanonical (s.barnStage failed) := by
  have hb : ∀ s : State, MemoriesCanonical s →
      MemoriesCanonical (if s.fullBoot then { s with barnData := [], barnCheck := [] } else s) := by
    intro s h
    have ⟨hd, hc, _, _⟩ := h
    exact ite_canonical ⟨hd, hc, SMap.wf_nil 0, SMap.wf_nil 0⟩ h
  have ha := applyEntries_canonical hs
  exact ite_canonical ha (setStage_canonical (hb _ (foldEach_canonical ha (fun _ _ h => trainChannel_canonical h))))

theorem pillarStage_canonical : MemoriesCanonical s.pillarStage := by
  have ha := applyEntries_canonical hs
  unfold pillarStage
  generalize s.applyEntries = r at ha ⊢
  obtain ⟨done, s1⟩ := r
  obtain ⟨h1, h2, h3, h4⟩ := ha
  have he : MemoriesCanonical { s1 with fieldData := [], fieldCheck := [] } := ⟨SMap.wf_nil 0, SMap.wf_nil 0, h3, h4⟩
  exact ite_canonical ⟨h1, h2, h3, h4⟩ (setStage_canonical he)

theorem fieldStage_canonical : MemoriesCanonical s.fieldStage :=
  ite_canonical (setStage_canonical (update_canonical (foldEach_canonical hs (fun _ _ h => setF_canonical
    (setF_canonical (setF_canonical h)))))) (update_canonical (setF_canonical (setStage_canonical (update_canonical
    (foldEach_canonical hs (fun _ _ h => setF_canonical (setF_canonical (setF_canonical h))))))))

theorem walkStage_canonical : MemoriesCanonical s.walkStage :=
  ite_canonical (walksEnded_canonical hs) (foldEach_canonical hs (fun _ _ h => ite_canonical h (beginWalk_canonical
    h)))

theorem powerRise_canonical {x : Straps} : MemoriesCanonical (s.powerRise x) :=
  ite_canonical hs (ite_canonical (update_canonical fullReset_canonical) (startBoot_canonical (update_canonical
    fullReset_canonical)))

theorem powerFall_canonical : MemoriesCanonical s.powerFall := ite_canonical hs (update_canonical fullReset_canonical)

theorem perst0Rise_canonical : MemoriesCanonical s.perst0Rise :=
  ite_canonical (update_canonical hs) (fullReset_canonical)

theorem perst0Fall_canonical {x : Straps} : MemoriesCanonical (s.perst0Fall x) :=
  ite_canonical hs (ite_canonical (update_canonical hs) (ite_canonical (update_canonical (update_canonical hs))
    (startBoot_canonical (update_canonical (update_canonical hs)))))

theorem perst1Fall_canonical : MemoriesCanonical s.perst1Fall :=
  ite_canonical hs (ite_canonical (setReg_canonical (update_canonical hs)) (update_canonical hs))

theorem execVrSettleTimeout_canonical {p : Nat} : NextCanonical (execVrSettleTimeout p s) :=
  guardUnit_canonical (ite_canonical (applyFail_canonical (railDone_canonical (pollRail_canonical hs)))
    (vrFails_canonical hs))

/-! ### SPDM -/

theorem onSpdm_canonical {tr : Transport} {f : Spdm → Spdm} : MemoriesCanonical (s.onSpdm tr f) := by
  unfold onSpdm
  split <;> exact update_canonical hs

theorem spdmSend_canonical {tr : Transport} {resp : List Byte} : MemoriesCanonical (s.spdmSend tr resp) :=
  emit_canonical hs

theorem spdmSettle_canonical {tr : Transport} {req resp : List Byte} : MemoriesCanonical (s.spdmSettle tr req resp) :=
  spdmSend_canonical (onSpdm_canonical hs)

theorem spdmCert_canonical {tr : Transport} {req resp : List Byte} : MemoriesCanonical (s.spdmCert tr req resp) :=
  spdmSend_canonical (onSpdm_canonical hs)

theorem spdmSign_canonical {context : String} {transcript : List Byte} :
    MemoriesCanonical (s.spdmSign context transcript).2 :=
  update_canonical hs

theorem spdmError_canonical {tr : Transport} {code data : Nat} : MemoriesCanonical (s.spdmError tr code data) :=
  emit_canonical hs

theorem identityRequest_canonical {tr : Transport} {f : State → State} (hf : ∀ s, MemoriesCanonical s →
    MemoriesCanonical (f s)) :
    MemoriesCanonical (s.identityRequest tr f) :=
  ite_canonical hs (ite_canonical (spdmError_canonical hs) (ite_canonical (spdmError_canonical hs) (hf _ hs)))

theorem spdmVersion_canonical {tr : Transport} : MemoriesCanonical (s.spdmVersion tr) :=
  ite_canonical hs (spdmSettle_canonical (onSpdm_canonical hs))

theorem spdmCapabilities_canonical {tr : Transport} {payload : List Byte} :
    MemoriesCanonical (s.spdmCapabilities tr payload) := by
  unfold spdmCapabilities
  dsimp only
  exact ite_canonical hs (ite_canonical (spdmError_canonical hs) (ite_canonical (spdmError_canonical hs)
    (spdmSettle_canonical (onSpdm_canonical (freeBytes_canonical hs)))))

theorem spdmAlgorithms_canonical {tr : Transport} {payload : List Byte} :
    MemoriesCanonical (s.spdmAlgorithms tr payload) :=
  ite_canonical hs (ite_canonical (spdmError_canonical hs) (ite_canonical (spdmError_canonical hs)
    (spdmSettle_canonical (onSpdm_canonical hs))))

theorem spdmDigests_canonical {tr : Transport} : MemoriesCanonical (s.spdmDigests tr) :=
  identityRequest_canonical hs (fun _ h => spdmCert_canonical h)

theorem spdmCertificate_canonical {tr : Transport} {slot off len : Nat} :
    MemoriesCanonical (s.spdmCertificate tr slot off len) :=
  identityRequest_canonical hs (fun _ h => ite_canonical (spdmError_canonical h) (spdmCert_canonical h))

theorem spdmChallenge_canonical {tr : Transport} {slot summary : Nat} {nonce : BitVec 256} :
    MemoriesCanonical (s.spdmChallenge tr slot summary nonce) := by
  unfold spdmChallenge
  dsimp only
  exact identityRequest_canonical hs (fun _ h => ite_canonical (spdmError_canonical h) (ite_canonical
    (spdmError_canonical h) (spdmSend_canonical (onSpdm_canonical (spdmSign_canonical (freeBytes_canonical
    (freeBytes_canonical (freeBytes_canonical h))))))))

theorem spdmMeasurements_canonical {tr : Transport} {signed : Bool} {index slot : Nat} {nonce : BitVec 256} :
    MemoriesCanonical (s.spdmMeasurements tr signed index slot nonce) := by
  unfold spdmMeasurements
  dsimp only
  exact identityRequest_canonical hs (fun _ h => ite_canonical (spdmError_canonical h) (ite_canonical
    (spdmError_canonical h) (ite_canonical (spdmSend_canonical (onSpdm_canonical (spdmSign_canonical
    (freeBytes_canonical (freeBytes_canonical h))))) (spdmSend_canonical (onSpdm_canonical (freeBytes_canonical
    (freeBytes_canonical h)))))))

theorem spdmOther_canonical {tr : Transport} {code : Nat} : MemoriesCanonical (s.spdmOther tr code) :=
  ite_canonical hs (spdmError_canonical hs)

theorem setTap_canonical {i : TapIr} : MemoriesCanonical (s.setTap i) := update_canonical hs

theorem shiftNonce_canonical : MemoriesCanonical s.shiftNonce :=
  emit_canonical (update_canonical (update_canonical (setTap_canonical hs)))

theorem unlockPort_canonical {t : List Byte} : MemoriesCanonical (s.unlockPort t) :=
  ite_canonical (setTap_canonical hs) (ite_canonical (update_canonical (extend_canonical (setF_canonical
    (update_canonical (setTap_canonical hs))))) (addF_canonical (update_canonical (setTap_canonical hs))))

theorem tapStop_canonical {i : TapIr} : MemoriesCanonical (s.tapStop i) :=
  update_canonical (ite_canonical (warmStart_canonical (setTap_canonical hs)) (setTap_canonical hs))

theorem tapReset_canonical : MemoriesCanonical s.tapReset :=
  ite_canonical (update_canonical (setTap_canonical hs)) (ite_canonical (startBoot_canonical (update_canonical
    (update_canonical (setTap_canonical hs)))) (update_canonical (update_canonical (setTap_canonical hs))))

theorem tapRow_canonical {f : State → State} (hf : ∀ s, MemoriesCanonical s → MemoriesCanonical (f s)) :
    NextCanonical (tapRow s f) :=
  next_canonical (ite_canonical (hf _ hs) hs)

theorem execSamplePreload_canonical {preload : List Bool} : NextCanonical (execSamplePreload preload s) :=
  tapRow_canonical hs (fun _ h => emit_canonical (update_canonical (update_canonical (setTap_canonical h))))


/-! ### Every command -/

/-- Every command that answers a next state leaves the memories in canonical form. -/
theorem exec_canonical (i : Instr) : NextCanonical (exec i s) := by
  cases i with
  | add | sub | andR | orR | xorR | sll | srl | sra | slt | sltu | min | max | minu | maxu | mul | mulh | mulhu
  | clz | popc | addi | andi | ori | xori | slti | sltiu | slli | srli | srai | lui => exact aluRow_canonical hs
  | ldw | ldh | ldhu | ldb | ldbu => exact loadRow_canonical hs
  | stw | sth | stb => exact storeRow_canonical hs
  | beq | bne | blt | bltu => exact branchRow_canonical hs
  | bge => exact execBge_canonical hs
  | bgeu => exact execBgeu_canonical hs
  | j | jal | jalr => exact yilac_canonical hs (fun _ _ h => jumpTo_canonical h)
  | loop => exact execLoop_canonical hs
  | mfts => exact execMfts_canonical hs
  | mtts => exact execMtts_canonical hs
  | enq => exact execEnq_canonical hs
  | enqStallEnd => exact execEnqStallEnd_canonical hs
  | waitq => exact execWaitq_canonical hs
  | waitqSatisfied => exact execWaitqSatisfied_canonical hs
  | commit => exact execCommit_canonical hs
  | halt => exact execHalt_canonical hs
  | faultI => exact yilac_canonical hs (fun _ _ h => coreFault_canonical h)
  | trace => exact yilac_canonical hs (fun _ _ h => ite_canonical h (retire_canonical (trace_canonical h)))
  | illegalInstr => exact execIllegalInstr_canonical hs
  | entryStart => exact execEntryStart_canonical hs
  | entryComplete => exact execEntryComplete_canonical hs
  | pillarStreamRead => exact execPillarStreamRead_canonical hs
  | streamMm => exact engineRow_canonical hs (fun _ _ _ h => streamCheck_canonical (runStreamMm_canonical h))
  | blockMm => exact execBlockMm_canonical hs
  | ew => exact execEw_canonical hs
  | scan => exact execScan_canonical hs
  | reduce => exact execReduce_canonical hs
  | convert => exact execConvert_canonical hs
  | attn => exact engineRow_canonical hs (fun _ _ _ h => streamCheck_canonical (runAttn_canonical h))
  | smMerge => exact execSmMerge_canonical hs
  | smFinal => exact execSmFinal_canonical hs
  | copy | permute => exact engineRow_canonical hs (fun _ _ _ h => runCopy_canonical h)
  | gather | scatter => exact engineRow_canonical hs (fun _ _ _ h => runCart_canonical h)
  | arrive | waitTally | flagWait => exact engineRow_canonical hs (fun _ _ _ h => syncRow_canonical h)
  | flagAdd => exact execFlagAdd_canonical hs
  | syncTimeout => exact execSyncTimeout_canonical hs
  | gateRelease => exact execGateRelease_canonical hs
  | gateAbort => exact guardUnit_canonical (inClock_canonical hs (ite_canonical hs (gateAbort_canonical hs)))
  | remoteWriteStage => exact execRemoteWriteStage_canonical hs
  | stageRoomFree => exact execStageRoomFree_canonical hs
  | stageFull => exact execStageFull_canonical hs
  | stageCommit | stageAbort => exact guardUnit_canonical (inClock_canonical hs (commitRow_canonical hs))
  | stageAck =>
    exact guardUnit_canonical (inClock_canonical hs (ite_canonical (gateAck_canonical (onTile_canonical hs)) hs))
  | doorbellWrite | cqHeadWrite | queueEnable | queueDisable | queueReset | gangReset | flogEnable | traceEnable
  | traceRestart | tileReset | modeSelect | msixUnmask | tallyBind | tallyUnbind | flagOwnerWrite
  | granarySnapshotRequest | cperEnable | fenceRequest | sweepRequest | bankhashWrite | upkeepInvalidOp
  | upkeepBusy | warmReset | paddockReset | resetBusy | ridgeOverride | stagePurge | ridgePortDisable
  | ridgePortEnable => exact writeRow_canonical hs
  | sheafTake => exact execSheafTake_canonical hs
  | sheafComplete => exact guardUnit_canonical (inClock_canonical hs (sheafEnd_canonical hs))
  | traceRecord => exact next_canonical (takeTrace_canonical hs)
  | modeSwitchDone => exact guardUnit_canonical (inClock_canonical hs (switchMode_canonical hs))
  | slotAdmit => exact guardUnit_canonical (inClock_canonical hs (admitNext_canonical hs))
  | pillarAccessDone => exact guardUnit_canonical (inClock_canonical hs (accessDone_canonical hs))
  | refreshDue => exact guardUnit_canonical (inField_canonical hs (refreshDue_canonical hs))
  | forcedRefresh => exact guardUnit_canonical (inField_canonical hs (forceRefresh_canonical hs))
  | gleanVisit => exact guardUnit_canonical (inField_canonical hs (ite_canonical (glean_canonical hs) hs))
  | gleanEscalate => exact guardUnit_canonical (inField_canonical hs (ite_canonical (onPillar_canonical hs) hs))
  | beatCounterWrap => exact guardUnit_canonical (inClock_canonical hs (setF_canonical (onPillar_canonical hs)))
  | cycleCounterWrap => exact guardUnit_canonical (inClock_canonical hs (onTile_canonical hs))
  | tempSample => exact next_canonical (sampleTemps_canonical hs)
  | memRd | memRdData | memWr | memWrPtl => exact headRow_canonical hs (fun _ h => memRequest_canonical h)
  | memSpecRd | memInv | memInvNt | memClnEvct | cxlProto => exact memOtherRow_canonical hs
  | hostMemResponse => exact headRow_canonical hs (fun _ h => memRespond_canonical h)
  | hostRequestAge => exact execHostRequestAge_canonical hs
  | hdmCommit =>
    exact guardUnit_canonical (ite_canonical (bar0Row_canonical hs (fun _ h => hdmCommit_canonical h)) hs)
  | hostLinkUp => exact guardUnit_canonical (ite_canonical (linkUp_canonical hs) hs)
  | hostPortReset => exact guardUnit_canonical (portReset_canonical hs)
  | flr => exact headRow_canonical hs (fun _ h => flr_canonical h)
  | getEventRecords => exact mailRow_canonical hs (fun _ h => getEvents_canonical h)
  | clearEventRecords => exact mailRow_canonical hs (fun _ h => clearEvents_canonical h)
  | getEventInterruptPolicy | getSupportedLogs | getPartitionInfo =>
    exact mailRow_canonical hs (fun _ h => mailboxDone_canonical h)
  | setEventInterruptPolicy => exact mailRow_canonical hs (fun _ h => setPolicy_canonical h)
  | getLog => exact mailRow_canonical hs (fun _ h => getLog_canonical h)
  | identifyMemoryDevice => exact execIdentifyMemoryDevice_canonical hs
  | getHealthInfo => exact execGetHealthInfo_canonical hs
  | getAlertConfiguration => exact execGetAlertConfiguration_canonical hs
  | setAlertConfiguration =>
    exact mailRow_canonical hs
      (fun _ h => ite_canonical (mailboxDone_canonical h) (mailboxDone_canonical (update_canonical h)))
  | injectPoison => exact mailRow_canonical hs (fun _ h => poisonAt_canonical h)
  | clearPoison => exact mailRow_canonical hs (fun _ h => unpoisonAt_canonical h)
  | mailboxUnsupported => exact mailRow_canonical hs (fun _ h => ite_canonical h (mailboxDone_canonical h))
  | doeDiscovery => exact headRow_canonical hs (fun _ h => doeFind_canonical h)
  | tableAccess => exact headRow_canonical hs (fun _ h => tableRead_canonical h)
  | getVersion => exact next_canonical (spdmVersion_canonical hs)
  | getCapabilities => exact next_canonical (spdmCapabilities_canonical hs)
  | negotiateAlgorithms => exact next_canonical (spdmAlgorithms_canonical hs)
  | getDigests => exact next_canonical (spdmDigests_canonical hs)
  | getCertificate => exact next_canonical (spdmCertificate_canonical hs)
  | challenge => exact next_canonical (spdmChallenge_canonical hs)
  | getMeasurements => exact next_canonical (spdmMeasurements_canonical hs)
  | spdmUnsupported => exact next_canonical (spdmOther_canonical hs)
  | crewTallyBind | quiesceRequest | errClear | errInject | counterClear =>
    exact guardUnit_canonical (ite_canonical (bar0Write_canonical hs) hs)
  | tallyArrival => exact execTallyArrival_canonical hs
  | tallyRelease => exact execTallyRelease_canonical hs
  | tallyWithdrawal => exact execTallyWithdrawal_canonical hs
  | flagUpdate => exact execFlagUpdate_canonical hs
  | flagWrite => exact guardUnit_canonical (bar0Write_canonical hs)
  | titheGrant => exact guardUnit_canonical (inClock_canonical hs (grant_canonical hs))
  | holdSend => exact guardUnit_canonical (inClock_canonical hs (holdSend_canonical hs))
  | titheRunStart => exact guardUnit_canonical (inClock_canonical hs (runStart_canonical hs))
  | titheRunEnd => exact guardUnit_canonical (inClock_canonical hs (runEnd_canonical (upset_canonical _ _ hs)))
  | refereeGrant => exact guardUnit_canonical (inClock_canonical hs (refereeGrant_canonical (upset_canonical _ _ hs)))
  | stepReplay => exact guardUnit_canonical (inClock_canonical hs (replayStep_canonical (upset_canonical _ _ hs)))
  | titheStall => exact guardUnit_canonical (stall_canonical hs)
  | restore => exact writeRow_canonical (ite_canonical (upset_canonical _ _ hs) hs)
  | fenceRemap => exact next_canonical (fenceStep_canonical (upset_canonical _ _ hs))
  | sweepStart => exact next_canonical (sweepStart_canonical hs)
  | sweepDone => exact guardUnit_canonical (sweepDone_canonical hs)
  | barnRequestAccept =>
    exact guardUnit_canonical (inBarn_canonical hs (ite_canonical (acceptNext_canonical (upset_canonical _ _ hs)) hs)
      )
  | barnReadDone => exact guardUnit_canonical (inBarn_canonical hs (readDone_canonical hs))
  | barnMergeReadDone => exact guardUnit_canonical (inBarn_canonical hs (mergeDone_canonical hs))
  | barnWriteDrain => exact guardUnit_canonical (inBarn_canonical hs (writeDrain_canonical (upset_canonical _ _ hs)))
  | barnRefreshDue => exact guardUnit_canonical (inBarn_canonical hs (barnRefresh_canonical hs))
  | barnForcedRefresh => exact guardUnit_canonical (inBarn_canonical hs (barnForce_canonical hs))
  | selfRefreshEntry => exact guardUnit_canonical (inBarn_canonical hs (enterSelfRefresh_canonical hs))
  | selfRefreshExit => exact guardUnit_canonical (inBarn_canonical hs (exitSelfRefresh_canonical hs))
  | barnScrub => exact guardUnit_canonical (inBarn_canonical hs (scrubOne_canonical hs))
  | corrWindowEnd => exact guardUnit_canonical (inBarn_canonical hs (onChannel_canonical hs))
  | paddockRecal => exact next_canonical (recal_canonical hs)
  | tileSwap => exact next_canonical (swapStep_canonical (upset_canonical _ _ hs))
  | barnRetrain => exact guardUnit_canonical (inClock_canonical hs (retrainStep_canonical hs))
  | ridgeRetrain => exact guardUnit_canonical (inClock_canonical hs (ridgeRetrainStep_canonical hs))
  | manifestStage => exact next_canonical (stageManifest_canonical hs)
  | vfSet => exact next_canonical (vfStep_canonical hs)
  | upkeepDone => exact next_canonical (reportUpkeep_canonical hs)
  | upkeepQuiesceTimeout => exact next_canonical (quiesceTimeout_canonical hs)
  | vrSettleTimeout => exact execVrSettleTimeout_canonical hs
  | vrSettled => exact guardUnit_canonical (vrSettled_canonical hs)
  | pllUnlock => exact guardUnit_canonical (pllUnlock_canonical hs)
  | pllRelock => exact guardUnit_canonical (pllRelock_canonical hs)
  | pllRelockTimeout => exact guardUnit_canonical (ite_canonical (warmStart_canonical hs) hs)
  | pwrOkRise => exact next_canonical (powerRise_canonical hs)
  | pwrOkFall => exact next_canonical (powerFall_canonical hs)
  | perst0Assert => exact next_canonical (ite_canonical hs (perst0Rise_canonical hs))
  | perst0Deassert => exact next_canonical (perst0Fall_canonical hs)
  | bootFuseSense => exact next_canonical (ite_canonical (senseFuses_canonical hs) hs)
  | bootLinkStart => exact next_canonical (ite_canonical (startLinks_canonical hs) hs)
  | bootSlotHeaders => exact next_canonical (ite_canonical (setStage_canonical (update_canonical hs)) hs)
  | bootManifestRead => exact next_canonical (ite_canonical (readManifest_canonical hs) hs)
  | bootManifestVerify => exact next_canonical (ite_canonical (verifyManifest_canonical hs) hs)
  | bootApply => exact next_canonical (ite_canonical (applyStage_canonical hs) hs)
  | manifestWaitTimeout => exact next_canonical (ite_canonical (applyFail_canonical hs) hs)
  | bootBarnTrain => exact next_canonical (ite_canonical (barnStage_canonical hs) hs)
  | bootBarnActive =>
    exact next_canonical (ite_canonical (ite_canonical (setF_canonical (update_canonical hs)) (update_canonical hs)) hs
      )
  | bootPillarCal => exact next_canonical (ite_canonical (pillarStage_canonical hs) hs)
  | bootFieldReady => exact next_canonical (ite_canonical (fieldStage_canonical hs) hs)
  | furrowWalkStart => exact next_canonical (ite_canonical (walkStage_canonical hs) hs)
  | walkTimeout => exact next_canonical (ite_canonical (walkTimeout_canonical hs) hs)
  | unlockNonce => exact tapRow_canonical hs (fun _ h => shiftNonce_canonical h)
  | unlock => exact tapRow_canonical hs (fun _ h => unlockPort_canonical h)
  | extest | clamp | highz => exact tapRow_canonical hs (fun _ h => tapStop_canonical h)
  | bypass => exact tapRow_canonical hs (fun _ h => emit_canonical (update_canonical h))
  | idcode => exact tapRow_canonical hs (fun _ h => emit_canonical (setTap_canonical h))
  | samplePreload => exact execSamplePreload_canonical hs
  | tapReset => exact tapRow_canonical hs (fun _ h => tapReset_canonical h)
  | ridgeLinkUp => exact ridgeRow_canonical hs (fun _ h => ridgeUp_canonical h)
  | dataFlitReceive => exact ridgeRow_canonical hs (fun _ h => flitReceive_canonical h)
  | nakReceive => exact ridgeRow_canonical hs (fun _ h => nakReceive_canonical h)
  | ackReceive => exact ridgeRow_canonical hs (fun _ h => ackReceive_canonical h)
  | creditReturn => exact ridgeRow_canonical hs (fun _ h => creditReturn_canonical h)
  | idleFlitTimer => exact execIdleFlitTimer_canonical hs
  | ackTimer => exact execAckTimer_canonical hs
  | nakRepeat => exact execNakRepeat_canonical hs
  | linkDown => exact execLinkDown_canonical hs
  | rxseqTimeout => exact execRxseqTimeout_canonical hs
  | rwr => exact execRwr_canonical hs
  | rrd => exact execRrd_canonical hs
  | rrsp => exact execRrsp_canonical hs
  | wack => exact execWack_canonical hs
  | ridgeCommit | ridgeAbort =>
    exact nodeRow_canonical hs (fun _ _ h => forall_mem_some (takeRemoteCommit_canonical h))
  | cack => exact execCack_canonical hs
  | tarrive | trelease | twithdraw | tlost =>
    exact nodeRow_canonical hs (fun _ _ h => forall_mem_some (takeCrew_canonical h))
  | flagadd => exact execFlagadd_canonical hs
  | lhello => exact packetRow_canonical hs (fun _ _ h => forall_mem_some (takeHello_canonical h))
  | furrow => exact packetRow_canonical hs (fun _ _ h => forall_mem_some (takeFurrow_canonical h))
  | furrowend => exact execFurrowend_canonical hs
  | ringinfo => exact execRinginfo_canonical hs
  | linkdownPkt => exact packetRow_canonical hs (fun _ _ h => forall_mem_some (takeLinkdown_canonical h))
  | sealPkt => exact execSealPkt_canonical hs
  | packetBad => exact execPacketBad_canonical hs
  | ridgeTimeout => exact guardUnit_canonical (inClock_canonical hs (replyTimeout_canonical hs))
  | unmapped => exact execUnmapped_canonical hs
  | accessWidth => exact execAccessWidth_canonical hs
  | registerWrite => exact guardUnit_canonical (ite_canonical (configWrite_canonical hs) (bar0Write_canonical hs))
  | perst1Deassert => exact next_canonical (perst1Fall_canonical hs)
  | sweepQuiesceTimeout => exact execSweepQuiesceTimeout_canonical hs
  | dynamicAddressAssignment => exact next_canonical (ite_canonical (update_canonical hs) hs)

end Sys2Proof.Machine.State

namespace Sys2Proof.Machine

/-- Settles O35: a step is `exec` of the command in front, run with the rest of the queue. -/
theorem stepsKeepTheMemoriesCanonical : Obligations.StepsKeepTheMemoriesCanonical := by
  intro s s' hs e
  unfold step at e
  split at e
  next => exact Host.Outcome.next.inj e ▸ hs
  next c rest _ => exact State.exec_canonical (s := { s with pending := rest }) hs c s' e

end Sys2Proof.Machine

/-! ## Paddock modes, pillar queues and admitted accesses (R72, R75 to R79) -/

namespace Sys2Proof.Machine

variable {s : State}

/-! ### A write of PADDOCK.MODE -/

/-- The page of a paddock is found at its offsets. -/
theorem pageAt_paddock {p off : Nat} (hp : p < 16) (ho : off < 0x1000) :
    pageAt ((Page.paddock p).base + off) = some (.paddock p) := by
  have hn : ((Page.paddock p).base + off) / 0x1000 = 0x50 + p := by
    simp only [Page.base]
    omega
  unfold pageAt
  dsimp only
  rw [hn]
  repeat rw [if_neg (by omega)]
  rw [if_pos (by omega), Nat.add_sub_cancel_left]

theorem regAt_paddock_mode (p : Nat) : ∃ r, regAt (.paddock p) 0x40 = some (r, 0x40) ∧ r.width = 32 :=
  ⟨⟨0x040, 4, 1, 32, 0x0, [⟨0, 1, .rw⟩]⟩, rfl, rfl⟩

/-- MODE_SELECT at a head that answers writes MODE of the paddock. -/
theorem exec_modeSelect {h p : Nat} (v : BitVec 32) (hp : p < 16) (hb : BarReady s h (.paddock p)) :
    exec (.modeSelect h p v) s = .next (s.writeMode p v.toNat) := by
  have hh := hb.head
  obtain ⟨r, hr, hw⟩ := regAt_paddock_mode p
  have hx : isCxlRange ((Page.paddock p).base + 0x40) = false := by
    have hbase : (Page.paddock p).base = 0x50000 + p * 0x1000 := rfl
    unfold isCxlRange
    rw [hbase, Bool.and_eq_false_iff, decide_eq_false_iff_not, decide_eq_false_iff_not]
    omega
  have hm : s.pageWrite h (.paddock p) 0x40 v = s.writeMode p v.toNat :=
    pageWrite_eq_writeReg v hb (pageAt_paddock hp (by omega)) hr hw (by simp only [Page.base]; omega) hx (by simp)
  change guardUnit (isHead h && isPaddock p) (s.pageWrite h (.paddock p) 0x40 v) = _
  have hok : (isHead h && isPaddock p) = true := by simp [isHead, isPaddock, hh, hp]
  rw [hm]
  exact guardUnit_true _ _ hok

/-- MODE.SEL of a paddock in use keeps its value (R75). -/
theorem writeMode_logs {p : Nat} (v : Nat)
    (h : ∃ g ∈ s.gangs, g.2.live = true ∧ ∃ t ∈ s.gangTiles g.1, paddockOf t = p) :
    Logs s (s.writeMode p v) (.paddock p) .modeBusy := by
  have ha : (s.gangs.any fun g => g.2.live && (s.gangTiles g.1).any fun t => paddockOf t = p) = true := by
    simpa [List.any_eq_true] using h
  unfold State.writeMode
  rw [if_pos ha]
  exact State.log_logs s _ _

/-- A write of MODE of a paddock in no live gang's use sets SEL, and CHANGING where SEL and CUR differ. -/
theorem writeMode_of_unused {p : Nat} (v : Nat)
    (h : ∀ g ∈ s.gangs, g.2.live = true → ∀ t ∈ s.gangTiles g.1, paddockOf t ≠ p) :
    s.writeMode p v =
      if s.getF ((Page.paddock p).base + 0x40) 8 8 = v % 2 then s.setF ((Page.paddock p).base + 0x40) 0 0 (v % 2)
      else (s.setF ((Page.paddock p).base + 0x40) 0 0 (v % 2)).setF ((Page.paddock p).base + 0x40) 9 9 1 := by
  have ha : ¬(s.gangs.any fun g => g.2.live && (s.gangTiles g.1).any fun t => paddockOf t = p) = true := by
    simpa [List.any_eq_true] using h
  unfold State.writeMode
  dsimp only
  rw [if_neg ha, State.getF_setF_beside s _ _ (by omega) (by omega) (by omega)]

/-- Settles O25, by the write of MODE that MODE_SELECT makes. -/
theorem modesOfUsedPaddocksAreKept : Obligations.ModesOfUsedPaddocksAreKept :=
  fun _ _ _ v hp hb h => ⟨_, exec_modeSelect v hp hb, writeMode_logs _ h⟩

/-- Ending a change touches no register but MODE. -/
theorem switchMode_regs (p : Nat) : { s.switchMode p with regs := s.regs } = s := by
  unfold State.switchMode
  dsimp only
  split <;> rfl

theorem exec_modeSwitchDone {p : Nat} (hp : p < 16) :
    exec (.modeSwitchDone p) s = .next (s.inClock (16 + p) (s.switchMode p)) := by
  have hok : isPaddock p = true := by simp [isPaddock, hp]
  exact guardUnit_true _ _ hok

/-- Modes are selected, and changes end (R75, R76). -/
theorem paddockModesChange : Claims.PaddockModesChange := by
  constructor
  · intro s h p v hp hb
    refine ⟨_, exec_modeSelect v hp hb, writeMode_logs _, fun hu => ?_⟩
    rw [writeMode_of_unused _ hu]
    have hm : v.toNat % 2 % 2 ^ (0 + 1 - 0) = v.toNat % 2 := by omega
    split
    next heq =>
      refine ⟨?_, ?_, fun hne => absurd heq hne, fun a ha => State.reg_setF_ne _ _ _ _ _ _ ha⟩
      · rw [State.getF_setF_self _ _ _ _ _ (by omega) (by omega), hm]
      · exact State.getF_setF_beside s _ _ (by omega) (by omega) (by omega)
    next hne =>
      refine ⟨?_, ?_, fun _ => ?_, fun a ha => ?_⟩
      · rw [State.getF_setF_beside _ _ _ (by omega) (by omega) (by omega),
          State.getF_setF_self _ _ _ _ _ (by omega) (by omega), hm]
      · rw [State.getF_setF_beside _ _ _ (by omega) (by omega) (by omega),
          State.getF_setF_beside _ _ _ (by omega) (by omega) (by omega)]
      · exact State.getF_setF_self _ _ _ _ _ (by omega) (by omega)
      · rw [State.reg_setF_ne _ _ _ _ _ _ ha, State.reg_setF_ne _ _ _ _ _ _ ha]
  · intro s p hp
    constructor
    · intro hchg hclk hadm
      refine ⟨_, exec_modeSwitchDone hp, ?_⟩
      have hall : (s.pillars.all fun x => decide (paddockOf x.1 ≠ p) || x.2.admitted.isEmpty) = true := by
        simp only [List.all_eq_true, Bool.or_eq_true, decide_eq_true_eq, List.isEmpty_iff]
        exact fun x hx => or_iff_not_imp_left.2 fun hn => hadm x hx (not_not.1 hn)
      have hlt : s.getF ((Page.paddock p).base + 0x40) 0 0 < 2 := Nat.mod_lt _ (by decide)
      rw [State.inClock, if_neg (by simp [hclk])]
      refine ⟨?_, ?_, switchMode_regs p⟩
      all_goals
        unfold State.switchMode
        dsimp only
        rw [if_pos ⟨hchg, hall⟩]
      · exact State.getF_setF_self _ _ _ _ _ (by omega) (by omega)
      · rw [State.getF_setF_beside _ _ _ (by omega) (by omega) (by omega),
          State.getF_setF_self _ _ _ _ _ (by omega) (by omega)]
        exact Nat.mod_eq_of_lt hlt
    · intro h
      rw [exec_modeSwitchDone hp, State.inClock]
      split
      · rfl
      · next hclk =>
        have hn : ¬(s.getF ((Page.paddock p).base + 0x40) 9 9 = 1 ∧
            (s.pillars.all fun x => decide (paddockOf x.1 ≠ p) || x.2.admitted.isEmpty) = true) := by
          rintro ⟨hchg, hall⟩
          rcases h with h0 | ⟨x, hx, hp', hne⟩ | hl
          · omega
          · have := List.all_eq_true.1 hall x hx
            simp [hp', hne] at this
          · exact hclk hl
        unfold State.switchMode
        dsimp only
        rw [if_neg hn]

/-! ### Refreshes issued on the way, and places that come free -/

namespace State

/-- Issuing the refreshes that idle banks owe changes nothing else (R82). -/
theorem settle_eq (s : State) (t : Nat) :
    s.settle t = s ∨ ∃ f : List (Nat × Nat) → List (Nat × Nat),
      s.settle t = s.onPillar t fun p => { p with owed := f p.owed } := by
  unfold settle settleBanks
  dsimp only
  split
  · exact .inl rfl
  · split
    · exact .inr ⟨_, rfl⟩
    · exact .inl rfl

/-- What no pillar's change alters, issuing refreshes does not alter. -/
theorem settle_keeps {β : Type} {P : State → β} (hp : ∀ s t f, P (State.onPillar s t f) = P s) (s : State) (t : Nat) :
    P (s.settle t) = P s := by
  obtain e | ⟨f, e⟩ := s.settle_eq t
  · rw [e]
  · rw [e]; exact hp _ _ _

theorem pillar_settle_self (s : State) (t : Nat) :
    { (s.settle t).pillar t with owed := (s.pillar t).owed } = s.pillar t := by
  obtain e | ⟨f, e⟩ := s.settle_eq t <;> rw [e]
  rw [pillar_onPillar_self]

theorem pillar_settle_ne (s : State) {t u : Nat} (h : u ≠ t) : (s.settle t).pillar u = s.pillar u := by
  obtain e | ⟨f, e⟩ := s.settle_eq t <;> rw [e]
  rw [pillar_onPillar, if_neg h]

/-- Panic follows the fills in registers alone. -/
@[simp] theorem updatePanic_pillar (s : State) (u : Nat) : s.updatePanic.pillar u = s.pillar u := rfl

/-- With nothing waiting, a place that comes free is taken by nobody. -/
theorem drainHosts_of_empty {s : State} (h0 : s.h0.ingress = []) (h1 : s.h1.ingress = []) (hm : s.mesh = []) :
    s.drainHosts = s.updatePanic := by
  unfold drainHosts
  rw [h0, h1, hm]
  rfl

end State

/-! ### Slot beats (R72, R76, R77) -/

theorem exec_slotAdmit {t : Nat} (ht : t < 4352) :
    exec (.slotAdmit t) s = .next (s.inClock (16 + paddockOf t) (s.admitNext t)) :=
  guardUnit_true _ _ (isTile_of_lt ht)

/-- Nothing is taken out of a list none of whose elements satisfies the test. -/
theorem takeFirst_eq_none {α : Type} {f : α → Bool} {xs : List α} (h : ∀ x ∈ xs, f x = false) :
    takeFirst f xs = none := by
  induction xs with
  | nil => rfl
  | cons x xs ih => simp [takeFirst, h x List.mem_cons_self, ih fun y hy => h y (List.mem_cons_of_mem _ hy)]

/-- The entry admitted next: under panic in FIELD mode the oldest host entry where there is one, else the oldest. -/
theorem nextAdmit_eq {t : Nat} {r : MemReq} {rest : List MemReq}
    (h : if s.getF (State.modeReg t) 8 8 = 1 ∧ s.hostPanic = true ∧ ∃ x ∈ (s.pillar t).queue, x.isHost = true then
        takeFirst MemReq.isHost (s.pillar t).queue = some (r, rest)
      else (s.pillar t).queue = r :: rest) : s.nextAdmit t = some (r, rest) := by
  unfold State.nextAdmit
  dsimp only
  split at h
  next hc =>
    obtain ⟨hmode, hpanic, -⟩ := hc
    simp [hmode, hpanic, h]
  next hc =>
    have hfirst : takeFirst (fun _ => true) (s.pillar t).queue = some (r, rest) := by simp [h, takeFirst]
    by_cases hp : s.getF (State.modeReg t) 8 8 = 1 ∧ s.hostPanic = true
    · have hno : ∀ x ∈ (s.pillar t).queue, MemReq.isHost x = false := fun x hx =>
        Bool.eq_false_iff.2 fun hx' => hc ⟨hp.1, hp.2, x, hx, hx'⟩
      rw [takeFirst_eq_none hno, ite_self]
      exact hfirst
    · have hb : (decide (s.getF (State.modeReg t) 8 8 = 1) && s.hostPanic) = false := by simpa using hp
      rw [hb]
      exact hfirst

/-- A slot beat admits the oldest request behind those admitted before (R72, R76, R77). -/
theorem slotsAdmitTheOldestRequest : Claims.SlotsAdmitTheOldestRequest := by
  intro s t ht
  refine ⟨fun h => ?_, fun r rest hclk hchg h0 h1 hm hq => ?_⟩
  · rw [exec_slotAdmit ht, State.inClock]
    rcases h with hchg | hclk
    · rw [State.admitNext, if_pos hchg, ite_self]
    · rw [if_pos hclk]
  · have hi : ∀ {β : Type} (P : State → β), (∀ s t f, P (State.onPillar s t f) = P s) → P (s.settle t) = P s :=
      fun P hp => State.settle_keeps hp s t
    have he : s.admitNext t = (((s.settle t).onPillar t fun p =>
        { p with queue := rest, admitted := p.admitted ++ [r] })).updatePanic := by
      rw [State.admitNext, if_neg (by omega), nextAdmit_eq hq]
      refine State.drainHosts_of_empty ?_ ?_ ?_
      · exact (hi (fun s => s.h0.ingress) fun _ _ _ => rfl).trans h0
      · exact (hi (fun s => s.h1.ingress) fun _ _ _ => rfl).trans h1
      · exact (hi State.mesh fun _ _ _ => rfl).trans hm
    refine ⟨s.admitNext t, ?_, ?_, fun u hu => ?_⟩
    · rw [exec_slotAdmit ht, State.inClock, if_neg (by simp [hclk])]
    · rw [he, State.updatePanic_pillar, State.pillar_onPillar_self, ← State.pillar_settle_self s t]
    · rw [he, State.updatePanic_pillar, State.pillar_onPillar, if_neg hu, State.pillar_settle_ne s hu]

/-- Settles O26, by the changes of mode and the slot beats. -/
theorem pillarModesAndSlots : Obligations.PillarModesAndSlots := ⟨paddockModesChange, slotsAdmitTheOldestRequest⟩

end Sys2Proof.Machine

/-! ### Admitted accesses (R64, R79, R87, R253, R379) -/

namespace Sys2Proof.Machine

variable {s : State}

namespace State

@[simp] theorem admitted_settle (s : State) (t : Nat) : ((s.settle t).pillar t).admitted = (s.pillar t).admitted :=
  (congrArg Pillar.admitted (s.pillar_settle_self t) :)

/-- What the hold of a sampled step keeps, it keeps in Tithe's state alone. -/
theorem onCheck_eq (s : State) (t : Nat) (f : TitheStep → TitheStep) : ∃ x, s.onCheck t f = { s with tithe := x } := by
  unfold onCheck
  split
  · exact ⟨_, rfl⟩
  · exact ⟨s.tithe, rfl⟩

theorem keepStaged_eq (s : State) (t : Nat) (r : MemReq) : ∃ x, s.keepStaged t r = { s with tithe := x } := by
  unfold keepStaged keepBefore
  split
  · exact s.onCheck_eq t _
  · exact ⟨s.tithe, rfl⟩

theorem logStaged_eq (s : State) (t : Nat) (r : MemReq) : ∃ x, s.logStaged t r = { s with tithe := x } := by
  unfold logStaged
  split
  · exact ⟨s.tithe, rfl⟩
  · exact ⟨s.tithe, rfl⟩
  · exact s.onCheck_eq t _
  · exact s.onCheck_eq t _

/-- The pillar of `t` once its oldest admitted access has been taken. -/
def tookAccess (s : State) (t : Nat) (rest : List MemReq) : State :=
  s.onPillar t fun p => { p with admitted := rest, gleanAdmitted := p.gleanAdmitted.map fun n => n - 1 }

@[simp] theorem admitted_tookAccess (s : State) (t : Nat) (rest : List MemReq) :
    ((s.tookAccess t rest).pillar t).admitted = rest := by
  simp [tookAccess]

/-- A codeword stored without an error is read as stored, and nothing changes. -/
theorem readCw_of_clean (barn : Bool) (cw : Nat)
    (h : (classify (s.storedCw barn cw).1 (s.storedCw barn cw).2).cls = .clean) :
    s.readCw barn cw = (⟨(s.storedCw barn cw).1, false⟩, s) := by
  have hd := classify_data_of_uncorrected (by rw [h]; decide) (by rw [h]; decide)
  unfold readCw
  dsimp only
  rw [h, hd]
  rfl

end State

section Access

variable {t : Nat} {r : MemReq} {rest : List MemReq} (hq : (s.pillar t).admitted = r :: rest)
  (hd : s.pillarDead t = false) (hg : s.gleanTurn t = false)

include hq hd hg

/-- The oldest admitted access is a read of a codeword stored without an error. -/
theorem accessDone_read (hr : r.op = .read) (hc : CleanAt s t (r.dpa % 2 ^ 25)) :
    ∃ x, s.accessDone t Env.none =
      (({ s.tookAccess t rest with tithe := x } : State).answerReq r
        ⟨pillarBytes s t (r.dpa % 2 ^ 25), false⟩).settle t := by
  obtain ⟨x, hx⟩ := (s.tookAccess t rest).keepStaged_eq t r
  refine ⟨x, ?_⟩
  have hread : ({ s.tookAccess t rest with tithe := x } : State).readLoc (.field t (r.dpa % 2 ^ 25)) =
      (⟨pillarBytes s t (r.dpa % 2 ^ 25), false⟩, { s.tookAccess t rest with tithe := x }) := by
    unfold State.readLoc
    exact (if_neg (by rw [Bool.not_eq_true]; exact hd)).trans (State.readCw_of_clean false _ hc.2)
  unfold State.accessDone
  rw [hq]
  dsimp only
  rw [if_neg (by simp [hg])]
  change (let p := ((s.tookAccess t rest).keepStaged t r).performReq Env.none r (.field t (r.dpa % 2 ^ 25))
    (p.2.answerReq r p.1).settle t) = _
  rw [hx]
  unfold State.performReq
  rw [hr]
  dsimp only
  rw [hread]

/-- The oldest admitted access is a write of a whole codeword. -/
theorem accessDone_write {data : List Byte} (hr : r.op = .write data false false) :
    ∃ x, s.accessDone t Env.none =
      ((({ s.tookAccess t rest with tithe := x } : State).storeCw false (t * 2 ^ 19 + r.dpa % 2 ^ 25 / 64)
        ⟨data, false⟩).answerReq r ⟨[], false⟩).settle t := by
  obtain ⟨x, hx⟩ := (s.tookAccess t rest).keepStaged_eq t r
  refine ⟨x, ?_⟩
  have hwrite : ({ s.tookAccess t rest with tithe := x } : State).writeLoc Env.none (.field t (r.dpa % 2 ^ 25))
      ⟨data, false⟩ = ({ s.tookAccess t rest with tithe := x } : State).storeCw false
        (t * 2 ^ 19 + r.dpa % 2 ^ 25 / 64) ⟨data, false⟩ := by
    unfold State.writeLoc
    exact if_neg (by rw [Bool.not_eq_true]; exact hd)
  unfold State.accessDone
  rw [hq]
  dsimp only
  rw [if_neg (by simp [hg])]
  change (let p := ((s.tookAccess t rest).keepStaged t r).performReq Env.none r (.field t (r.dpa % 2 ^ 25))
    (p.2.answerReq r p.1).settle t) = _
  rw [hx]
  unfold State.performReq
  rw [hr]
  dsimp only
  rw [Bool.or_self, ← hwrite]
  rfl

end Access

theorem exec_pillarAccessDone {t : Nat} (ht : t < 4352) (hclk : s.pllLost (16 + paddockOf t) = false) (env : Env) :
    exec (.pillarAccessDone t env) s = .next (s.accessDone t env) :=
  (guardUnit_true _ _ (isTile_of_lt ht)).trans (by rw [State.inClock, if_neg (by simp [hclk])])

/-! ### What an answer leaves -/

section Answer

variable {r : MemReq} {h tag : Nat} (hs : r.src = .host h tag)

include hs

/-- The line that a host read joins the answers that wait to be sent to it. -/
theorem answerReq_host_read (hr : r.op = .read) (l : Line) :
    s.answerReq r l = s.onHost h fun p => { p with responses := p.responses ++ [(tag, .memData l)] } := by
  simp only [State.answerReq, hs, hr]

/-- So does the completion of a host's write. -/
theorem answerReq_host_write {data : List Byte} {poison bad : Bool} (hr : r.op = .write data poison bad) (l : Line) :
    s.answerReq r l = s.onHost h fun p => { p with responses := p.responses ++ [(tag, .cmp)] } := by
  simp only [State.answerReq, hs, hr]

end Answer

@[simp] theorem host_onHost_self (s : State) (h : Nat) (f : HostPort → HostPort) :
    (s.onHost h f).host h = f (s.host h) := by
  unfold State.onHost State.host
  split <;> rfl

section Write

variable (s : State) (t off : Nat) {data : List Byte} (hl : data.length = 64)

include hl

/-- A codeword stored in a pillar is found there. -/
theorem pillarBytes_storeCw : pillarBytes (s.storeCw false (t * 2 ^ 19 + off / 64) ⟨data, false⟩) t off = data :=
  (congrArg Prod.fst (storedCw_storeCw_self s false _ ⟨data, false⟩ hl) :)

/-- Storing a codeword in a pillar leaves every byte outside it. -/
theorem look_storeCw_outside {a : Nat} (h : a / 64 ≠ t * 2 ^ 19 + off / 64) :
    SMap.look 0 (s.storeCw false (t * 2 ^ 19 + off / 64) ⟨data, false⟩).fieldData a = SMap.look 0 s.fieldData a :=
  look_writeBytes_outside _ _ _ _ (by rw [hl]; omega)

end Write

/-- The last line of a commit is applied: the receiver acknowledges (R253). -/
theorem lineApplied_last {u src : Nat} {m : CommitMsg} (hu : u < 4352) (hm : m.src = .tile src) (ha : m.abort = false)
    (happ : (s.tile u).applying = [(m, 1)]) :
    s.lineApplied u m = (s.onTile u fun x => { x with applying := [] }).onTile src
      fun x => { x with acks := x.acks ++ [State.recvName u] } := by
  unfold State.lineApplied State.recv State.setRecv State.acknowledge
  simp only [hu, hm, ha, happ, if_true, List.find?_cons, decide_true, le_refl, List.filter_cons, ne_eq, not_true_eq_false,
    decide_false, Bool.false_eq_true, if_false, List.filter_nil]
  rfl

/-- The last line of a commit has been written: the receiver acknowledges, and a sampled step records the line. -/
theorem answerReq_last {r : MemReq} {u src : Nat} {m : CommitMsg} (hs : r.src = .staged u m) (hu : u < 4352)
    (hm : m.src = .tile src) (ha : m.abort = false) (happ : (s.tile u).applying = [(m, 1)]) (l : Line) :
    ∃ y, s.answerReq r l = (({ s with tithe := y } : State).onTile u fun x => { x with applying := [] }).onTile src
      fun x => { x with acks := x.acks ++ [State.recvName u] } := by
  obtain ⟨y, hy⟩ := s.logStaged_eq u r
  refine ⟨y, ?_⟩
  unfold State.answerReq
  rw [hs]
  dsimp only
  rw [hy]
  exact lineApplied_last hu hm ha happ

/-- Settles O27, by the turn of the oldest admitted access: what it does at the codeword, and what its answer does. -/
theorem admittedAccessesComplete : Obligations.AdmittedAccessesComplete := by
  intro s t r rest ht hq hd hclk
  refine ⟨fun hg => ?_, fun hg => ⟨fun h tag _ hs => ⟨fun hr hc => ?_, fun data hr hl => ?_⟩,
    fun u src m data hu _ hs hm ha hr hl happ => ?_⟩⟩
  · rw [exec_pillarAccessDone ht hclk]
    unfold State.accessDone
    rw [hq]
    dsimp only
    rw [if_pos hg]
  · obtain ⟨x, e⟩ := accessDone_read hq hd hg hr hc
    rw [answerReq_host_read hs hr] at e
    refine ⟨_, exec_pillarAccessDone ht hclk _, ?_, ?_, ?_, ?_⟩ <;> rw [e]
    · rw [State.admitted_settle, State.onHost_pillar]
      exact State.admitted_tookAccess s t rest
    · rw [State.settle_keeps (P := fun s => s.host h) fun _ _ _ => rfl, host_onHost_self]
      rfl
    · rw [State.settle_keeps (P := State.fieldData) fun _ _ _ => rfl, State.onHost_fieldData]
      rfl
    · rw [State.settle_keeps (P := State.fieldCheck) fun _ _ _ => rfl, State.onHost_fieldCheck]
      rfl
  · obtain ⟨x, e⟩ := accessDone_write hq hd hg hr
    rw [answerReq_host_write hs hr] at e
    refine ⟨_, exec_pillarAccessDone ht hclk _, ?_, ?_, ?_, fun a ha => ?_⟩ <;> rw [e]
    · rw [State.admitted_settle, State.onHost_pillar]
      exact State.admitted_tookAccess s t rest
    · rw [State.settle_keeps (P := fun s => s.host h) fun _ _ _ => rfl, host_onHost_self]
      rfl
    · rw [State.settle_keeps (P := fun s => pillarBytes s t (r.dpa % 2 ^ 25)) fun _ _ _ => rfl, pillarBytes,
        State.onHost_fieldData]
      exact pillarBytes_storeCw _ t _ hl
    · rw [State.settle_keeps (P := State.fieldData) fun _ _ _ => rfl, State.onHost_fieldData]
      exact look_storeCw_outside _ _ _ hl ha
  · obtain ⟨x, e⟩ := accessDone_write hq hd hg hr
    obtain ⟨y, hy⟩ := answerReq_last (s := ({ s.tookAccess t rest with tithe := x } : State).storeCw false
      (t * 2 ^ 19 + r.dpa % 2 ^ 25 / 64) ⟨data, false⟩) hs hu hm ha happ ⟨[], false⟩
    rw [hy] at e
    refine ⟨_, exec_pillarAccessDone ht hclk _, ?_, ?_, ?_, ?_⟩ <;> rw [e]
    · rw [State.admitted_settle, State.onTile_pillar, State.onTile_pillar]
      exact State.admitted_tookAccess s t rest
    · rw [State.settle_keeps (P := fun s => pillarBytes s t (r.dpa % 2 ^ 25)) fun _ _ _ => rfl]
      exact pillarBytes_storeCw _ t _ hl
    · rw [State.settle_keeps (P := fun s => (s.tile u).applying) fun _ _ _ => rfl, State.tile_onTile]
      split
      · rw [← ‹u = src›, State.tile_onTile_self]
      · rw [State.tile_onTile_self]
    · rw [State.settle_keeps (P := fun s => (s.tile src).acks) fun _ _ _ => rfl, State.tile_onTile_self,
        State.tile_onTile]
      split
      · rw [‹src = u›]; rfl
      · rfl

end Sys2Proof.Machine

/-! ## Refresh, the gleaner and the counters (R54, R55, R68, R80 to R87) -/

namespace Sys2Proof.Machine

theorem SMap.look_filter_key {α : Type} (d : α) (q : Nat → Bool) (m : SMap α) (k : Nat) :
    SMap.look d (m.filter fun e => q e.1) k = if q k then SMap.look d m k else d := by
  induction m with
  | nil => simp
  | cons c m ih =>
    by_cases hk : c.1 = k
    · subst hk
      cases hq : q c.1 <;> simp [SMap.look, hq, ih]
    · cases hq : q c.1 <;> simp [SMap.look, hq, hk, ih]

/-- A pass that changes nothing at any of its elements changes nothing. -/
theorem foldEach_fixed {α σ : Type} {f : α → σ → σ} {xs : List α} {s : σ} (h : ∀ x ∈ xs, f x s = s) :
    foldEach xs s f = s := by
  induction xs with
  | nil => rfl
  | cons x xs ih =>
    exact (congrArg (fun s => foldEach xs s f) (h x List.mem_cons_self)).trans
      (ih fun y hy => h y (List.mem_cons_of_mem _ hy))

namespace State

/-! ### The bank in which a tile stays -/

section Sequences

variable {s s' : State} {t : Nat} (hl : s'.ltileOf t = s.ltileOf t) (hn : s'.node = s.node)
  (hm : s'.modeOf t = s.modeOf t)

include hl hn hm

/-- What a tile moves follows from its number, its module's and its paddock's mode. -/
theorem movesOf_congr (e : Entry) : s'.movesOf t e = s.movesOf t e := by
  have hf : ∀ c, s'.farEnd t c = s.farEnd t c := fun c => by simp only [farEnd, hl, hn]
  have hi : ∀ c v, s'.indexEntry t c v = s.indexEntry t c v := fun c v => by simp only [indexEntry, hl, hm]
  simp only [movesOf, hf, hi]

theorem sequences_congr (ht : s'.tile t = s.tile t) : s'.sequences t = s.sequences t := by
  have he : s'.sequence t = s.sequence t := by
    funext e
    simp only [sequence, ownAccesses, movesOf_congr hl hn hm]
  rw [sequences, sequences, ht, he]

end Sequences

variable (s : State) (t b : Nat)

/-- Issuing refreshes leaves who holds a bank. -/
@[simp] theorem bankHeld_settle : (s.settle t).bankHeld t b = s.bankHeld t b := by
  have hk : ∀ {β : Type} (P : State → β), (∀ s t f, P (State.onPillar s t f) = P s) → P (s.settle t) = P s :=
    fun P hp => settle_keeps hp s t
  have hs : (s.settle t).sequences t = s.sequences t :=
    sequences_congr (hk (fun s => s.ltileOf t) fun _ _ _ => rfl) (hk node fun _ _ _ => rfl)
      (hk (fun s => s.modeOf t) fun _ _ _ => rfl) (hk (fun s => s.tile t) fun _ _ _ => rfl)
  rw [bankHeld, bankHeld, bankAdmitted, bankAdmitted, admitted_settle, hs]

/-- The refreshes that are owed still are those of banks that something holds (R82, R83). -/
theorem owed_settle_eq : ((s.settle t).pillar t).owed = (s.pillar t).owed.filter fun e => s.bankHeld t e.1 := by
  have hi : ∀ b, (!(!s.bankAdmitted t b && !(s.sequences t).contains b)) = s.bankHeld t b := by
    simp [bankHeld]
  unfold settle settleBanks
  dsimp only
  split
  next h => rw [h]; rfl
  split
  · rw [pillar_onPillar_self]
    simp only [hi]
  next hno =>
    refine (List.filter_eq_self.2 fun e he => ?_).symm
    rw [← hi]
    simp only [List.any_eq_true, not_exists, not_and] at hno
    simp only [hno e he, Bool.not_false]

theorem owed_settle : (s.settle t).owed t b = if s.bankHeld t b then s.owed t b else 0 := by
  rw [owed, owed_settle_eq, SMap.look_filter_key 0 (s.bankHeld t)]
  rfl

/-! ### Refresh (R80 to R85) -/

/-- The interval register of a paddock decides neither its mode nor where tiles lie. -/
@[simp] theorem bankHeld_applyHot : (s.applyHot (paddockOf t)).bankHeld t b = s.bankHeld t b := by
  have hs : (s.applyHot (paddockOf t)).sequences t = s.sequences t :=
    sequences_congr rfl (getF_setF_ne s _ _ _ _ _ _ _ (by simp only [Page.base]; omega))
      (getF_setF_ne s _ _ _ _ _ _ _ (by simp only [Page.base]; omega)) rfl
  rw [bankHeld, bankHeld, hs]
  rfl

@[simp] theorem owed_setOwed (n : Nat) : (s.setOwed t b n).owed t b = n := by
  unfold owed setOwed peakF
  rw [setF_pillar, pillar_onPillar_self, SMap.look_put_self]

end State

variable {s : State} {t : Nat}

theorem inField_of_kept (h : PillarKept s t) (s' : State) : s.inField t s' = s' := by
  rw [State.inField, if_pos ⟨h.stage, by simp [h.cool]⟩, State.inClock, if_neg (by simp [h.clock])]

theorem inField_of_not_kept (h : ¬PillarKept s t) (s' : State) : s.inField t s' = s := by
  unfold State.inField State.inClock
  split
  next hc =>
    split
    · rfl
    next hclk => exact absurd ⟨hc.1, by simpa using hc.2, by simpa using hclk⟩ h
  · rfl

theorem exec_refreshDue {b : Nat} (ht : t < 4352) (hb : b < 8) :
    exec (.refreshDue t b) s = .next (s.inField t (s.refreshDue t b)) :=
  guardUnit_true _ _ (by simp [isTile_of_lt ht, hb])

theorem exec_forcedRefresh {b : Nat} (ht : t < 4352) (hb : b < 8) :
    exec (.forcedRefresh t b) s = .next (s.inField t (s.forceRefresh t b)) :=
  guardUnit_true _ _ (by simp [isTile_of_lt ht, hb])

/-- What falls due is owed where the bank is held and owes fewer than eight; another bank owes none (R82, R83). -/
theorem refreshDue_eq (s : State) (t b : Nat) :
    s.refreshDue t b =
      if s.bankHeld t b = true ∧ s.owed t b < 8 then
        ((s.applyHot (paddockOf t)).settle t).setOwed t b (s.owed t b + 1)
      else (s.applyHot (paddockOf t)).settle t := by
  have ho : s.bankHeld t b = true → ((s.applyHot (paddockOf t)).settle t).owed t b = s.owed t b := fun h => by
    rw [State.owed_settle, State.bankHeld_applyHot, if_pos h]
    rfl
  unfold State.refreshDue
  dsimp only
  rw [State.bankHeld_settle, State.bankHeld_applyHot]
  by_cases h : s.bankHeld t b = true
  · rw [ho h]
  · simp only [h, false_and, if_false, Bool.false_eq_true]

theorem forceRefresh_eq (s : State) (t b : Nat) :
    s.forceRefresh t b =
      if s.bankHeld t b = true ∧ s.owed t b = 8 then (s.settle t).addF ((Page.paddock (paddockOf t)).base + 0x50) 63 0 1
      else s.settle t := by
  unfold State.forceRefresh
  dsimp only
  rw [State.bankHeld_settle, State.owed_settle]
  by_cases h : s.bankHeld t b = true
  · rw [if_pos h]
  · simp only [h, false_and, if_false, Bool.false_eq_true]

/-- A refresh is issued, owed or forced (R80 to R85). -/
theorem refreshesAreIssuedOwedOrForced : Claims.RefreshesAreIssuedOwedOrForced := by
  intro s t b a ht hb ha
  subst ha
  have hot : ((s.applyHot (paddockOf t)).settle t).getF ((Page.paddock (paddockOf t)).base + 0x44) 8 8 =
      b2n (SMap.look false s.st.hotNext (paddockOf t)) := by
    rw [State.settle_keeps (P := fun s => s.getF _ 8 8) fun _ _ _ => rfl, State.applyHot,
      State.getF_setF_self _ _ _ _ _ (by omega) (by omega)]
    cases SMap.look false s.st.hotNext (paddockOf t) <;> rfl
  have hmax : ((s.applyHot (paddockOf t)).settle t).getF ((Page.paddock (paddockOf t)).base + 0x48) 3 0 =
      s.getF ((Page.paddock (paddockOf t)).base + 0x48) 3 0 := by
    rw [State.settle_keeps (P := fun s => s.getF _ 3 0) fun _ _ _ => rfl, State.applyHot,
      State.getF_setF_ne _ _ _ _ _ _ _ _ (by omega)]
  have howed : ((s.applyHot (paddockOf t)).settle t).owed t b = if s.bankHeld t b then s.owed t b else 0 := by
    rw [State.owed_settle, State.bankHeld_applyHot]
    rfl
  refine ⟨fun hk => ?_, fun hk => ⟨_, exec_refreshDue ht hb, ?_⟩, fun hk => ⟨_, exec_forcedRefresh ht hb, ?_⟩⟩
  · rw [exec_refreshDue ht hb, exec_forcedRefresh ht hb, inField_of_not_kept hk, inField_of_not_kept hk]
    exact ⟨rfl, rfl⟩
  · rw [inField_of_kept hk, refreshDue_eq]
    split
    next h =>
      refine ⟨?_, fun hf => absurd h.1 (by simp [hf]), fun _ _ => ⟨State.owed_setOwed _ _ _ _, ?_⟩, fun _ h8 => by omega⟩
      · rw [State.setOwed, State.peakF, State.getF_setF_ne _ _ _ _ _ _ _ _ (by omega)]
        exact hot
      · rw [State.setOwed, State.peakF, State.getF_setF_self _ _ _ _ _ (by omega) (by omega), State.onPillar_getF, hmax]
        have hlt : s.getF ((Page.paddock (paddockOf t)).base + 0x48) 3 0 < 16 := Nat.mod_lt _ (by decide)
        exact Nat.mod_eq_of_lt (by omega)
    next h =>
      refine ⟨hot, fun hf => ?_, fun hh h8 => absurd ⟨hh, h8⟩ h, fun hh h8 => ?_⟩
      · rw [howed, hf]; rfl
      · rw [howed, hh, if_pos rfl, h8]
  · rw [inField_of_kept hk, forceRefresh_eq]
    refine ⟨fun hh h8 => ?_, fun h => ?_⟩
    · rw [if_pos ⟨hh, h8⟩]
      refine ⟨?_, ?_⟩
      · refine (State.owed_settle s t b).trans ?_
        rw [if_pos hh, h8]
      · rw [State.reg_addF_whole, State.settle_keeps (P := fun s => s.reg _) fun _ _ _ => rfl]
    · rw [if_neg fun hc => h.elim (fun hf => by simp [hf] at hc) fun hn => hn hc.2]
      exact State.settle_keeps (P := State.regs) (fun _ _ _ => rfl) s t

/-! ### The gleaner (R86 to R88) -/

theorem exec_gleanVisit (ht : t < 4352) (env : Env) :
    exec (.gleanVisit t env) s = .next (s.inField t (if s.mayGlean t then s.glean t env else s)) :=
  guardUnit_true _ _ (isTile_of_lt ht)

theorem exec_gleanEscalate (ht : t < 4352) :
    exec (.gleanEscalate t) s = .next (s.inField t (if s.gleans t then
      s.onPillar t fun p => { p with gleanAdmitted := p.gleanAdmitted.orElse fun _ => some p.admitted.length } else s)) :=
  guardUnit_true _ _ (isTile_of_lt ht)

/-- PASS_DONE is all that the end of a pass shows. -/
theorem passDone_eq (s : State) (p : Nat) :
    s.passDone p = s ∨ s.passDone p = s.setF ((Page.paddock p).base + 0x58) 1 1 1 := by
  unfold State.passDone
  split
  · exact .inr rfl
  · exact .inl rfl

/-- A visit to a row whose codewords are all stored without an error goes on to the next row, and changes no memory. -/
theorem glean_of_clean (h : ∀ k, k < 16 → CleanAt s t (1024 * (s.pillar t).gleanRow + 64 * k)) :
    s.glean t Env.none = (s.onPillar t fun p => { p with
      gleanRow := ((s.pillar t).gleanRow + 1) % 32768
      gleaned := p.gleaned || decide ((s.pillar t).gleanRow = 32767)
      gleanAdmitted := none }).passDone (paddockOf t) := by
  have hread : (foldEach (List.range 16) s fun k s' =>
      (s'.readCw false (t * 2 ^ 19 + 16 * (s.pillar t).gleanRow + k)).2) = s :=
    foldEach_fixed fun k hk => by
      have hc := (h k (List.mem_range.1 hk)).2
      rw [show t * 2 ^ 19 + (1024 * (s.pillar t).gleanRow + 64 * k) / 64 =
        t * 2 ^ 19 + 16 * (s.pillar t).gleanRow + k by omega] at hc
      rw [State.readCw_of_clean false _ hc]
  have hd : ¬s.pillarDead t = true := by simp [(h 0 (by omega)).1]
  unfold State.glean
  dsimp only
  have hu : s.upset Env.none = s := rfl
  rw [hu, if_neg hd, hread]

/-- The gleaner goes row by row (R68, R86, R87). -/
theorem gleanerVisitsRowByRow : Claims.GleanerVisitsRowByRow := by
  constructor
  · intro s t ht h
    rw [exec_gleanVisit ht, exec_gleanEscalate ht]
    by_cases hk : PillarKept s t
    · have hen : s.getF ((Page.paddock (paddockOf t)).base + 0x58) 0 0 = 0 := h.resolve_right (not_not.2 hk)
      have hg : s.gleans t = false := by simp [State.gleans, hen]
      rw [inField_of_kept hk, inField_of_kept hk, State.mayGlean, hg]
      exact ⟨rfl, rfl⟩
    · rw [inField_of_not_kept hk, inField_of_not_kept hk]
      exact ⟨rfl, rfl⟩
  · intro s t ht hk hen hq
    have hg : s.gleans t = true := by simp [State.gleans, hen, hq]
    rw [exec_gleanVisit ht, exec_gleanEscalate ht, inField_of_kept hk, inField_of_kept hk, if_pos hg]
    refine ⟨fun n hn => ?_, fun hturn hclean => ⟨_, rfl, ?_⟩, _, rfl, fun hn => ?_, fun hn => ?_, fun u hu => ?_, rfl⟩
    · have hm : s.mayGlean t = false := by simp [State.mayGlean, State.gleanTurn, hn]
      rw [hm]
      rfl
    · have hm : s.mayGlean t = true := by
        rcases hturn with h0 | ⟨hnone, hbank, hneed⟩
        · simp [State.mayGlean, State.gleanTurn, h0, hg]
        · simp [State.mayGlean, hg, hnone, hbank, hneed]
      rw [if_pos hm, glean_of_clean hclean]
      rcases passDone_eq (s.onPillar t fun p => { p with
          gleanRow := ((s.pillar t).gleanRow + 1) % 32768
          gleaned := p.gleaned || decide ((s.pillar t).gleanRow = 32767)
          gleanAdmitted := none }) (paddockOf t) with e | e <;> rw [e]
      · simp
      · simp
    · rw [State.pillar_onPillar_self, hn]
      rfl
    · obtain ⟨n, hn⟩ := Option.ne_none_iff_exists'.1 hn
      rw [State.pillar_onPillar_self, hn, Option.orElse_some, ← hn]
    · rw [State.pillar_onPillar, if_neg hu]

/-! ### Counters (R54, R55) -/

/-- Counters wrap to zero, and stand still with their clock (R54, R55, R476). -/
theorem countersWrap : Claims.CountersWrap := by
  intro s t ht
  have hb : exec (.beatCounterWrap t) s = .next (s.inClock (16 + paddockOf t)
      ((s.onPillar t fun p => { p with beat := 0 }).setF ((Page.tile t).base + 0xA4) 0 0 1)) :=
    guardUnit_true _ _ (isTile_of_lt ht)
  have hc : exec (.cycleCounterWrap t) s = .next (s.inClock (paddockOf t) (s.onTile t fun x => { x with cycle := 0 })) :=
    guardUnit_true _ _ (isTile_of_lt ht)
  rw [hb, hc]
  refine ⟨fun h => ?_, fun h => ?_, fun h => ⟨_, rfl, ?_⟩, fun h => ⟨_, rfl, ?_⟩⟩ <;> rw [State.inClock]
  · rw [if_pos h]
  · rw [if_pos h]
  · rw [if_neg (by simp [h])]
    refine ⟨by simp, State.getF_setF_self _ _ _ _ _ (by omega) (by omega), fun a ha => ?_, rfl⟩
    rw [State.reg_setF_ne _ _ _ _ _ _ ha, State.onPillar_reg]
  · rw [if_neg (by simp [h])]
    exact ⟨State.tile_onTile_self _ _ _, fun u hu => State.tile_onTile_ne _ _ _ _ hu, rfl⟩

/-- Settles O31: refreshes, the gleaner's visits and the counters. -/
theorem refreshGleanAndCounterWrap : Obligations.RefreshGleanAndCounterWrap :=
  ⟨refreshesAreIssuedOwedOrForced, gleanerVisitsRowByRow, countersWrap⟩

end Sys2Proof.Machine

/-! ## One symbol in error (R60 to R64)

The syndromes of a single error are `x`, `x β`, …, `x β^7` with `β` the power of α at its place. Berlekamp-Massey finds the
locator 1 + β X of such a sequence, whose one root names the place, and Forney's formula gives `x`. -/

namespace Sys2Proof.Machine

/-! ### GF(2^8) is a field -/

/-- Two maps on bytes that distribute over XOR and agree on the powers of two agree. -/
theorem eq_of_xor_of_twoPow {f g : Nat → Nat} (hf : ∀ a b, a < 256 → b < 256 → f (a ^^^ b) = f a ^^^ f b)
    (hg : ∀ a b, a < 256 → b < 256 → g (a ^^^ b) = g a ^^^ g b) (h2 : ∀ k < 8, f (2 ^ k) = g (2 ^ k)) :
    ∀ a < 256, f a = g a := by
  intro a ha
  have h := eq_zero_of_xor_of_twoPow (f := fun a => f a ^^^ g a)
    (fun a b ha hb => by simp only [hf a b ha hb, hg a b ha hb, Nat.xor_assoc, Nat.xor_left_comm])
    (fun k hk => by simp only [h2 k hk, Nat.xor_self]) a ha
  exact Nat.xor_eq_zero_iff.1 h

theorem gfMulAux_xor_right (n a b b' acc acc' : Nat) :
    gfMulAux n a (b ^^^ b') (acc ^^^ acc') = gfMulAux n a b acc ^^^ gfMulAux n a b' acc' := by
  induction n generalizing a b b' acc acc' with
  | zero => rfl
  | succ n ih =>
    have hdiv : (b ^^^ b') / 2 = b / 2 ^^^ b' / 2 := by
      simpa [Nat.shiftRight_eq_div_pow] using Nat.shiftRight_xor_distrib (a := b) (b := b') (i := 1)
    have hmod : (b ^^^ b') % 2 = (b % 2) ^^^ (b' % 2) := Nat.xor_mod_two_pow (n := 1)
    simp only [gfMulAux, hdiv, hmod, ← ih]
    congr 1
    rcases Nat.mod_two_eq_zero_or_one b with h | h <;> rcases Nat.mod_two_eq_zero_or_one b' with h' | h' <;>
      simp [h, h', Nat.xor_left_comm, Nat.xor_comm]

theorem gfMul_xor_right (a b b' : Nat) : gfMul a (b ^^^ b') = gfMul a b ^^^ gfMul a b' := by
  have h := gfMulAux_xor_right 8 a b b' 0 0
  rw [Nat.xor_self] at h
  simpa only [gfMul_eq_aux] using h

theorem twoPow_lt_byte {k : Nat} (hk : k < 8) : 2 ^ k < 256 := Nat.pow_lt_pow_right (a := 2) (n := 8) (by decide) hk

theorem gfMul_comm {a b : Nat} (ha : a < 256) (hb : b < 256) : gfMul a b = gfMul b a := by
  refine eq_of_xor_of_twoPow (f := fun a => gfMul a b) (g := gfMul b) (fun _ _ h h' => gfMul_xor_left b h h')
    (fun _ _ _ _ => gfMul_xor_right b _ _) (fun k hk => ?_) a ha
  refine eq_of_xor_of_twoPow (f := gfMul (2 ^ k)) (g := fun b => gfMul b (2 ^ k)) (fun _ _ _ _ => gfMul_xor_right _ _ _)
    (fun _ _ h h' => gfMul_xor_left _ h h') (fun m hm => ?_) b hb
  have h : ∀ k < 8, ∀ m < 8, gfMul (2 ^ k) (2 ^ m) = gfMul (2 ^ m) (2 ^ k) := by decide +kernel
  exact h k hk m hm

theorem gfMul_assoc {a b c : Nat} (ha : a < 256) (hb : b < 256) (hc : c < 256) :
    gfMul (gfMul a b) c = gfMul a (gfMul b c) := by
  refine eq_of_xor_of_twoPow (f := fun a => gfMul (gfMul a b) c) (g := fun a => gfMul a (gfMul b c))
    (fun _ _ h h' => by rw [gfMul_xor_left b h h', gfMul_xor_left c (gfMul_lt b h) (gfMul_lt b h')])
    (fun _ _ h h' => gfMul_xor_left _ h h') (fun k hk => ?_) a ha
  have hk' := twoPow_lt_byte hk
  refine eq_of_xor_of_twoPow (f := fun b => gfMul (gfMul (2 ^ k) b) c) (g := fun b => gfMul (2 ^ k) (gfMul b c))
    (fun _ _ _ _ => by rw [gfMul_xor_right, gfMul_xor_left c (gfMul_lt _ hk') (gfMul_lt _ hk')])
    (fun _ _ h h' => by rw [gfMul_xor_left c h h', gfMul_xor_right]) (fun m hm => ?_) b hb
  refine eq_of_xor_of_twoPow (f := gfMul (gfMul (2 ^ k) (2 ^ m))) (g := fun c => gfMul (2 ^ k) (gfMul (2 ^ m) c))
    (fun _ _ _ _ => gfMul_xor_right _ _ _) (fun _ _ _ _ => by rw [gfMul_xor_right, gfMul_xor_right])
    (fun n hn => ?_) c hc
  have h : ∀ k < 8, ∀ m < 8, ∀ n < 8,
      gfMul (gfMul (2 ^ k) (2 ^ m)) (2 ^ n) = gfMul (2 ^ k) (gfMul (2 ^ m) (2 ^ n)) := by decide +kernel
  exact h k hk m hm n hn

@[simp] theorem gfMul_zero_right (a : Nat) : gfMul a 0 = 0 := by simp [gfMul]

theorem gfMul_one_left {a : Nat} (ha : a < 256) : gfMul 1 a = a :=
  eq_of_xor_of_twoPow (f := gfMul 1) (g := fun a => a) (fun _ _ _ _ => gfMul_xor_right _ _ _) (fun _ _ _ _ => rfl)
    (by decide +kernel) a ha

theorem gfMul_one_right {a : Nat} (ha : a < 256) : gfMul a 1 = a := (gfMul_comm ha (by decide)).trans (gfMul_one_left ha)

theorem gfInv_lt {a : Nat} (ha : a < 256) : gfInv a < 256 := gfMul_lt _ (gfMul_lt _ ha)

/-- The power 254 of an element other than zero is its inverse. -/
theorem gfMul_gfInv {a : Nat} (ha : a < 256) (h0 : a ≠ 0) : gfMul a (gfInv a) = 1 := by
  have h : ∀ a < 256, a ≠ 0 → gfMul a (gfInv a) = 1 := by decide +kernel
  exact h a ha h0

/-- Dividing a product by its first factor leaves the second. -/
theorem gfMul_gfInv_cancel {a b : Nat} (ha : a < 256) (hb : b < 256) (h0 : a ≠ 0) :
    gfMul (gfMul a b) (gfInv a) = b := by
  rw [gfMul_comm ha hb, gfMul_assoc hb ha (gfInv_lt ha), gfMul_gfInv ha h0, gfMul_one_right hb]

/-! ### Powers of α -/

theorem gfAlpha_lt (n : Nat) : gfAlpha n < 256 := by
  induction n with
  | zero => decide
  | succ n ih => exact gfTwice_lt _ ih

theorem gfAlpha_ne_zero {j : Nat} (hj : j < 72) : gfAlpha j ≠ 0 := by
  have h : ∀ j < 72, gfAlpha j ≠ 0 := by decide +kernel
  exact h j hj

/-- α^0 to α^71 are different. -/
theorem gfAlpha_injective {j k : Nat} (hj : j < 72) (hk : k < 72) (h : gfAlpha j = gfAlpha k) : j = k := by
  have hn : ∀ j < 72, ∀ k < 72, gfAlpha j = gfAlpha k → j = k := by decide +kernel
  exact hn j hj k hk h

theorem gfTwice_eq_gfMul {a : Nat} (ha : a < 256) : gfTwice a = gfMul a 2 :=
  eq_of_xor_of_twoPow (f := gfTwice) (g := fun a => gfMul a 2) (fun _ _ h h' => gfTwice_xor h h')
    (fun _ _ h h' => gfMul_xor_left _ h h') (by decide +kernel) a ha

/-- Multiplying by α^n doubles `n` times. -/
theorem gfMul_gfAlpha {v : Nat} (hv : v < 256) (n : Nat) : gfMul v (gfAlpha n) = gfTwice^[n] v := by
  induction n with
  | zero => exact gfMul_one_right hv
  | succ n ih =>
    rw [gfAlpha, gfTwice_eq_gfMul (gfAlpha_lt n), ← gfMul_assoc hv (gfAlpha_lt n) (by decide),
      ← gfTwice_eq_gfMul (gfMul_lt _ hv), ih, Function.iterate_succ_apply']

theorem gfScale_gfAlpha {v : Nat} (hv : v < 256) (n m : Nat) : gfScale (gfAlpha n) m v = gfTwice^[n * m] v := by
  induction m with
  | zero => rfl
  | succ m ih =>
    rw [gfScale, gfMul_gfAlpha (gfScale_lt _ _ hv), ih, ← Function.iterate_add_apply, Nat.mul_succ, Nat.add_comm]

/-- Moving up by `m` places at α^n is moving up by `n` places at α^m. -/
theorem gfScale_gfAlpha_comm {v : Nat} (hv : v < 256) (n m : Nat) :
    gfScale (gfAlpha n) m v = gfScale (gfAlpha m) n v := by
  rw [gfScale_gfAlpha hv, gfScale_gfAlpha hv, Nat.mul_comm]

/-! ### One symbol and its syndromes -/

/-- The coefficients of `n` symbols that are all zero but symbol `i`, which is `x`. -/
def oneSymbol (n i x : Nat) : List Nat := (List.range n).map fun k => if k = i then x else 0

theorem oneSymbol_succ (n i x : Nat) : oneSymbol (n + 1) i x = oneSymbol n i x ++ [if n = i then x else 0] := by
  simp [oneSymbol, List.range_succ]

theorem allBytes_oneSymbol (n i : Nat) {x : Nat} (hx : x < 256) : AllBytes (oneSymbol n i x) := by
  intro c hc
  obtain ⟨k, -, rfl⟩ := List.mem_map.1 hc
  split
  · exact hx
  · decide

theorem polyAt_oneSymbol_beyond (y x : Nat) {n i : Nat} (h : n ≤ i) : polyAt (oneSymbol n i x) y = 0 := by
  induction n with
  | zero => rfl
  | succ n ih => rw [oneSymbol_succ, polyAt_concat, ih (by omega), gfMul_zero_left, if_neg (by omega)]; rfl

theorem polyAt_oneSymbol (y x : Nat) {n i : Nat} (h : i < n) :
    polyAt (oneSymbol n i x) y = gfScale y (n - 1 - i) x := by
  induction n with
  | zero => omega
  | succ n ih =>
    rw [oneSymbol_succ, polyAt_concat]
    by_cases hi : n = i
    · subst hi
      rw [polyAt_oneSymbol_beyond y x le_rfl, gfMul_zero_left, if_pos rfl, Nat.zero_xor, Nat.add_sub_cancel,
        Nat.sub_self]
      rfl
    · rw [ih (by omega), if_neg hi, Nat.xor_zero, show n + 1 - 1 - i = (n - 1 - i) + 1 by omega]
      rfl

/-- The sequence `x`, `x b`, …, `x b^7`. -/
def powerSyndromes (b x : Nat) : List Nat := (List.range 8).map fun k => gfScale b k x

/-- The syndromes of one symbol in error at place `71 - j`. -/
theorem syndromes_oneSymbol {j x : Nat} (hj : j < 72) (hx : x < 256) :
    syndromes (oneSymbol 72 (71 - j) x) = powerSyndromes (gfAlpha j) x := by
  refine List.map_congr_left fun k _ => ?_
  rw [polyAt_oneSymbol _ _ (by omega), show 72 - 1 - (71 - j) = j by omega, gfScale_gfAlpha_comm hx]

theorem getD_powerSyndromes {b x k : Nat} (hk : k < 8) : (powerSyndromes b x).getD k 0 = gfScale b k x := by
  simp [powerSyndromes, hk]

/-! ### The locator -/

section Locator

variable {b x : Nat} (hb : b < 256) (hx : x < 256) (h0 : x ≠ 0)

/-- What the locator 1 + b X takes from a sequence: its first two terms, the second times `b`. -/
theorem foldl_locator (b : Nat) (g : Nat → Nat) (m : Nat) :
    (List.range (m + 2)).foldl (fun v i => v ^^^ gfMul ([1, b].getD i 0) (g i)) 0 = gfMul 1 (g 0) ^^^ gfMul b (g 1) := by
  induction m with
  | zero => simp [List.range_succ]
  | succ m ih => rw [show m + 1 + 2 = (m + 2) + 1 by omega, List.range_succ, List.foldl_append, ih]; simp

include hb hx in
/-- The locator takes nothing from two terms of the sequence that follow each other. -/
theorem locator_cancels (k : Nat) : gfMul 1 (gfScale b (k + 1) x) ^^^ gfMul b (gfScale b k x) = 0 := by
  rw [gfMul_one_left (gfScale_lt b _ hx), gfScale, gfMul_comm hb (gfScale_lt b k hx), Nat.xor_self]

include hx h0 in
/-- The first syndrome shows an error: the locator gets a place. -/
theorem bmRound_first :
    bmRound (powerSyndromes b x) 0 { lam := [1], b := [1], l := 0, gap := 1, bd := 1 } =
      { lam := [1, x], b := [1], l := 1, gap := 1, bd := x } := by
  have hd : (List.range (0 + 1)).foldl
      (fun v i => v ^^^ gfMul (([1] : List Nat).getD i 0) ((powerSyndromes b x).getD (0 - i) 0)) 0 = x := by
    rw [show List.range (0 + 1) = [0] from rfl, List.foldl_cons, List.foldl_nil, getD_powerSyndromes (by decide)]
    exact (Nat.zero_xor _).trans (gfMul_one_left hx)
  have hi : gfMul (gfMul x (gfInv 1)) 1 = x := by
    rw [show gfInv 1 = 1 by decide +kernel, gfMul_one_right hx, gfMul_one_right hx]
  unfold bmRound
  dsimp only
  rw [hd, if_neg h0]
  simp [polyAdd, polyScale, hi]

include hb hx h0 in
/-- The second syndrome gives the place. -/
theorem bmRound_second :
    bmRound (powerSyndromes b x) 1 { lam := [1, x], b := [1], l := 1, gap := 1, bd := x } =
      { lam := [1, b], b := [1], l := 1, gap := 2, bd := x } := by
  have hd : (List.range (1 + 1)).foldl
      (fun v i => v ^^^ gfMul ([1, x].getD i 0) ((powerSyndromes b x).getD (1 - i) 0)) 0 = gfMul x (b ^^^ x) := by
    rw [foldl_locator x (fun i => (powerSyndromes b x).getD (1 - i) 0) 0, getD_powerSyndromes (by decide),
      getD_powerSyndromes (by decide), gfMul_one_left (gfScale_lt b _ hx), gfMul_xor_right]
    rfl
  have hi : gfMul (gfMul (gfMul x (b ^^^ x)) (gfInv x)) 1 = b ^^^ x := by
    rw [gfMul_gfInv_cancel hx (xor_byte_lt hb hx) h0, gfMul_one_right (xor_byte_lt hb hx)]
  unfold bmRound
  dsimp only
  rw [hd]
  split
  next h =>
    have hbx : b = x := by
      have hz := hi
      rw [h, gfMul_zero_left, gfMul_zero_left] at hz
      exact Nat.xor_eq_zero_iff.1 hz.symm
    rw [hbx]
  next =>
    have hxb : x ^^^ (b ^^^ x) = b := by rw [Nat.xor_comm b, ← Nat.xor_assoc, Nat.xor_self, Nat.zero_xor]
    simp [polyAdd, polyScale, hi, hxb]

include hb hx in
/-- The other syndromes agree. -/
theorem bmRound_later {n g : Nat} (hn : 0 < n) (h8 : n < 8) :
    bmRound (powerSyndromes b x) n { lam := [1, b], b := [1], l := 1, gap := g, bd := x } =
      { lam := [1, b], b := [1], l := 1, gap := g + 1, bd := x } := by
  obtain ⟨k, rfl⟩ : ∃ k, n = k + 1 := ⟨n - 1, by omega⟩
  have hd : (List.range (1 + 1)).foldl
      (fun v i => v ^^^ gfMul ([1, b].getD i 0) ((powerSyndromes b x).getD (k + 1 - i) 0)) 0 = 0 := by
    rw [foldl_locator b (fun i => (powerSyndromes b x).getD (k + 1 - i) 0) 0, getD_powerSyndromes (by omega),
      getD_powerSyndromes (by omega)]
    exact locator_cancels hb hx k
  unfold bmRound
  dsimp only
  rw [hd, if_pos rfl]

include hb hx h0 in
theorem bmLocator_powerSyndromes : bmLocator (powerSyndromes b x) = ([1, b], 1) := by
  unfold bmLocator
  rw [show List.range 8 = [0, 1, 2, 3, 4, 5, 6, 7] from rfl]
  simp only [List.foldl_cons, List.foldl_nil, bmRound_first hx h0, bmRound_second hb hx h0,
    bmRound_later hb hx (show 0 < 2 by decide) (show 2 < 8 by decide),
    bmRound_later hb hx (show 0 < 3 by decide) (show 3 < 8 by decide),
    bmRound_later hb hx (show 0 < 4 by decide) (show 4 < 8 by decide),
    bmRound_later hb hx (show 0 < 5 by decide) (show 5 < 8 by decide),
    bmRound_later hb hx (show 0 < 6 by decide) (show 6 < 8 by decide),
    bmRound_later hb hx (show 0 < 7 by decide) (show 7 < 8 by decide)]

end Locator

/-! ### The place and the value -/

section Error

variable {j x : Nat} (hj : j < 72) (hx : x < 256) (h0 : x ≠ 0)

/-- The locator's root names the place of the error. -/
theorem polyLowAt_locator {k : Nat} (hj : j < 72) (hk : k < 72) :
    polyLowAt [1, gfAlpha j] (gfInv (gfAlpha k)) = 0 ↔ k = j := by
  have hak := gfAlpha_lt k
  have haj := gfAlpha_lt j
  have hv : polyLowAt [1, gfAlpha j] (gfInv (gfAlpha k)) = gfMul (gfAlpha j) (gfInv (gfAlpha k)) ^^^ 1 := by
    simp [polyLowAt, polyAt]
  rw [hv, Nat.xor_eq_zero_iff]
  constructor
  · intro h
    refine gfAlpha_injective hk hj ?_
    calc gfAlpha k = gfMul (gfMul (gfAlpha j) (gfInv (gfAlpha k))) (gfAlpha k) := by rw [h, gfMul_one_left hak]
      _ = gfMul (gfAlpha j) (gfMul (gfAlpha k) (gfInv (gfAlpha k))) := by
        rw [gfMul_assoc haj (gfInv_lt hak) hak, gfMul_comm (gfInv_lt hak) hak]
      _ = gfAlpha j := by rw [gfMul_gfInv hak (gfAlpha_ne_zero hk), gfMul_one_right haj]
  · rintro rfl
    exact gfMul_gfInv haj (gfAlpha_ne_zero hj)

include hj in
theorem hits_locator :
    ((List.range 72).filter fun k => polyLowAt [1, gfAlpha j] (gfInv (gfAlpha k)) = 0) = [j] := by
  have he : ((List.range 72).filter fun k => polyLowAt [1, gfAlpha j] (gfInv (gfAlpha k)) = 0) =
      (List.range 72).filter (· = j) :=
    List.filter_congr fun k hk => decide_eq_decide.2 (polyLowAt_locator hj (List.mem_range.1 hk))
  rw [he, List.filter_eq, List.count_eq_one_of_mem List.nodup_range (List.mem_range.2 hj), List.replicate_one]

/-- The error evaluator of a sequence and its locator is the first term alone. -/
theorem omega_eq {b : Nat} (hb : b < 256) (hx : x < 256) :
    ((List.range 8).map fun k => (List.range (k + 1)).foldl
      (fun v i => v ^^^ gfMul ([1, b].getD i 0) ((powerSyndromes b x).getD (k - i) 0)) 0) = oneSymbol 8 0 x := by
  refine List.map_congr_left fun k hk => ?_
  have hk := List.mem_range.1 hk
  cases k with
  | zero =>
    rw [if_pos rfl, show List.range (0 + 1) = [0] from rfl, List.foldl_cons, List.foldl_nil,
      getD_powerSyndromes (by decide)]
    exact (Nat.zero_xor _).trans (gfMul_one_left hx)
  | succ k =>
    rw [foldl_locator b (fun i => (powerSyndromes b x).getD (k + 1 - i) 0) k, getD_powerSyndromes (by omega),
      getD_powerSyndromes (by omega), if_neg (by omega)]
    exact locator_cancels hb hx k

include hj hx in
/-- Forney's formula gives the error's value. -/
theorem errorValue_powerSyndromes :
    errorValue (powerSyndromes (gfAlpha j) x) [1, gfAlpha j] (gfAlpha j) = x := by
  have ha := gfAlpha_lt j
  have homega : polyLowAt (oneSymbol 8 0 x) (gfInv (gfAlpha j)) = x := by
    simp [polyLowAt, oneSymbol, List.range_succ, polyAt]
  have hderiv : (List.range 4).foldl (fun v k => v ^^^ gfMul
      (((List.range 4).map fun k => ([1, gfAlpha j] : List Nat).getD (2 * k + 1) 0).getD k 0)
      (gfPow (gfInv (gfAlpha j)) (2 * k))) 0 = gfAlpha j := by
    simp [List.range_succ, gfPow, gfMul_one_right ha]
  unfold errorValue
  dsimp only
  rw [omega_eq ha hx, homega, hderiv]
  rw [← gfMul_assoc ha hx (gfInv_lt ha), gfMul_gfInv_cancel ha hx (gfAlpha_ne_zero hj)]

include hj hx h0 in
/-- The one error is found. -/
theorem findErrors_powerSyndromes :
    findErrors 4 (powerSyndromes (gfAlpha j) x) = some [(71 - j, x)] := by
  have hp : ((List.range 72).map fun i => ([(71 - j, x)].find? fun e => e.1 = i).elim 0 (·.2)) =
      oneSymbol 72 (71 - j) x := by
    refine List.map_congr_left fun i _ => ?_
    by_cases hi : i = 71 - j
    · simp [hi]
    · simp [hi, Ne.symm hi]
  unfold findErrors
  rw [bmLocator_powerSyndromes (gfAlpha_lt j) hx h0]
  dsimp only
  rw [hits_locator hj, List.map_singleton, errorValue_powerSyndromes hj hx, hp, syndromes_oneSymbol hj hx]
  simp

end Error

/-! ### Classification of a codeword with one symbol in error (R64) -/

theorem setAt_eq_set {α : Type} (xs : List α) (i : Nat) (v : α) : setAt xs i v = xs.set i v := by
  induction xs generalizing i with
  | nil => rfl
  | cons x xs ih =>
    cases i with
    | zero => rfl
    | succ i => rw [setAt, ih, List.set_cons_succ]

/-- Changing one symbol adds a pattern of one symbol. -/
theorem set_eq_zipWith_oneSymbol (cs : List Nat) {i : Nat} (hi : i < cs.length) (x : Nat) :
    cs.set i (cs.getD i 0 ^^^ x) = List.zipWith (· ^^^ ·) cs (oneSymbol cs.length i x) := by
  refine List.ext_getElem (by simp [oneSymbol]) fun k hk _ => ?_
  have hk : k < cs.length := by simpa using hk
  by_cases hki : k = i
  · subst hki
    simp [oneSymbol, List.getElem?_eq_getElem hi]
  · simp [oneSymbol, hki, Ne.symm hki]

/-- A stored codeword has zero syndromes (R61). -/
theorem syndromes_encoded (data : List Byte) :
    syndromes ((data ++ storedCheck data false).map (·.toNat)) = [0, 0, 0, 0, 0, 0, 0, 0] := by
  have hz : List.zipWith (· ^^^ ·) (rsCheck data) (zeros 8) = rsCheck data := by
    refine List.ext_getElem (by simp [zeros]) fun k _ _ => ?_
    simp only [zeros, List.getElem_zipWith, List.getElem_replicate]
    exact BitVec.xor_zero
  have h := syndromes_encoded_xor data (zeros 8) (by simp [zeros])
  rw [hz] at h
  exact h.trans (by decide +kernel)

theorem getD_syndromes (cs : List Nat) {k : Nat} (hk : k < 8) : (syndromes cs).getD k 0 = polyAt cs (gfAlpha k) := by
  simp [syndromes, hk]

/-- A codeword as it is stored reads clean. -/
theorem classify_storedCheck_clean (data : List Byte) : classify data (storedCheck data false) = ⟨data, .clean⟩ := by
  unfold classify
  simp only [syndromes_encoded, if_true]

/-- The pattern of the blight constant is not that of one symbol. -/
theorem powerSyndromes_ne_blight {b x : Nat} (hb : b < 256) (hx : x < 256) (h0 : x ≠ 0) :
    powerSyndromes b x ≠ syndromesOfB := by
  intro h
  have hk : ∀ k < 8, gfScale b k x = syndromesOfB.getD k 0 := fun k hk => by rw [← h, getD_powerSyndromes hk]
  have hx0 : x = 17 := (hk 0 (by decide)).trans (by decide +kernel)
  have h1 : gfMul x b = 116 := (hk 1 (by decide)).trans (by decide +kernel)
  have h2 : gfMul (gfMul x b) b = 34 := (hk 2 (by decide)).trans (by decide +kernel)
  have hb' : gfMul 116 (gfInv 17) = b := by rw [← h1, ← hx0]; exact gfMul_gfInv_cancel hx hb h0
  rw [h1, ← hb'] at h2
  exact absurd h2 (by decide +kernel)

/-- A stored codeword with symbol `i` changed by `x` is corrected to the data stored. -/
theorem classify_of_one_error {data d c : List Byte} (hl : data.length = 64) {i : Nat} {x : Byte} (hi : i < 72)
    (hx : x ≠ 0) (h : d ++ c = (data ++ storedCheck data false).set i ((data ++ storedCheck data false).getD i 0 ^^^ x)) :
    classify d c = ⟨data, .corrected⟩ := by
  have hx0 : x.toNat ≠ 0 := fun e => hx (BitVec.eq_of_toNat_eq e)
  obtain ⟨j, hj, rfl⟩ : ∃ j < 72, i = 71 - j := ⟨71 - i, by omega, by omega⟩
  have zeros8 : ∀ k < 8, [0, 0, 0, 0, 0, 0, 0, 0].getD k 0 = 0 := by decide
  generalize hw : (data ++ storedCheck data false).map (·.toNat) = cw
  have hlen : cw.length = 72 := by simp [← hw, hl]
  have hbytes : AllBytes cw := hw ▸ allBytes_toNat _
  have hread : (d ++ c).map (·.toNat) = cw.set (71 - j) (cw.getD (71 - j) 0 ^^^ x.toNat) := by
    have hg : ((data ++ storedCheck data false).getD (71 - j) 0).toNat = cw.getD (71 - j) 0 := by
      rw [← hw]
      exact (List.getD_map _ 0 fun b : Byte => b.toNat).symm
    rw [h, List.map_set, BitVec.toNat_xor, hg, hw]
  have hsyn : syndromes ((d ++ c).map (·.toNat)) = powerSyndromes (gfAlpha j) x.toNat := by
    rw [← syndromes_oneSymbol hj x.isLt, hread, set_eq_zipWith_oneSymbol cw (by omega), hlen]
    refine List.map_congr_left fun k hk => ?_
    have hz : polyAt cw (gfAlpha k) = 0 := by
      rw [← getD_syndromes cw (List.mem_range.1 hk), ← hw, syndromes_encoded]
      exact zeros8 k (List.mem_range.1 hk)
    rw [polyAt_zipWith_xor _ hbytes (allBytes_oneSymbol 72 _ x.isLt) (by simp [hlen, oneSymbol]), hz, Nat.zero_xor]
  have hne : powerSyndromes (gfAlpha j) x.toNat ≠ [0, 0, 0, 0, 0, 0, 0, 0] := fun e => hx0 (by
    have h0 := getD_powerSyndromes (b := gfAlpha j) (x := x.toNat) (k := 0) (by decide)
    rw [e] at h0
    exact h0.symm)
  have hfix : ((applyErrors ((d ++ c).map (·.toNat)) [(71 - j, x.toNat)]).take 64).map (BitVec.ofNat 8) = data := by
    have hback : applyErrors ((d ++ c).map (·.toNat)) [(71 - j, x.toNat)] = cw := by
      rw [hread, applyErrors, List.foldl_cons, List.foldl_nil, setAt_eq_set, List.set_set]
      have hin : 71 - j < cw.length := by omega
      simp [hin]
    rw [hback, ← hw, List.map_append, List.take_left' (by simpa using hl), List.map_map]
    exact List.map_id'' (fun b => BitVec.ofNat_toNat ..) data
  unfold classify
  dsimp only
  rw [hsyn, if_neg hne, if_neg (powerSyndromes_ne_blight (gfAlpha_lt j) x.isLt hx0),
    findErrors_powerSyndromes hj x.isLt hx0]
  exact congrArg (CwRead.mk · .corrected) hfix

/-- Codewords read as they are stored, and one symbol in error is corrected (R60 to R64). -/
theorem codewordsReadAsStored : Claims.CodewordsReadAsStored := by
  intro data hl
  refine ⟨classify_storedCheck_clean data, classify_storedCheck_blight data, fun i x hi hx => ?_, fun i x hi hx => ?_⟩
  · refine classify_of_one_error hl (i := i) (x := x) (by omega) hx ?_
    rw [setAt_eq_set, List.set_append_left _ _ (by omega), List.getD_append _ _ _ _ (by omega)]
  · refine classify_of_one_error hl (i := 64 + i) (x := x) (by omega) hx ?_
    rw [setAt_eq_set, List.set_append_right _ _ (by omega), List.getD_append_right _ _ _ _ (by omega), hl,
      Nat.add_sub_cancel_left]

end Sys2Proof.Machine

/-! ## The bytes of a packet (R338, R340) -/

namespace Sys2Proof.Machine

theorem field_leBytes {n v : Nat} (bs : List Byte) (h : v < 256 ^ n) : field (leBytes n v ++ bs) 0 n = v := by
  rw [field, List.drop_zero, List.take_left' (leBytes_length n v), leNat_leBytes, Nat.mod_eq_of_lt h]

theorem field_append {as bs : List Byte} {off n : Nat} (h : as.length ≤ off) :
    field (as ++ bs) off n = field bs (off - as.length) n := by
  rw [field, List.drop_append, List.drop_eq_nil_of_le h, List.nil_append, field]

theorem padTo_of_length {n : Nat} {bs : List Byte} (h : bs.length = n) : padTo n bs = bs := List.take_left' h

section Packet

variable {k : Packet} (h : PacketFits k) (rest : List Byte)

/-- The routing byte of a packet (R338). -/
def Packet.route (k : Packet) : Nat := k.cls + 4 * k.vcd + 8 * k.zdir + 16 * k.zset

/-- The bytes of a packet that fits, and what follows them. -/
theorem bytes_append : k.bytes ++ rest = leBytes 1 k.op ++ (leBytes 1 k.route ++ (leBytes 2 k.dst ++ (leBytes 2 k.src ++
    (leBytes 2 (k.len + 512 * k.blight) ++ (padTo 8 k.args ++ (padTo k.follows k.data ++ rest)))))) := by
  simp only [Packet.bytes, Packet.route, List.append_assoc]

include h

theorem field_bytes_op : field (k.bytes ++ rest) 0 1 = k.op := by
  rw [bytes_append]
  exact field_leBytes _ h.op.2

theorem field_bytes_route : field (k.bytes ++ rest) 1 1 = k.route := by
  obtain ⟨hc, hv, hd, hz⟩ := h.route
  rw [bytes_append, field_append (by simp)]
  exact field_leBytes _ (by rw [Packet.route]; omega)

theorem field_bytes_dst : field (k.bytes ++ rest) 2 2 = k.dst := by
  have hd := h.ends.1
  rw [bytes_append, field_append (by simp), field_append (by simp)]
  exact field_leBytes _ (by omega)

theorem field_bytes_src : field (k.bytes ++ rest) 4 2 = k.src := by
  have hs := h.ends.2
  rw [bytes_append, field_append (by simp), field_append (by simp), field_append (by simp)]
  exact field_leBytes _ (by omega)

theorem field_bytes_len : field (k.bytes ++ rest) 6 2 = k.len + 512 * k.blight := by
  obtain ⟨hl, hb, -, -⟩ := h.sizes
  rw [bytes_append, field_append (by simp), field_append (by simp), field_append (by simp), field_append (by simp)]
  exact field_leBytes _ (by omega)

/-- A packet's header is 16 bytes, and its data follow. -/
theorem bytes_eq_header : ∃ hd : List Byte, hd.length = 8 ∧ k.bytes = hd ++ (k.args ++ k.data) := by
  obtain ⟨-, -, ha, hd⟩ := h.sizes
  refine ⟨leBytes 1 k.op ++ leBytes 1 k.route ++ leBytes 2 k.dst ++ leBytes 2 k.src ++
    leBytes 2 (k.len + 512 * k.blight), by simp, ?_⟩
  rw [Packet.bytes, padTo_of_length ha, padTo_of_length hd, Packet.route, List.append_assoc]

theorem length_bytes : k.bytes.length = 16 + k.follows := by
  obtain ⟨-, -, ha, hd⟩ := h.sizes
  obtain ⟨hdr, hl, e⟩ := bytes_eq_header h
  rw [e, List.length_append, List.length_append, hl, ha, hd]
  omega

/-- A packet reads back from its bytes. -/
theorem parse_bytes : Packet.parse (k.bytes ++ rest) = k := by
  obtain ⟨hc, hv, hz, hs⟩ := h.route
  obtain ⟨hdst, hsrc⟩ := h.ends
  obtain ⟨hl, hb, ha, hd⟩ := h.sizes
  obtain ⟨hdr, h8, e⟩ := bytes_eq_header h
  have hargs : ((k.bytes ++ rest).drop 8).take 8 = k.args := by
    rw [e, List.append_assoc, List.drop_left' h8, List.append_assoc, List.take_left' ha]
  have hdata : ((k.bytes ++ rest).drop 16).take k.follows = k.data := by
    rw [e, ← List.append_assoc hdr, List.append_assoc (hdr ++ k.args), List.drop_left' (by simp [h8, ha]),
      List.take_left' hd]
  have hlen : (k.len + 512 * k.blight) % 512 = k.len := by omega
  have hblight : bits (k.len + 512 * k.blight) 12 9 = k.blight := by unfold bits; omega
  have hcls : k.route % 4 = k.cls := by unfold Packet.route; omega
  have hvcd : bits k.route 2 2 = k.vcd := by unfold bits Packet.route; omega
  have hzdir : bits k.route 3 3 = k.zdir := by unfold bits Packet.route; omega
  have hzset : bits k.route 4 4 = k.zset := by unfold bits Packet.route; omega
  unfold Packet.parse
  dsimp only
  rw [field_bytes_op h, field_bytes_route h, field_bytes_dst h, field_bytes_src h, field_bytes_len h, hlen, hblight,
    hcls, hvcd, hzdir, hzset, hargs, Nat.mod_eq_of_lt hdst, Nat.mod_eq_of_lt hsrc]
  exact congrArg (fun d => { k with data := d }) hdata

theorem headerClean_bytes : headerClean (k.bytes ++ rest) = true := by
  obtain ⟨hc, hv, hz, hs⟩ := h.route
  obtain ⟨hdst, hsrc⟩ := h.ends
  obtain ⟨hl, hb, -, -⟩ := h.sizes
  unfold headerClean
  rw [field_bytes_route h, field_bytes_dst h, field_bytes_src h, field_bytes_len h, Packet.route]
  simp only [Bool.and_eq_true, decide_eq_true_eq]
  omega

/-- The first byte of a packet is its OP. -/
theorem headD_bytes : (k.bytes ++ rest).headD 0 ≠ 0 := by
  obtain ⟨h0, h256⟩ := h.op
  intro e
  have hop := field_bytes_op h rest
  have hne : k.bytes ++ rest ≠ [] := fun e => by
    have hlen := length_bytes h
    rw [(List.append_eq_nil_iff.1 e).1] at hlen
    rw [List.length_nil] at hlen
    omega
  obtain ⟨b, bs, hbs⟩ := List.exists_cons_of_ne_nil hne
  rw [hbs] at e hop
  obtain rfl : b = 0 := e
  simp [field, leNat] at hop
  omega

end Packet

/-- Packets read back from their bytes, one by one (R338, R340). -/
theorem packetBytesRoundTrip : Claims.PacketBytesRoundTrip := by
  intro k h
  have hp := parse_bytes h []
  have hc := headerClean_bytes h []
  rw [List.append_nil] at hp hc
  refine ⟨hp, hc, fun rest n => ?_⟩
  have hl : (k.bytes ++ rest).length = 16 + k.follows + rest.length := by rw [List.length_append, length_bytes h]
  rw [State.cutPackets]
  dsimp only
  rw [if_neg (headD_bytes h rest), if_neg (by omega), parse_bytes h, if_neg (by omega), if_pos (headerClean_bytes h rest),
    List.drop_left' (length_bytes h)]

/-- Settles O30: codewords by their syndromes, packets by the fields of their bytes. -/
theorem codewordsAndPacketsReadBack : Obligations.CodewordsAndPacketsReadBack :=
  ⟨codewordsReadAsStored, packetBytesRoundTrip⟩

end Sys2Proof.Machine

/-! ## What packets and the heads leave of the TRACE and DOORBELL registers -/

namespace Sys2Proof.Machine

/-- The registers of the TRACE page and of the DOORBELL pages that no report, no traffic and no tile's work reaches. The
error registers and offset 0x58 of a DOORBELL page are left out: a head or port number past the last one would name them. -/
def Steady (a : Nat) : Prop :=
  (0x6000 ≤ a ∧ a < 0x7000) ∨ (0x100000 ≤ a ∧ a < 0x1000000 ∧ 0x28 ≤ a % 0x1000 ∧ a % 0x1000 ≠ 0x58)

theorem steady_dbReg {q o : Nat} (hq : q < 64) (ho : o ∈ [0x40, 0x50, 0x64]) : Steady (State.dbReg q o) := by
  have hbase : (Page.doorbell q).base = 0x100000 + q * 0x1000 := rfl
  simp only [List.mem_cons, List.not_mem_nil, or_false] at ho
  unfold Steady State.dbReg
  omega

/-- The pages that reports and tiles write: their error registers are none of the steady ones. -/
theorem Steady.outside {a : Nat} (ha : Steady a) {b : Nat} (hb : 0x40000 ≤ b) (hm : b % 0x1000 = 0) :
    a < b + 0x14 ∨ b + 0x28 ≤ a := by
  unfold Steady at ha
  omega

theorem Steady.ne_host {a : Nat} (ha : Steady a) {h : Nat} (hh : h < 2) (o : Nat) (ho : o < 0x1000) :
    a ≠ (Page.host h).base + o := by
  simp only [Page.base]; unfold Steady at ha; omega

theorem Steady.ne_ridge {a : Nat} (ha : Steady a) (p : Nat) {o : Nat} (ho : p < 6 ∧ o < 0x1000 ∨ o = 0x58) :
    a ≠ (Page.ridge p).base + o := by
  simp only [Page.base]; unfold Steady at ha; omega

theorem Steady.ne_tile {a : Nat} (ha : Steady a) (t o : Nat) : a ≠ (Page.tile t).base + o := by
  simp only [Page.base]; unfold Steady at ha; omega

namespace State

variable (s : State) {a : Nat} (ha : Steady a)

/-- Register `a`, and what waits on the mesh, in the pillars and in the barn channels. -/
def trafficView (a : Nat) (s : State) : Nat × List MemReq × SMap Pillar × SMap Channel :=
  (s.reg a, s.mesh, s.pillars, s.channels)

theorem trafficView_of_unreported {s s' : State} (e : s'.unreported = s.unreported) (hr : s'.reg a = s.reg a) :
    s'.trafficView a = s.trafficView a := by
  have h : (s'.mesh, s'.pillars, s'.channels) = (s.mesh, s.pillars, s.channels) :=
    (congrArg (fun x : State => (x.mesh, x.pillars, x.channels)) e :)
  rw [trafficView, trafficView, hr, h]

theorem trafficView_setReg_ne {b : Nat} (h : a ≠ b) (v : Nat) : (s.setReg b v).trafficView a = s.trafficView a :=
  trafficView_of_unreported (setReg_unreported s b v) (reg_setReg_ne _ _ _ _ h)

theorem trafficView_setF_ne {b : Nat} (h : a ≠ b) (hi lo v : Nat) : (s.setF b hi lo v).trafficView a = s.trafficView a :=
  trafficView_setReg_ne s h _

theorem trafficView_addF_ne {b : Nat} (h : a ≠ b) (hi lo v : Nat) : (s.addF b hi lo v).trafficView a = s.trafficView a :=
  trafficView_setF_ne s h _ _ _

include ha

theorem reg_log_host (h : Nat) (c : Cause) : (s.log (.host h) c).reg a = s.reg a :=
  reg_log_outside s _ c (ha.outside (by simp only [Page.base]; omega) (by simp only [Page.base]; omega))

theorem reg_log_tally (c : Cause) : (s.log (.tally 16) c).reg a = s.reg a :=
  reg_log_outside s _ c (ha.outside (by decide) (by decide))

/-! ### Packets -/

theorem sendFlit_traffic (p : Nat) (data lcr : Bool) (bs : List Byte) (ks : List Packet) :
    (s.sendFlit p data lcr bs ks).trafficView a = s.trafficView a := by
  unfold sendFlit
  dsimp only
  split
  · exact trafficView_addF_ne _ (ha.ne_ridge p (.inr rfl)) _ _ _
  · rfl

theorem pump_traffic (p n : Nat) : (s.pump p n).trafficView a = s.trafficView a := by
  induction n generalizing s with
  | zero => rfl
  | succ n ih =>
    unfold pump
    dsimp only
    split
    · split
      · rfl
      · rw [ih, sendFlit_traffic _ ha]
        rfl
    · rfl

theorem leaveBy_traffic (i p : Nat) (k : Packet) : (s.leaveBy i p k).trafficView a = s.trafficView a :=
  pump_traffic _ ha _ _

theorem showHeld_traffic : s.showHeld.trafficView a = s.trafficView a :=
  List.foldlRecOn (motive := fun x : State => x.trafficView a = s.trafficView a) (List.range 6) _ rfl fun x ih p hp =>
    (trafficView_setF_ne x (ha.ne_ridge p (.inl ⟨List.mem_range.1 hp, by decide⟩)) _ _ _).trans ih

theorem logUnreach_traffic (k : Packet) : (s.logUnreach k).trafficView a = s.trafficView a := by
  have hl : (s.logAs (.ridge 0) .unreach false 0).2.trafficView a = s.trafficView a :=
    trafficView_of_unreported (logAs_unreported s _ _ _ _)
      (reg_logAs_outside s _ _ _ _ (ha.outside (by decide) (by decide)))
  unfold logUnreach
  dsimp only
  split
  · exact (trafficView_setReg_ne _ (by unfold Steady at ha; omega) _).trans hl
  · exact hl

theorem injectAt_traffic (i : Nat) (k : Packet) (n : Nat) : (s.injectAt i k n).2.trafficView a = s.trafficView a := by
  induction n generalizing i k with
  | zero => rfl
  | succ n ih =>
    unfold injectAt
    split
    · rfl
    · dsimp only
      split
      · exact showHeld_traffic _ ha
      · exact leaveBy_traffic _ ha _ _ _
    · split
      · extract_lets args reply
        split
        · rfl
        · split
          · rfl
          · exact ih _ _
      · exact logUnreach_traffic _ ha _

theorem inject_traffic (k : Packet) (n : Nat) : (s.inject k n).2.trafficView a = s.trafficView a :=
  injectAt_traffic s ha 6 k n

theorem reg_inject (k : Packet) (n : Nat) : (s.inject k n).2.reg a = s.reg a := (congrArg Prod.fst (inject_traffic s ha k n) :)

/-! ### Requests that go on -/

omit ha in
theorem handOn_regs {r : MemReq} {s' : State} (h : s.handOn r = some s') : s'.regs = s.regs :=
  handOn_keeps s State.regs (fun _ _ _ => rfl) (fun _ _ _ => rfl) h

theorem reg_handHead {h : Nat} {s' : State} (e : s.handHead h = some s') : s'.reg a = s.reg a := by
  unfold handHead at e
  split at e
  · cases e
  · split at e
    · cases e
    · dsimp only at e
      split at e
      · obtain ⟨x, hx, rfl⟩ := Option.map_eq_some_iff.1 e
        rw [onHost_reg]
        exact reg_of_regs_eq (handOn_regs _ hx) a
      · cases e; simp [respond]
      · cases e; simp
      · cases e
        rw [emit_reg, reg_log_host _ ha, onHost_reg]

omit ha in
theorem handMesh_regs {rs rs' : List MemReq} {seen : List Nat} {s' : State} (e : s.handMesh seen rs = some (s', rs')) :
    s'.regs = s.regs := by
  induction rs generalizing seen rs' with
  | nil => cases e
  | cons r rs ih =>
    have later : ∀ k, (s.handMesh k rs).map (fun x => (x.1, r :: x.2)) = some (s', rs') → s'.regs = s.regs := by
      intro k h
      obtain ⟨x, hx, hx'⟩ := Option.map_eq_some_iff.1 h
      cases hx'
      exact ih hx
    unfold handMesh at e
    dsimp only at e
    split at e
    · exact later _ e
    · split at e
      · next hs =>
        cases e
        exact handOn_regs _ hs
      · exact later _ e

theorem reg_serveOne {s' : State} (e : s.serveOne = some s') : s'.reg a = s.reg a := by
  unfold serveOne at e
  obtain ⟨i, -, hi⟩ := List.exists_of_findSome?_eq_some e
  obtain ⟨x, hx, rfl⟩ := Option.map_eq_some_iff.1 hi
  dsimp only at hx
  change x.reg a = s.reg a
  split at hx
  · obtain ⟨y, hy, rfl⟩ := Option.map_eq_some_iff.1 hx
    exact reg_of_regs_eq (handMesh_regs s (rs' := y.2) hy :) a
  · exact reg_handHead s ha hx

theorem reg_serve (n : Nat) : (s.serve n).reg a = s.reg a := by
  induction n generalizing s with
  | zero => rfl
  | succ n ih =>
    unfold serve
    split
    · next h => exact (ih _).trans (reg_serveOne s ha h)
    · rfl

theorem reg_updatePanic : s.updatePanic.reg a = s.reg a := by
  have h0 := ha.ne_host (h := 0) (by decide) 0x4C (by decide)
  have h1 := ha.ne_host (h := 1) (by decide) 0x4C (by decide)
  unfold updatePanic
  dsimp only
  rw [reg_setF_ne _ _ _ _ _ _ h1, reg_setF_ne _ _ _ _ _ _ h0]

theorem reg_drainHosts : s.drainHosts.reg a = s.reg a := (reg_updatePanic _ ha).trans (reg_serve s ha _)

theorem reg_countCycles (t off : Nat) : (s.countCycles t off).reg a = s.reg a := reg_addF_ne _ _ _ _ _ _ (ha.ne_tile t off)

omit ha in
theorem settleBanks_regs (t : Nat) (qs : List Nat) : (s.settleBanks t qs).regs = s.regs := by
  unfold settleBanks; dsimp only; split <;> rfl

end State
end Sys2Proof.Machine

/-! ## What stopping and resetting tiles leaves (R41, R132, R134, R168) -/

namespace Sys2Proof.Machine

namespace State

variable (s : State)

/-! ### Beyond the tiles -/

/-- Register `a`, and the state but for its tiles and their checks, and for what reports and traffic may change. -/
def stopView (a : Nat) (s : State) : Nat × State := (s.reg a, { s.interior with tiles := [], tithe := .reset })

/-- What resetting a tile leaves of it: the report of a fault that waits with its trace record is given up. -/
def resetView (a : Nat) (s : State) : Nat × State := (s.reg a, { (s.stopView a).2 with traceQ := [] })

theorem stopView_of_interior {s s' : State} {a : Nat} (e : s'.interior = s.interior) (hr : s'.reg a = s.reg a) :
    s'.stopView a = s.stopView a := by
  rw [stopView, stopView, e, hr]

theorem resetView_of_stopView {s s' : State} {a : Nat} (e : s'.stopView a = s.stopView a) :
    s'.resetView a = s.resetView a :=
  (congrArg (fun x : Nat × State => (x.1, { x.2 with traceQ := [] })) e :)

section Views

variable {s} {s' : State} {a : Nat}

theorem reg_of_stopView (e : s'.stopView a = s.stopView a) : s'.reg a = s.reg a := (congrArg Prod.fst e :)
theorem gang_of_stopView (e : s'.stopView a = s.stopView a) (g : Nat) : s'.gang g = s.gang g :=
  (congrArg (fun x : Nat × State => x.2.gang g) e :)

end Views

variable {a : Nat} (ha : Steady a)

theorem dropWrites_interior (t : Nat) : (s.dropWrites t).interior = s.interior := by
  unfold dropWrites
  extract_lets mine s₁ s₂
  have h₂ : s₂.interior = s.interior := by
    refine (foldEach_keeps interior _ (fun c r => ?_) _ _).trans rfl
    split <;> rfl
  split
  · exact h₂
  · rw [drainHosts_interior, h₂]

theorem countStopped_interior (t : Nat) : (s.countStopped t).interior = s.interior := by
  unfold countStopped
  dsimp only
  rw [foldEach_keeps interior _ fun off r => countCycles_interior r t off]
  split <;> split <;> rfl

@[simp] theorem onTile_stopView (t : Nat) (f : Tile → Tile) : (s.onTile t f).stopView a = s.stopView a := rfl

theorem restRuns_stopView (t : Nat) (c : TitheStep) : (s.restRuns t c).stopView a = s.stopView a := by
  unfold restRuns
  refine foldEach_keeps (stopView a) _ (fun pt r => ?_) _ _
  split <;> rfl

theorem dropCheck_stopView (t : Nat) : (s.dropCheck t).stopView a = s.stopView a := by
  unfold dropCheck
  split
  · rfl
  · dsimp only
    split
    · exact restRuns_stopView s t _
    · rfl

theorem keepRelease_stopView (t : Nat) : (s.keepRelease t).stopView a = s.stopView a := by
  unfold keepRelease; dsimp only; split <;> rfl

include ha

theorem dropWrites_stopView (t : Nat) : (s.dropWrites t).stopView a = s.stopView a := by
  refine stopView_of_interior (dropWrites_interior s t) ?_
  unfold dropWrites
  extract_lets mine s₁ s₂
  have h₂ : s₂.reg a = s.reg a := by
    refine (foldEach_keeps (fun r : State => r.reg a) _ (fun c r => ?_) _ _).trans rfl
    split <;> rfl
  split
  · exact h₂
  · rw [reg_drainHosts _ ha, h₂]

theorem countStopped_stopView (t : Nat) : (s.countStopped t).stopView a = s.stopView a := by
  refine stopView_of_interior (countStopped_interior s t) ?_
  unfold countStopped
  dsimp only
  rw [foldEach_keeps (fun r : State => r.reg a) _ fun off r => reg_countCycles r ha t off]
  split <;> split <;> simp only [reg_countCycles _ ha]

theorem dropInflight_stopView (u : Nat) (e : BitVec 32) (r : Receiver) :
    (dropInflight u e r s).stopView a = s.stopView a := by
  unfold dropInflight
  cases r with
  | tile pt =>
    dsimp only
    split
    · rw [stopView_of_interior (drainHosts_interior _) (reg_drainHosts _ ha), onTile_stopView]
      exact (stopView_of_interior (countCycles_interior s u 0x90) (reg_countCycles s ha u 0x90))
    · rfl
  | barn => rfl
  | remote n k => rfl

theorem sendCommit_stopView (t : Nat) (e : BitVec 32) (b : Bool) (r : Receiver) :
    (sendCommit t e b r s).stopView a = s.stopView a := by
  unfold sendCommit
  cases r with
  | tile u => rfl
  | barn => rfl
  | remote n k => exact stopView_of_interior (inject_interior s _ _) (reg_inject s ha _ _)

theorem gateAbort_stopView (t : Nat) : (s.gateAbort t).stopView a = s.stopView a := by
  unfold gateAbort
  dsimp only
  split
  · rfl
  · rfl
  · rw [onTile_stopView, foldEach_keeps (stopView a) _ (fun r s => sendCommit_stopView s ha _ _ _ r),
      foldEach_keeps (stopView a) _ (fun r s => dropInflight_stopView s ha _ _ r)]

theorem stopTile_stopView (t : Nat) : (s.stopTile t).stopView a = s.stopView a := by
  unfold stopTile
  dsimp only
  rw [stopView_of_interior (settleBanks_interior _ _ _) (reg_of_regs_eq (settleBanks_regs _ _ _) a), onTile_stopView,
    dropWrites_stopView _ ha, gateAbort_stopView _ ha, countStopped_stopView _ ha]

theorem stopOthers_stopView (g : Nat) (t : Option Nat) : (s.stopOthers g t).stopView a = s.stopView a := by
  unfold stopOthers
  refine foldEach_keeps (stopView a) _ (fun u r => ?_) _ _
  split
  · rfl
  · rw [stopTile_stopView _ ha, dropCheck_stopView]

theorem resetTile_resetView (t : Nat) : (s.resetTile t).resetView a = s.resetView a := by
  have hd : ∀ r : State, (r.dropReport t).resetView a = r.resetView a := fun _ => rfl
  unfold resetTile
  dsimp only
  rw [resetView_of_stopView (stopView_of_interior (settleBanks_interior _ _ _)
      (reg_of_regs_eq (settleBanks_regs _ _ _) a)), resetView_of_stopView (onTile_stopView _ _ _), hd,
    resetView_of_stopView (dropWrites_stopView _ ha t), resetView_of_stopView (keepRelease_stopView _ t),
    resetView_of_stopView (gateAbort_stopView _ ha t), resetView_of_stopView (countStopped_stopView _ ha t),
    resetView_of_stopView (dropCheck_stopView _ t)]

end State
end Sys2Proof.Machine

namespace Sys2Proof.Machine

/-! ### The tiles themselves -/

/-- A tile but for its gate, the releases and aborts that it awaits, its cycle counter and what other tiles send it. -/
def Tile.body (x : Tile) : Tile := { x.own with gate := .closed, released := [], aborts := [] }

@[simp] theorem Tile.body_core (x : Tile) : x.body.core = x.core := rfl
@[simp] theorem Tile.body_gang (x : Tile) : x.body.gang = x.gang := rfl
@[simp] theorem Tile.body_imem (x : Tile) : x.body.imem = x.imem := rfl

theorem body_of_own {x y : Tile} (e : y.own = x.own) : y.body = x.body :=
  (congrArg (fun z : Tile => { z with gate := .closed, released := [], aborts := [] }) e :)

/-- A tile that stops with its core as `c`. -/
def Tile.stopped (x : Tile) (c : CoreState) : Tile :=
  { x with core := c, queue := [], stalledEntry := none, loops := [], lattice := none }

/-- What a tile whose gate aborts, or which is rested as the place of another's check, keeps. -/
structure BodyFact (P : Tile → Prop) : Prop where
  body : ∀ {x y : Tile}, y.body = x.body → P x → P y
  rest : ∀ {x : Tile}, P x → P x.rest

/-- A fact of a tile's gang and instruction memory. -/
theorem bodyFact_place (P : Option Nat → SMap Word → Prop) : BodyFact fun x => P x.gang x.imem where
  body {x y} e h := by
    rw [← x.body_gang, ← x.body_imem, ← e] at h
    exact h
  rest h := h

theorem bodyFact_true : BodyFact fun _ => True := ⟨fun _ _ => trivial, fun _ => trivial⟩

namespace State

variable (s : State)

theorem onTile_body {f : Tile → Tile} (hf : ∀ x, (f x).body = x.body) (t u : Nat) :
    ((s.onTile t f).tile u).body = (s.tile u).body := by
  rw [tile_onTile]
  split
  · next h => rw [hf, h]
  · rfl

theorem gateAbort_body (t u : Nat) : ((s.gateAbort t).tile u).body = (s.tile u).body := by
  unfold gateAbort
  dsimp only
  split
  · rfl
  · rfl
  · refine (onTile_body _ ?_ _ _).trans (body_of_own ?_)
    · exact fun _ => rfl
    exact (foldEach_keeps (fun r : State => (r.tile u).own) _ (fun r s => sendCommit_own s _ _ _ r u) _ _).trans
      (foldEach_keeps (fun r : State => (r.tile u).own) _ (fun r s => dropInflight_own s _ _ r u) _ _)

theorem keepRelease_body (t u : Nat) : ((s.keepRelease t).tile u).body = (s.tile u).body := by
  unfold keepRelease
  dsimp only
  split
  · refine onTile_body s ?_ t u
    exact fun _ => rfl
  · rfl

theorem tile_dropReport (t u : Nat) : (s.dropReport t).tile u = s.tile u := rfl

variable {P Q : Tile → Prop} (hP : BodyFact P) {t u : Nat}

include hP

theorem restRuns_keeps (c : TitheStep) (h : P (s.tile u)) : P ((s.restRuns t c).tile u) := by
  unfold restRuns
  refine foldEach_invariant (P := fun r : State => P (r.tile u)) (fun pt r hr => ?_) h
  split
  · exact hr
  · rw [tile_onTile]
    split
    · next e => exact hP.rest (e ▸ hr)
    · exact hr

/-- Dropping a check rests the places that run it, and changes no other tile (R410). -/
theorem dropCheck_keeps (h : P (s.tile u)) : P ((s.dropCheck t).tile u) := by
  unfold dropCheck
  split
  · exact h
  · dsimp only
    split
    · exact restRuns_keeps s hP _ h
    · exact h

omit hP in
/-- A tile that stops: only its core, its queue, its loops and the lattice's owner change (R132). -/
theorem stopTile_body : ∃ c, (c = .halted ∨ c = .idle ∨ c = .faulted) ∧
    ((s.stopTile t).tile t).body = ((s.tile t).body).stopped c := by
  have e : (((((s.countStopped t).gateAbort t).dropWrites t)).tile t).body = (s.tile t).body := by
    rw [tile_of_interior (dropWrites_interior _ t), gateAbort_body, tile_of_interior (countStopped_interior _ t)]
  unfold stopTile
  dsimp only
  rw [tile_of_interior (settleBanks_interior _ _ _), tile_onTile_self]
  have hs : ∀ {x y : Tile} (c : CoreState), y.body = x.body → (y.stopped c).body = x.body.stopped c :=
    fun c e => congrArg (Tile.stopped · c) e
  refine ⟨_, ?_, hs _ e⟩
  split
  · exact .inl rfl
  · exact .inr (.inl rfl)
  · exact .inr (.inr rfl)

theorem stopTile_keeps_ne (hu : u ≠ t) (h : P (s.tile u)) : P ((s.stopTile t).tile u) := by
  unfold stopTile
  dsimp only
  rw [tile_of_interior (settleBanks_interior _ _ _), tile_onTile_ne _ _ _ _ hu,
    tile_of_interior (dropWrites_interior _ t)]
  refine hP.body (gateAbort_body _ _ _) ?_
  rwa [tile_of_interior (countStopped_interior _ t)]

omit hP in
/-- Resetting a tile leaves of it what `resetTileState` does (R134). -/
theorem resetTile_self (hQ : BodyFact Q) (hr : ∀ x, Q x → P (resetTileState x)) (h : Q (s.tile t)) :
    P ((s.resetTile t).tile t) := by
  have hq : Q ((((((s.dropCheck t).countStopped t).gateAbort t).keepRelease t).dropWrites t).tile t) := by
    rw [tile_of_interior (dropWrites_interior _ t)]
    refine hQ.body (keepRelease_body _ _ _) (hQ.body (gateAbort_body _ _ _) ?_)
    rw [tile_of_interior (countStopped_interior _ t)]
    exact dropCheck_keeps s hQ h
  unfold resetTile
  dsimp only
  rw [tile_of_interior (settleBanks_interior _ _ _), tile_onTile_self, tile_dropReport]
  exact hr _ hq

theorem resetTile_keeps_ne (hu : u ≠ t) (h : P (s.tile u)) : P ((s.resetTile t).tile u) := by
  unfold resetTile
  dsimp only
  rw [tile_of_interior (settleBanks_interior _ _ _), tile_onTile_ne _ _ _ _ hu, tile_dropReport,
    tile_of_interior (dropWrites_interior _ t)]
  refine hP.body (keepRelease_body _ _ _) (hP.body (gateAbort_body _ _ _) ?_)
  rw [tile_of_interior (countStopped_interior _ t)]
  exact dropCheck_keeps s hP h

/-- What a reset tile's own state keeps, resetting any tile keeps. -/
theorem resetTile_keeps (hr : ∀ x, P x → P (resetTileState x)) (h : P (s.tile u)) : P ((s.resetTile t).tile u) := by
  by_cases hu : u = t
  · subst hu; exact resetTile_self s hP hr h
  · exact resetTile_keeps_ne s hP hu h

end State

/-! ### Tiles that have been reset or stopped -/

/-- A tile as a reset leaves it: its instruction memory, its place in a gang and its staging area may be anything. -/
def Tile.IsReset (x : Tile) : Prop :=
  x.core = .idle ∧ x.pc = 0 ∧ x.g = [] ∧ x.queue = [] ∧ x.bin = [] ∧ x.crib = []

theorem bodyFact_isReset : BodyFact Tile.IsReset where
  body {x y} e h := by
    have hf : (y.core, y.pc, y.g, y.queue, y.bin, y.crib) = (x.core, x.pc, x.g, x.queue, x.bin, x.crib) :=
      (congrArg (fun z : Tile => (z.core, z.pc, z.g, z.queue, z.bin, z.crib)) e :)
    simp only [Prod.mk.injEq] at hf
    obtain ⟨hcore, hpc, hg, hqueue, hbin, hcrib⟩ := hf
    rw [Tile.IsReset, hcore, hpc, hg, hqueue, hbin, hcrib]
    exact h
  rest h := ⟨rfl, h.2.1, h.2.2.1, rfl, h.2.2.2.2⟩

/-- A tile whose core has stopped: halted, faulted or never started. -/
def Tile.AtRest (x : Tile) : Prop := x.core = .halted ∨ x.core = .idle ∨ x.core = .faulted

theorem bodyFact_atRest : BodyFact Tile.AtRest where
  body {x y} e h := by
    rw [Tile.AtRest, ← x.body_core, ← e] at h
    exact h
  rest _ := .inr (.inl rfl)

theorem tileReset_of_isReset {s s' : State} {t : Nat} (h : (s'.tile t).IsReset) (hi : (s'.tile t).imem = (s.tile t).imem) :
    TileReset s s' t := by
  obtain ⟨hcore, hpc, hg, hqueue, hbin, hcrib⟩ := h
  refine ⟨hcore, hpc, fun r => ?_, hqueue, fun a => ?_, fun a => ?_, hi⟩
  · rw [Tile.rd, hg]; exact ite_self _
  · rw [hbin]; rfl
  · rw [hcrib]; rfl

namespace State

variable (s : State)

/-- Resetting a tile resets it (R134). -/
theorem resetTile_isReset (t : Nat) : ((s.resetTile t).tile t).IsReset :=
  resetTile_self s (P := Tile.IsReset) bodyFact_true (fun _ _ => ⟨rfl, rfl, rfl, rfl, rfl, rfl⟩) trivial

/-- A tile that has been reset stays so while others are. -/
theorem resetTile_keeps_isReset {t u : Nat} (h : (s.tile u).IsReset) : ((s.resetTile t).tile u).IsReset := by
  by_cases hu : u = t
  · subst hu; exact resetTile_isReset s u
  · exact resetTile_keeps_ne s bodyFact_isReset hu h

/-- Resetting a tile keeps every tile's place in a gang and its instruction memory. -/
theorem resetTile_place (t u : Nat) :
    ((s.resetTile t).tile u).gang = (s.tile u).gang ∧ ((s.resetTile t).tile u).imem = (s.tile u).imem :=
  resetTile_keeps s (bodyFact_place fun g m => g = (s.tile u).gang ∧ m = (s.tile u).imem) (fun _ h => h) ⟨rfl, rfl⟩

theorem stopTile_atRest (t : Nat) : ((s.stopTile t).tile t).AtRest := by
  obtain ⟨c, hc, e⟩ := s.stopTile_body (t := t)
  rw [Tile.AtRest, ← Tile.body_core, e]
  exact hc

theorem stopTile_keeps_atRest {t u : Nat} (h : (s.tile u).AtRest) : ((s.stopTile t).tile u).AtRest := by
  by_cases hu : u = t
  · subst hu; exact stopTile_atRest s u
  · exact stopTile_keeps_ne s bodyFact_atRest hu h

/-- Stopping a tile keeps every tile's instruction memory. -/
theorem stopTile_imem (t u : Nat) : ((s.stopTile t).tile u).imem = (s.tile u).imem := by
  by_cases hu : u = t
  · subst hu
    obtain ⟨c, -, e⟩ := s.stopTile_body (t := u)
    rw [← Tile.body_imem, e]
    rfl
  · exact stopTile_keeps_ne s (bodyFact_place fun _ m => m = (s.tile u).imem) hu rfl

theorem dropCheck_imem (t u : Nat) : ((s.dropCheck t).tile u).imem = (s.tile u).imem :=
  dropCheck_keeps s (bodyFact_place fun _ m => m = (s.tile u).imem) rfl

theorem stopOthers_imem (g : Nat) (o : Option Nat) (u : Nat) : ((s.stopOthers g o).tile u).imem = (s.tile u).imem := by
  unfold stopOthers
  refine foldEach_keeps (fun r : State => (r.tile u).imem) _ (fun t r => ?_) _ _
  split
  · rfl
  · rw [stopTile_imem, dropCheck_imem]

end State
end Sys2Proof.Machine

namespace Sys2Proof.Machine

/-! ### Faults, and the tiles that they wake -/

theorem ite_keeps {σ β : Type} {P : σ → β} {b : β} {c : Prop} [Decidable c] {x y : σ} (hx : P x = b) (hy : P y = b) :
    P (if c then x else y) = b := by
  split <;> assumption

/-- A sheaf but for the faults that it counts. -/
def Sheaf.unfaulted (h : Sheaf) : Sheaf := { h with nfault := 0, code := 0, fseq := 0, flost := false }

/-- A gang but for what its faults leave on it and on the sheaf that it runs. -/
def Gang.unfaulted (G : Gang) : Gang :=
  { G with faulted := false, loose := 0, sheaf := G.sheaf.map Sheaf.unfaulted }

theorem Gang.unfaulted_of_sheaf {G : Gang} {h h' : Sheaf} (hs : G.sheaf = some h) (hh : h'.unfaulted = h.unfaulted) :
    ({ G with sheaf := some h' } : Gang).unfaulted = G.unfaulted := by
  rw [Gang.unfaulted, Gang.unfaulted, hs, Option.map_some, Option.map_some, hh]

namespace State

/-- Register `a`, gang `g` but for its faults, and the state but for gangs, tiles and checks and for what reports and traffic
may change. -/
def faultView (a g : Nat) (s : State) : Nat × Gang × State :=
  (s.reg a, (s.gang g).unfaulted, { (s.stopView a).2 with gangs := [] })

/-- Register `a`, gang `g` but for its faults, the fence map and the instruction memory of tile `t`. -/
def wakeView (a g t : Nat) (s : State) : Nat × Gang × Fence × SMap Word :=
  (s.reg a, (s.gang g).unfaulted, s.fence, (s.tile t).imem)

section Views

variable {s s' : State} {a g t : Nat}

theorem faultView_of_stopView (e : s'.stopView a = s.stopView a) : s'.faultView a g = s.faultView a g :=
  (congrArg (fun x : Nat × State => (x.1, (x.2.gang g).unfaulted, { x.2 with gangs := [] })) e :)

theorem wakeView_of_faultView (e : s'.faultView a g = s.faultView a g) (hi : (s'.tile t).imem = (s.tile t).imem) :
    s'.wakeView a g t = s.wakeView a g t := by
  have h : (s'.reg a, (s'.gang g).unfaulted, s'.fence) = (s.reg a, (s.gang g).unfaulted, s.fence) :=
    (congrArg (fun x : Nat × Gang × State => (x.1, x.2.1, x.2.2.fence)) e :)
  simp only [Prod.mk.injEq] at h
  obtain ⟨hr, hg, hf⟩ := h
  rw [wakeView, hr, hg, hf, hi]
  rfl

theorem wakeView_of_interior (e : s'.interior = s.interior) (hr : s'.reg a = s.reg a) :
    s'.wakeView a g t = s.wakeView a g t :=
  wakeView_of_faultView (faultView_of_stopView (stopView_of_interior e hr)) (congrArg Tile.imem (tile_of_interior e t))

end Views

variable (s : State) {a g t : Nat} (ha : Steady a)

theorem onGang_faultView (k : Nat) {f : Gang → Gang} (hf : (f (s.gang k)).unfaulted = (s.gang k).unfaulted) :
    (s.onGang k f).faultView a g = s.faultView a g := by
  have h : ((s.onGang k f).gang g).unfaulted = (s.gang g).unfaulted := by
    rw [gang_onGang]
    split
    · next e => rw [hf, e]
    · rfl
  rw [faultView, h]
  rfl

theorem faultRecord_interior (i : FaultInfo) (c : RecordContext) (t : Option Nat) :
    (s.faultRecord i c t).2.2.interior = s.interior := by
  unfold faultRecord
  dsimp only
  split
  · rw [raise_interior, addF_interior, setF_interior]
  · rw [postLines_interior, setF_interior]

/-- A fault record changes the write index of its ring, and the count of records dropped (R171). -/
theorem reg_faultRecord (i : FaultInfo) (c : RecordContext) (t : Option Nat) {a : Nat} (h54 : a ≠ 0x5054) (h60 : a ≠ 0x5060) :
    (s.faultRecord i c t).2.2.reg a = s.reg a := by
  unfold faultRecord
  dsimp only
  split
  · rw [raise_reg, reg_addF_ne _ _ _ _ _ _ h60, reg_setF_ne _ _ _ _ _ _ h54]
  · rw [reg_postLines, reg_setF_ne _ _ _ _ _ _ h54]

theorem advanceCycle_wakeView (u : Nat) : (s.advanceCycle u).wakeView a g t = s.wakeView a g t := by
  have h : ((s.advanceCycle u).tile t).imem = (s.tile t).imem := by
    unfold advanceCycle
    rw [tile_onTile]
    split
    · next e => subst e; rfl
    · rfl
  rw [wakeView, h]
  rfl

theorem onTile_wakeView {u : Nat} {f : Tile → Tile} (hf : ∀ x, (f x).imem = x.imem) :
    (s.onTile u f).wakeView a g t = s.wakeView a g t := by
  have h : ((s.onTile u f).tile t).imem = (s.tile t).imem := by
    rw [tile_onTile]
    split
    · next e => rw [hf, e]
    · rfl
  rw [wakeView, h]
  rfl

theorem traceWith_wakeView (u type queue tag qi : Nat) (f : Option (Nat × FaultInfo)) :
    (s.traceWith u type queue tag qi f).wakeView a g t = s.wakeView a g t := by
  unfold traceWith
  dsimp only
  split
  · rfl
  · split
    · exact advanceCycle_wakeView s u
    · rfl

theorem onCheck_wakeView (u : Nat) (f : TitheStep → TitheStep) : (s.onCheck u f).wakeView a g t = s.wakeView a g t := by
  obtain ⟨x, hx⟩ := s.onCheck_eq u f
  rw [hx]
  rfl

theorem signBytes_wakeView (u source entry kind b : Nat) (bs : List Byte) (m : Bool) (n : Nat) :
    (s.signBytes u source entry kind b bs m n).wakeView a g t = s.wakeView a g t := by
  induction n generalizing s b bs with
  | zero => rfl
  | succ n ih =>
    unfold signBytes
    dsimp only
    split
    · exact onCheck_wakeView s u _
    · exact (ih _ _ _).trans (onCheck_wakeView s u _)


theorem onGang_imem (k : Nat) (f : Gang → Gang) : ((s.onGang k f).tile t).imem = (s.tile t).imem := rfl

theorem gangFault_imem (k : Nat) (i : FaultInfo) (u : Nat) : ((s.gangFault k i u).tile t).imem = (s.tile t).imem := by
  have hr : ∀ c o, ((s.faultRecord i c o).2.2.tile t).imem = (s.tile t).imem := fun c o =>
    congrArg Tile.imem (tile_of_interior (faultRecord_interior s i c o) t)
  unfold gangFault
  dsimp only
  split
  · rfl
  · split
    · split
      · exact hr _ _
      · rfl
    · rw [onGang_imem, stopOthers_imem]
      split
      · exact hr _ _
      · rfl

theorem reportFault_imem (u : Nat) (i : FaultInfo) : ((s.reportFault u i).tile t).imem = (s.tile t).imem := by
  unfold reportFault
  split
  · exact gangFault_imem s _ _ _
  · rfl

include ha

theorem faultRecord_stopView (i : FaultInfo) (c : RecordContext) (o : Option Nat) :
    (s.faultRecord i c o).2.2.stopView a = s.stopView a :=
  stopView_of_interior (faultRecord_interior s i c o)
    (reg_faultRecord s i c o (by unfold Steady at ha; omega) (by unfold Steady at ha; omega))

/-- A fault changes its gang's count of faults, and stops the tiles where no sheaf runs (R168, R170). -/
theorem gangFault_faultView (k : Nat) (i : FaultInfo) (u : Nat) : (s.gangFault k i u).faultView a g = s.faultView a g := by
  have hr : ∀ c o, (s.faultRecord i c o).2.2.stopView a = s.stopView a := faultRecord_stopView s ha i
  unfold gangFault
  dsimp only
  split
  · rfl
  · split
    · next h hs =>
      rw [onGang_faultView _ _ rfl]
      split
      · refine (onGang_faultView _ k ?_).trans (faultView_of_stopView (hr _ _))
        exact Gang.unfaulted_of_sheaf ((congrArg Gang.sheaf (gang_of_stopView (hr _ _) k)).trans hs) rfl
      · exact onGang_faultView _ k (Gang.unfaulted_of_sheaf hs rfl)
    · rw [onGang_faultView _ _ rfl, faultView_of_stopView (stopOthers_stopView _ ha _ _)]
      split
      · exact (onGang_faultView _ _ rfl).trans (faultView_of_stopView (hr _ _))
      · rfl

theorem reportFault_faultView (u : Nat) (i : FaultInfo) : (s.reportFault u i).faultView a g = s.faultView a g := by
  unfold reportFault
  split
  · exact gangFault_faultView s ha _ _ _
  · rfl

theorem reportFault_wakeView (u : Nat) (i : FaultInfo) : (s.reportFault u i).wakeView a g t = s.wakeView a g t :=
  wakeView_of_faultView (reportFault_faultView s ha u i) (reportFault_imem s u i)

theorem tileFault_wakeView (u : Nat) (i : FaultInfo) : (s.tileFault u i).wakeView a g t = s.wakeView a g t := by
  have hs : ∀ r : State, (r.sweepStrike u).wakeView a g t = r.wakeView a g t := fun r =>
    wakeView_of_interior (sweepStrike_interior r u) (reg_sweepStrike r u (ha.ne_tile u 0xA0))
  have hv : ∀ r : State, ((r.dropCheck u).stopTile u).wakeView a g t = r.wakeView a g t := fun r =>
    wakeView_of_faultView
      (faultView_of_stopView ((stopTile_stopView _ ha u).trans (dropCheck_stopView r u)))
      ((stopTile_imem _ u t).trans (dropCheck_imem r u t))
  have ho : ∀ r : State, (r.onTile u fun x => { x with core := .faulted, fcode := i.code }).wakeView a g t =
      r.wakeView a g t := fun r => onTile_wakeView r (by intro; rfl)
  unfold tileFault
  dsimp only
  split
  · rw [hs, ho, hv, traceWith_wakeView]
  · rw [reportFault_wakeView _ ha, hs, ho, hv, traceWith_wakeView]

theorem endSyncWith_wakeView (u : Nat) (e : Entry) (r : SyncResult) (w : List Byte) :
    (s.endSyncWith u e r w).wakeView a g t = s.wakeView a g t := by
  have hset : ∀ (r : State) e, (r.setEntry u e).wakeView a g t = r.wakeView a g t := fun r e =>
    onTile_wakeView r (by intro; rfl)
  unfold endSyncWith
  extract_lets c b s₀ s₁ s₂ done s₃
  have h₂ : s₂.wakeView a g t = s.wakeView a g t := by
    refine (onCheck_wakeView s₁ u _).trans ?_
    unfold s₁
    split
    · refine (onCheck_wakeView _ u _).trans ((onTile_wakeView _ ?_).trans (onTile_wakeView _ ?_))
      · intro; rfl
      · intro; rfl
    · rfl
  have h₃ : s₃.wakeView a g t = s.wakeView a g t := (signBytes_wakeView _ _ _ _ _ _ _ _ _).trans h₂
  split
  · refine (hset _ _).trans ((onTile_wakeView _ ?_).trans h₃)
    intro; rfl
  · split
    · exact (hset _ _).trans h₂
    · exact (tileFault_wakeView _ ha _ _).trans h₂

theorem wake_wakeView (u : Nat) : (s.wake u).wakeView a g t = s.wakeView a g t := by
  have hc : (s.countGated u).wakeView a g t = s.wakeView a g t := by
    unfold countGated
    split
    · exact wakeView_of_interior (countCycles_interior s u _) (reg_countCycles s ha u _)
    · rfl
  unfold wake inClock
  split
  · rfl
  · split
    · split
      · exact (endSyncWith_wakeView _ ha _ _ _ _).trans hc
      · rfl
    · rfl

theorem wakeAll_wakeView (ts : List Nat) : (s.wakeAll ts).wakeView a g t = s.wakeView a g t :=
  foldEach_keeps (wakeView a g t) _ (fun u r => wake_wakeView r ha u) ts s

/-! ### The end of a gang (R269, R284, R286, R287) -/

omit ha in
@[simp] theorem onTally_wakeView (f : TallyNet → TallyNet) : (s.onTally f).wakeView a g t = s.wakeView a g t := rfl

omit ha in
@[simp] theorem onPadNode_wakeView (p id : Nat) (f : TallyNode → TallyNode) :
    (s.onPadNode p id f).wakeView a g t = s.wakeView a g t :=
  (congrArg (wakeView a g t) (onPadNode_rest s p id f) :)

theorem crewLost_wakeView (n : Nat) : (s.crewLost n).wakeView a g t = s.wakeView a g t := by
  have h : ∀ r : State, (foldEach (List.range 16) r fun p s =>
      s.onPadNode p (128 + n) fun x => if x.bound then { x with lost := true, counted := [] } else x).wakeView a g t =
      r.wakeView a g t := fun r => foldEach_keeps (wakeView a g t) _ (fun p r => onPadNode_wakeView r _ _ _) _ r
  unfold crewLost
  dsimp only
  split
  · exact (wakeAll_wakeView _ ha _).trans ((h _).trans rfl)
  · exact (h _).trans rfl

omit ha in
theorem crewRelease_wakeView (n : Nat) (e : BitVec 32) : (s.crewRelease n e).wakeView a g t = s.wakeView a g t := by
  unfold crewRelease
  refine (foldEach_keeps (wakeView a g t) _ (fun p r => ?_) _ _).trans rfl
  split <;> rfl

theorem log_tally_wakeView (c : Cause) : (s.log (.tally 16) c).wakeView a g t = s.wakeView a g t :=
  wakeView_of_interior (log_interior s _ c) (reg_log_tally s ha c)

theorem inject_wakeView (k : Packet) (n : Nat) : (s.inject k n).2.wakeView a g t = s.wakeView a g t :=
  wakeView_of_interior (inject_interior s k n) (reg_inject s ha k n)

theorem takeCrew_wakeView (k : Packet) (n : Nat) : (s.takeCrew k n).wakeView a g t = s.wakeView a g t := by
  induction n generalizing s k with
  | zero => rfl
  | succ fuel ih =>
    unfold takeCrew
    extract_lets send n l epoch c known stray
    have hsend : ∀ r p, (send r p).wakeView a g t = r.wakeView a g t := by
      intro r p
      have hi := inject_wakeView r ha (g := g) (t := t) p 2
      dsimp only [send]
      split
      next e => rw [e] at hi; exact (ih _ _).trans hi
      next e => rw [e] at hi; exact hi
    have hall : ∀ (ds : List Nat) (p : Nat → State → Packet) (r : State),
        (foldEach ds r fun d r => send r (p d r)).wakeView a g t = r.wakeView a g t :=
      fun ds p r => foldEach_keeps (wakeView a g t) _ (fun d r => hsend r (p d r)) ds r
    have hstray : stray.wakeView a g t = s.wakeView a g t := log_tally_wakeView s ha _
    have hlost : ∀ (r : State) f, ((r.onCrew n f).crewLost n).wakeView a g t = r.wakeView a g t := fun r f =>
      crewLost_wakeView _ ha n
    split
    · exact ite_keeps hstray (ite_keeps rfl (ite_keeps rfl (ite_keeps (hsend _ _) (hall _ _ _))))
    · have h := ite_keeps (P := wakeView a g t)
        (c := (!known || !(decide (k.src = s.node ∧ epoch = c.epoch) || epoch = c.epoch + 1)) = true) hstray rfl
      exact ite_keeps ((crewRelease_wakeView _ _ _).trans h) ((hall _ _ _).trans h)
    · exact ite_keeps rfl ((hall _ _ _).trans (ite_keeps ((hsend _ _).trans (hlost s _)) (hlost s _)))
    · exact ite_keeps rfl (ite_keeps (crewLost_wakeView s ha n) ((hall _ _ _).trans (crewLost_wakeView s ha n)))
    · rfl

theorem sendRow_wakeView (op n : Nat) (e : BitVec 32) : (s.sendRow op n e).wakeView a g t = s.wakeView a g t := by
  have hi := inject_wakeView s ha (g := g) (t := t) (s.crewPkt op n 1 e (s.partNode 1)) 2
  unfold sendRow
  split
  next h => rw [h] at hi; exact (takeCrew_wakeView _ ha _ _).trans hi
  next h => rw [h] at hi; exact hi

/-- A gang that ends leaves the gangs' sheaves, the fence map and every tile's instruction memory, whatever it wakes. -/
theorem gangGone_wakeView (k : Nat) (reset : Bool) : (s.gangGone k reset).wakeView a g t = s.wakeView a g t := by
  have hparts : ∀ (ps : List Nat) (id : Nat) (r : State),
      (foldEach ps r fun q s => s.onPadNode q id unbound).wakeView a g t = r.wakeView a g t := fun ps id r =>
    foldEach_keeps (wakeView a g t) _ (fun q r => onPadNode_wakeView r q id unbound) ps r
  have hflag : ∀ (r : State) f x, ((r.onFlag f x).wakeFlag f).wakeView a g t = r.wakeView a g t := fun r f x =>
    wakeAll_wakeView _ ha _
  unfold gangGone
  refine (foldEach_keeps (wakeView a g t) _ (fun f r => ?_) _ _).trans
    (foldEach_keeps (wakeView a g t) _ (fun n r => ?_) _ _)
  · dsimp only
    split
    · split
      · exact hflag _ _ _
      · rfl
    · split
      · exact hflag _ _ _
      · rfl
  · extract_lets s₁ d s₂ c
    have h₁ : s₁.wakeView a g t = r.wakeView a g t := by
      refine foldEach_keeps (wakeView a g t) _ (fun p r => ?_) _ _
      dsimp only
      split
      · exact onPadNode_wakeView _ _ _ _
      · rfl
    have h₂ : s₂.wakeView a g t = r.wakeView a g t := by
      unfold s₂
      split
      · exact (hparts _ _ _).trans h₁
      · exact h₁
    split
    · exact (sendRow_wakeView _ ha _ _ _).trans ((hparts _ _ _).trans h₂)
    · exact h₂

end State
end Sys2Proof.Machine

/-! ## Requests on their way (R23, R69, R302, R376)

A request leaves the mesh only for the queue of a pillar or a lane of a barn channel. What a dispatcher, a snapshot or a
record has sent stays on its way while tiles stop, since only the writes of engine entries are ever discarded (R132). -/

namespace Sys2Proof.Machine

/-- A pass over a list that finds `x` in it, or has it already. -/
theorem foldl_of_mem {α σ : Type} {Q : σ → Prop} {f : σ → α → σ} {x : α} (hkeep : ∀ acc y, Q acc → Q (f acc y))
    (hmem : ∀ acc, Q (f acc x)) {xs : List α} {acc : σ} (h : x ∈ xs ∨ Q acc) : Q (xs.foldl f acc) := by
  induction xs generalizing acc with
  | nil => exact h.resolve_left List.not_mem_nil
  | cons y ys ih =>
    refine ih ?_
    rcases h with h | h
    · rcases List.mem_cons.1 h with rfl | h
      · exact .inr (hmem acc)
      · exact .inl h
    · exact .inr (hkeep acc y h)

/-- A pass whose step at `x` brings about what every step keeps. -/
theorem foldEach_of_mem {α σ : Type} {Q : σ → Prop} {f : α → σ → σ} {x : α} (hkeep : ∀ s y, Q s → Q (f y s))
    (hmem : ∀ s, Q (f x s)) {xs : List α} {s : σ} (h : x ∈ xs) : Q (foldEach xs s f) := by
  unfold foldEach
  exact foldl_of_mem (f := fun s y => f y s) hkeep hmem (.inl h)

/-- A request waits in the queue of a pillar or in a lane of a barn channel. -/
def Queued (s : State) (r : MemReq) : Prop :=
  (∃ t, r ∈ (s.pillar t).queue) ∨ ∃ c, r ∈ (s.channel c).lane0 ∨ r ∈ (s.channel c).lane1 ∨ r ∈ (s.channel c).lane2

namespace State

variable {s s' : State} {r x : MemReq}

theorem onItsWay_of_queued (h : Queued s r) : OnItsWay s r := .inr h

theorem queued_onPillar {t : Nat} {f : Pillar → Pillar} (hf : x ∈ (s.pillar t).queue → x ∈ (f (s.pillar t)).queue)
    (h : Queued s x) : Queued (s.onPillar t f) x := by
  rcases h with ⟨u, hu⟩ | h
  · refine .inl ⟨u, ?_⟩
    rw [pillar_onPillar]
    split
    · next e => exact hf (e ▸ hu)
    · exact hu
  · exact .inr h

theorem queued_onChannel {c : Nat} {f : Channel → Channel}
    (hf : (x ∈ (s.channel c).lane0 ∨ x ∈ (s.channel c).lane1 ∨ x ∈ (s.channel c).lane2) →
      x ∈ (f (s.channel c)).lane0 ∨ x ∈ (f (s.channel c)).lane1 ∨ x ∈ (f (s.channel c)).lane2)
    (h : Queued s x) : Queued (s.onChannel c f) x := by
  rcases h with h | ⟨d, hd⟩
  · exact .inl h
  · refine .inr ⟨d, ?_⟩
    rw [channel_onChannel]
    split
    · next e => exact hf (e ▸ hd)
    · exact hd

/-! ### Requests handed on -/

/-- A request handed on waits behind those that were there. -/
theorem queued_handOn (h : s.handOn r = some s') : Queued s' r ∧ (Queued s x → Queued s' x) := by
  have mem : ∀ (xs : List MemReq), r ∈ xs ++ [r] := fun xs => List.mem_append_right _ List.mem_cons_self
  have lane : ∀ {c : Nat} {f : Channel → Channel}, r ∈ (f (s.channel c)).lane0 ∨ r ∈ (f (s.channel c)).lane1 ∨
      r ∈ (f (s.channel c)).lane2 → Queued (s.onChannel c f) r := fun {c f} h =>
    .inr ⟨c, by rwa [channel_onChannel_self]⟩
  unfold handOn at h
  split at h
  · cases h
  · split at h
    · dsimp only at h
      obtain ⟨-, h⟩ := Option.ite_none_right_eq_some.1 h
      cases h
      exact ⟨.inl ⟨_, by rw [pillar_onPillar_self]; exact mem _⟩, queued_onPillar (List.mem_append_left _)⟩
    · dsimp only at h
      split at h
      · split at h
        · cases h
          exact ⟨lane (.inl (mem _)), queued_onChannel (Or.imp_left (List.mem_append_left _))⟩
        · cases h
      · split at h
        · split at h
          · cases h
            exact ⟨lane (.inr (.inl (mem _))), queued_onChannel (Or.imp_right (Or.imp_left (List.mem_append_left _)))⟩
          · cases h
        · split at h
          · cases h
            exact ⟨lane (.inr (.inr (mem _))), queued_onChannel (Or.imp_right (Or.imp_right (List.mem_append_left _)))⟩
          · cases h
    · cases h

theorem onItsWay_drainMesh (h : OnItsWay s r) : OnItsWay s.drainMesh r := by
  have hs : ∀ (u : State) (m : List MemReq), Queued { u with mesh := m } r = Queued u r := fun _ _ => rfl
  unfold drainMesh
  extract_lets done
  suffices hd : Queued done.1 r ∨ r ∈ done.2.1 by
    rcases hd with hd | hd
    · exact onItsWay_of_queued hd
    · exact .inl hd
  refine foldl_of_mem (Q := fun acc : State × List MemReq × List Nat => Queued acc.1 r ∨ r ∈ acc.2.1) (x := r)
    (fun acc y hq => ?_) (fun acc => ?_) (h.imp id .inl)
  · dsimp only
    split
    · exact hq.imp_right (List.mem_append_left _)
    · split
      · next e => exact hq.imp_left (queued_handOn e).2
      · exact hq.imp_right (List.mem_append_left _)
  · dsimp only
    split
    · exact .inr (List.mem_append_right _ List.mem_cons_self)
    · split
      · next e => exact .inl (queued_handOn (x := r) e).1
      · exact .inr (List.mem_append_right _ List.mem_cons_self)

/-- What is sent over the mesh is on its way. -/
theorem onItsWay_sendMesh_of_mem {rs : List MemReq} (h : r ∈ rs) : OnItsWay (s.sendMesh rs) r :=
  onItsWay_drainMesh (.inl (List.mem_append_right _ h))

/-- What was on its way still is. -/
theorem onItsWay_sendMesh (h : OnItsWay s r) (rs : List MemReq) : OnItsWay (s.sendMesh rs) r :=
  onItsWay_drainMesh (h.imp_left (List.mem_append_left _))

theorem onItsWay_postLines {d : Nat} {bs : List Byte} {v : Option Nat} (h : OnItsWay s r) :
    OnItsWay (s.postLines d bs v) r := onItsWay_sendMesh h _

/-! ### Places that come free -/

theorem handMesh_queued {seen : List Nat} {rs rs' : List MemReq} (e : s.handMesh seen rs = some (s', rs'))
    (h : x ∈ rs ∨ Queued s x) : x ∈ rs' ∨ Queued s' x := by
  induction rs generalizing seen rs' with
  | nil => cases e
  | cons r rs ih =>
    have later : ∀ k, (s.handMesh k rs).map (fun y => (y.1, r :: y.2)) = some (s', rs') → x ∈ rs' ∨ Queued s' x := by
      intro k hk
      obtain ⟨y, hy, hy'⟩ := Option.map_eq_some_iff.1 hk
      cases hy'
      rcases h with h | h
      · rcases List.mem_cons.1 h with rfl | h
        · exact .inl List.mem_cons_self
        · exact (ih hy (.inl h)).imp_left (List.mem_cons_of_mem _)
      · exact (ih hy (.inr h)).imp_left (List.mem_cons_of_mem _)
    unfold handMesh at e
    dsimp only at e
    split at e
    · exact later _ e
    · split at e
      · next hs =>
        cases e
        rcases h with h | h
        · rcases List.mem_cons.1 h with rfl | h
          · exact .inr (queued_handOn (x := x) hs).1
          · exact .inl h
        · exact .inr ((queued_handOn hs).2 h)
      · exact later _ e

theorem onItsWay_of_traffic (e : (s'.mesh, s'.pillars, s'.channels) = (s.mesh, s.pillars, s.channels))
    (h : OnItsWay s r) : OnItsWay s' r := by
  simp only [Prod.mk.injEq] at e
  obtain ⟨hmesh, hpillars, hchannels⟩ := e
  unfold OnItsWay pillar channel
  rw [hmesh, hpillars, hchannels]
  exact h

theorem onItsWay_onTile {t : Nat} {f : Tile → Tile} (h : OnItsWay s r) : OnItsWay (s.onTile t f) r := h

theorem onItsWay_onHost {h : Nat} {f : HostPort → HostPort} (hr : OnItsWay s r) : OnItsWay (s.onHost h f) r := by
  unfold onHost; split <;> exact hr

theorem onItsWay_of_unreported (e : s'.unreported = s.unreported) (h : OnItsWay s r) : OnItsWay s' r :=
  onItsWay_of_traffic (congrArg (fun u : State => (u.mesh, u.pillars, u.channels)) e :) h

theorem onItsWay_handHead {h : Nat} (e : s.handHead h = some s') (hr : OnItsWay s r) : OnItsWay s' r := by
  unfold handHead at e
  split at e
  · cases e
  · split at e
    · cases e
    · dsimp only at e
      split at e
      · obtain ⟨y, hy, rfl⟩ := Option.map_eq_some_iff.1 e
        refine onItsWay_onHost (hr.imp (fun hm => ?_) (queued_handOn hy).2)
        rwa [show y.mesh = s.mesh from handOn_keeps s State.mesh (fun _ _ _ => rfl) (fun _ _ _ => rfl) hy]
      · cases e; exact onItsWay_onHost hr
      · cases e; exact onItsWay_onHost hr
      · cases e
        exact onItsWay_of_unreported (log_unreported _ _ _) (onItsWay_onHost hr)

theorem onItsWay_serveOne (e : s.serveOne = some s') (hr : OnItsWay s r) : OnItsWay s' r := by
  unfold serveOne at e
  obtain ⟨i, -, hi⟩ := List.exists_of_findSome?_eq_some e
  obtain ⟨y, hy, rfl⟩ := Option.map_eq_some_iff.1 hi
  dsimp only at hy
  change OnItsWay y r
  split at hy
  · obtain ⟨z, hz, rfl⟩ := Option.map_eq_some_iff.1 hy
    exact (handMesh_queued (s' := z.1) (rs' := z.2) hz hr :)
  · exact onItsWay_handHead hy hr

theorem onItsWay_serve (hr : OnItsWay s r) (n : Nat) : OnItsWay (s.serve n) r := by
  induction n generalizing s with
  | zero => exact hr
  | succ n ih =>
    unfold serve
    split
    · next h => exact ih (onItsWay_serveOne h hr)
    · exact hr

theorem onItsWay_drainHosts (hr : OnItsWay s r) : OnItsWay s.drainHosts r := onItsWay_serve hr _

/-! ### Tiles that stop -/

theorem onItsWay_sendCommit {t : Nat} {e : BitVec 32} {b : Bool} {k : Receiver} (h : OnItsWay s r) :
    OnItsWay (sendCommit t e b k s) r := by
  unfold sendCommit
  cases k with
  | tile u => exact h
  | barn => exact h
  | remote n m => exact onItsWay_of_traffic (congrArg Prod.snd (inject_traffic s (a := 0x6000) (by unfold Steady; omega) _ _) :) h

theorem onItsWay_dropInflight {u : Nat} {e : BitVec 32} {k : Receiver} (h : OnItsWay s r) :
    OnItsWay (dropInflight u e k s) r := by
  unfold dropInflight
  cases k with
  | tile pt =>
    dsimp only
    split
    · exact onItsWay_drainHosts h
    · exact h
  | barn => exact h
  | remote n m => exact h

theorem onItsWay_gateAbort {t : Nat} (h : OnItsWay s r) : OnItsWay (s.gateAbort t) r := by
  unfold gateAbort
  dsimp only
  split
  · exact h
  · exact h
  · refine onItsWay_onTile ?_
    exact foldEach_invariant (P := fun u : State => OnItsWay u r) (fun _ _ h => onItsWay_sendCommit h)
      (foldEach_invariant (P := fun u : State => OnItsWay u r) (fun _ _ h => onItsWay_dropInflight h) h)

theorem onItsWay_countStopped {t : Nat} (h : OnItsWay s r) : OnItsWay (s.countStopped t) r := by
  unfold countStopped
  refine foldEach_invariant (P := fun u : State => OnItsWay u r) (fun _ _ h => h) ?_
  split <;> split <;> exact h

theorem onItsWay_settleBanks {t : Nat} {qs : List Nat} (h : OnItsWay s r) : OnItsWay (s.settleBanks t qs) r := by
  unfold settleBanks
  dsimp only
  split
  · exact h.imp_right (queued_onPillar id)
  · exact h

/-- Only the writes of engine entries are discarded when a tile stops (R132). -/
theorem onItsWay_dropWrites {t : Nat} (hsrc : ∀ u id, r.src ≠ .entry u id) (h : OnItsWay s r) :
    OnItsWay (s.dropWrites t) r := by
  unfold dropWrites
  extract_lets mine s₁ s₂
  have hmine : mine r = false := by
    unfold mine
    split
    · rfl
    · next hs _ => exact absurd hs (hsrc _ _)
    · rfl
  have hf : ∀ {xs : List MemReq}, r ∈ xs → r ∈ xs.filter fun x => !mine x := fun hx =>
    List.mem_filter.2 ⟨hx, by rw [hmine]; rfl⟩
  have h₁ : OnItsWay s₁ r := h.imp_left hf
  have h₂ : OnItsWay s₂ r := by
    refine foldEach_invariant (P := fun u : State => OnItsWay u r) (fun c u hu => ?_) h₁
    split
    · exact hu.imp_right (queued_onChannel (Or.imp_right (Or.imp_right hf)))
    · exact hu
  split
  · exact h₂
  · exact onItsWay_drainHosts h₂

theorem onItsWay_stopTile {t : Nat} (hsrc : ∀ u id, r.src ≠ .entry u id) (h : OnItsWay s r) :
    OnItsWay (s.stopTile t) r := by
  unfold stopTile
  exact onItsWay_settleBanks (onItsWay_onTile (onItsWay_dropWrites hsrc (onItsWay_gateAbort (onItsWay_countStopped h))))

theorem onItsWay_dropCheck {t : Nat} (h : OnItsWay s r) : OnItsWay (s.dropCheck t) r := by
  unfold dropCheck
  split
  · exact h
  · dsimp only
    split
    · unfold restRuns
      refine foldEach_invariant (P := fun u : State => OnItsWay u r) (fun pt u hu => ?_) h
      split <;> exact hu
    · exact h

theorem onItsWay_stopOthers {g : Nat} {o : Option Nat} (hsrc : ∀ u id, r.src ≠ .entry u id) (h : OnItsWay s r) :
    OnItsWay (s.stopOthers g o) r := by
  unfold stopOthers
  refine foldEach_invariant (P := fun u : State => OnItsWay u r) (fun u v hv => ?_) h
  split
  · exact hv
  · exact onItsWay_stopTile hsrc (onItsWay_dropCheck hv)

theorem onItsWay_faultRecord {i : FaultInfo} {c : RecordContext} {o : Option Nat} (h : OnItsWay s r) :
    OnItsWay (s.faultRecord i c o).2.2 r := by
  unfold faultRecord
  dsimp only
  split
  · exact onItsWay_of_unreported (by rw [raise_unreported, addF_unreported, setF_unreported]) h
  · exact onItsWay_postLines (onItsWay_of_unreported (setF_unreported _ _ _ _ _) h)

theorem onItsWay_onGang {g : Nat} {f : Gang → Gang} (h : OnItsWay s r) : OnItsWay (s.onGang g f) r := h

theorem onItsWay_gangFault {g t : Nat} {i : FaultInfo} (hsrc : ∀ u id, r.src ≠ .entry u id) (h : OnItsWay s r) :
    OnItsWay (s.gangFault g i t) r := by
  unfold gangFault
  dsimp only
  split
  · exact h
  · split
    · refine onItsWay_onGang ?_
      split
      · exact onItsWay_onGang (onItsWay_faultRecord h)
      · exact onItsWay_onGang h
    · refine onItsWay_onGang (onItsWay_stopOthers hsrc ?_)
      split
      · exact onItsWay_onGang (onItsWay_faultRecord h)
      · exact h

theorem onItsWay_reportFault {t : Nat} {i : FaultInfo} (hsrc : ∀ u id, r.src ≠ .entry u id) (h : OnItsWay s r) :
    OnItsWay (s.reportFault t i) r := by
  unfold reportFault
  split
  · exact onItsWay_gangFault hsrc h
  · exact h

end State
end Sys2Proof.Machine

/-! ## Record rings and trace records (R171, R174, R432, R475) -/

namespace Sys2Proof.Machine

variable {s : State}

/-! ### Rows that write a register -/

/-- A command that writes a 32-bit register of a page that is ready for it. -/
theorem writeRow_ready {h off : Nat} {p : Page} {r : RegDesc} {ok : Bool} (v : BitVec 32) (hb : BarReady s h p)
    (hok : ok = true) (hp : pageAt (p.base + off) = some p) (hr : regAt p off = some (r, off)) (hw : r.width = 32)
    (h4 : (p.base + off) % 4 = 0) (hx : isCxlRange (p.base + off) = false) (hg : p ≠ .global) :
    writeRow s h ok p off v true = .next (s.writeReg p r off v.toNat) := by
  have hh := hb.head
  rw [writeRow, if_pos rfl, pageWrite_eq_writeReg v hb hp hr hw h4 hx fun e => hg e.1, guardUnit_true]
  simp [isHead, hh, hok]

/-! ### Rings are enabled (R171, R432, R475) -/

/-- A ring lies right just if it is in barn memory and aligned. -/
theorem ringOk_iff (b n : Nat) : State.ringOk b n = true ↔ InBarn b n := by
  simp only [State.ringOk, InBarn, Bool.and_eq_true, decide_eq_true_eq, and_assoc]

/-- EN is written 1 to the control register of a ring that is not enabled. -/
theorem writeRingCtrl_enable {a base unit v : Nat} {p : Page} {c : Cause} (hab : base ≠ a) (hp : p.base + 0x28 ≤ a)
    (he : s.getF a 0 0 = 0) (hv : bit v 0 = true) :
    (s.writeRingCtrl a base unit v p c).getF a 11 8 = bits v 11 8 ∧
      (InBarn (s.getF base 38 0) (unit * 2 ^ max 4 (bits v 11 8)) → (s.writeRingCtrl a base unit v p c).getF a 0 0 = 1) ∧
      (¬ InBarn (s.getF base 38 0) (unit * 2 ^ max 4 (bits v 11 8)) →
        (s.writeRingCtrl a base unit v p c).getF a 0 0 = 0 ∧ Logged s (s.writeRingCtrl a base unit v p c) p c) := by
  have hsize : (s.setF a 11 8 (bits v 11 8)).getF a 11 8 = bits v 11 8 := by
    rw [State.getF_setF_self _ _ _ _ _ (by decide) (by decide)]
    exact Nat.mod_eq_of_lt (bits_lt v 11 8)
  have hen : (s.setF a 11 8 (bits v 11 8)).getF a 0 0 = 0 := by
    rw [State.getF_setF_beside _ _ _ (by decide) (by decide) (by decide), he]
  have hw : s.writeRingCtrl a base unit v p c =
      if State.ringOk (s.getF base 38 0) (unit * 2 ^ max 4 (bits v 11 8)) then
        (s.setF a 11 8 (bits v 11 8)).setF a 0 0 1
      else (s.setF a 11 8 (bits v 11 8)).log p c := by
    unfold State.writeRingCtrl ringLog2
    simp only [he, hv, hen, hsize, State.getF_setF_ne _ _ _ _ _ _ _ _ hab, Nat.zero_ne_one, if_false, Bool.not_true,
      Bool.false_eq_true]
  rw [hw]
  by_cases hr : InBarn (s.getF base 38 0) (unit * 2 ^ max 4 (bits v 11 8))
  · rw [if_pos ((ringOk_iff _ _).2 hr)]
    refine ⟨?_, fun _ => State.getF_setF_self _ _ _ _ _ (by decide) (by decide), fun h => absurd hr h⟩
    rw [State.getF_setF_beside _ _ _ (by decide) (by decide) (by decide), hsize]
  · rw [if_neg fun h => hr ((ringOk_iff _ _).1 h)]
    have hctrl := State.reg_log_outside (s.setF a 11 8 (bits v 11 8)) p c (.inr hp)
    refine ⟨(State.getF_of_reg_eq hctrl _ _).trans hsize, fun h => absurd h hr, fun _ =>
      ⟨(State.getF_of_reg_eq hctrl _ _).trans hen, ?_⟩⟩
    exact logged_of_regs_eq (State.log_logged (s.setF a 11 8 (bits v 11 8)) p c)
      (State.reg_setF_ne _ _ _ _ _ _ (by omega)).symm (State.reg_setF_ne _ _ _ _ _ _ (by omega)).symm rfl

/-- Writing a ring's control register leaves the registers of the page above its error registers. -/
theorem reg_writeRingCtrl {a base unit v : Nat} {p : Page} {c : Cause} {b : Nat} (hb : b ≠ a) (hp : p.base + 0x28 ≤ b) :
    (s.writeRingCtrl a base unit v p c).reg b = s.reg b := by
  have hset : ∀ (r : State) hi lo n, (r.setF a hi lo n).reg b = r.reg b := fun r hi lo n => State.reg_setF_ne r a hi lo n b hb
  have hlog : ∀ r : State, (r.log p c).reg b = r.reg b := fun r => State.reg_log_outside r p c (.inr hp)
  have hsize : (if s.getF a 0 0 = 1 then s else s.setF a 11 8 (bits v 11 8)).reg b = s.reg b :=
    ite_keeps (P := (State.reg · b)) rfl (hset _ _ _ _)
  unfold State.writeRingCtrl
  extract_lets r
  split
  · rw [hset]; exact hsize
  · split
    · exact hsize
    · split
      · rw [hset]; exact hsize
      · rw [hlog]; exact hsize

/-- FLOG_ENABLE writes the control register of the fault log. -/
theorem exec_flogEnable {h : Nat} {v : BitVec 32} (hb : BarReady s h .dispatch) (hv : v.getLsbD 0 = true) :
    exec (.flogEnable h v) s = .next (s.writeRingCtrl 0x5050 0x5048 64 v.toNat .dispatch .flogConfig) := by
  have hx : exec (.flogEnable h v) s = writeRow s h true .dispatch 0x50 v (v.getLsbD 0) := rfl
  obtain ⟨r, hr, hw⟩ : ∃ r, regAt .dispatch 0x50 = some (r, 0x50) ∧ r.width = 32 := ⟨_, rfl, rfl⟩
  rw [hx, hv, writeRow_ready v hb rfl rfl hr hw rfl (by decide) (by decide)]
  rfl

/-- The TRACE control register is written after RESTART (R475). -/
def State.restarted (s : State) (v : Nat) : State :=
  if bit v 1 ∧ s.getF 0x6048 0 0 = 0 then (s.setReg 0x604C 0).setReg 0x6050 0 else s

theorem writeRow_trace {h : Nat} (v : BitVec 32) (hb : BarReady s h .trace) :
    writeRow s h true .trace 0x48 v true =
      .next ((s.restarted v.toNat).writeRingCtrl 0x6048 0x6040 32 v.toNat .trace .traceConfig) := by
  obtain ⟨r, hr, hw⟩ : ∃ r, regAt .trace 0x48 = some (r, 0x48) ∧ r.width = 32 := ⟨_, rfl, rfl⟩
  rw [writeRow_ready v hb rfl rfl hr hw rfl (by decide) (by decide)]
  rfl

/-- CPER_ENABLE writes the control register of the CPER ring, whose count of records dropped all ones clear (R432, R469). -/
theorem exec_cperEnable {h : Nat} {v : BitVec 32} (hb : BarReady s h .tithe) (hv : v.getLsbD 0 = true) :
    exec (.cperEnable h v) s =
      .next ((if bits v.toNat 31 16 = 0xFFFF then s.setF 0x3068 31 16 0 else s).writeRingCtrl 0x3068 0x3060 256 v.toNat
        .tithe .cperConfig) := by
  have hx : exec (.cperEnable h v) s = writeRow s h true .tithe 0x68 v (v.getLsbD 0) := rfl
  obtain ⟨r, hr, hw⟩ : ∃ r, regAt .tithe 0x68 = some (r, 0x68) ∧ r.width = 32 := ⟨_, rfl, rfl⟩
  rw [hx, hv, writeRow_ready v hb rfl rfl hr hw rfl (by decide) (by decide)]
  rfl

/-- What a write does to other registers first does not keep a ring from being enabled as it would be. -/
theorem ringEnabled_of_eq {r : State} {a base unit v : Nat} {p : Page} {c : Cause} (hab : base ≠ a)
    (hp : p.base + 0x28 ≤ a) (he : s.getF a 0 0 = 0) (hv : bit v 0 = true)
    (hra : r.getF a 0 0 = s.getF a 0 0) (hrb : ∀ b, b < p.base + 0x28 ∨ b = base → r.reg b = s.reg b) :
    (r.writeRingCtrl a base unit v p c).getF a 11 8 = bits v 11 8 ∧
      (InBarn (s.getF base 38 0) (unit * 2 ^ max 4 (bits v 11 8)) → (r.writeRingCtrl a base unit v p c).getF a 0 0 = 1) ∧
      (¬ InBarn (s.getF base 38 0) (unit * 2 ^ max 4 (bits v 11 8)) →
        (r.writeRingCtrl a base unit v p c).getF a 0 0 = 0 ∧ Logged s (r.writeRingCtrl a base unit v p c) p c) := by
  obtain ⟨hsize, hin, hout⟩ := writeRingCtrl_enable (s := r) (unit := unit) (c := c) hab hp (hra.trans he) hv
  rw [State.getF_of_reg_eq (hrb base (.inr rfl))] at hin hout
  refine ⟨hsize, hin, fun hn => ⟨(hout hn).1, ?_⟩⟩
  exact logged_of_regs_eq (hout hn).2 (hrb _ (.inl (by omega))).symm (hrb _ (.inl (by omega))).symm rfl

/-- Rings are enabled over barn memory, and TRACE_RESTART zeroes the indices (R171, R432, R475). -/
theorem ringsAreEnabledInBarnMemory : Claims.RingsAreEnabledInBarnMemory := by
  constructor
  · intro row hrow s h v hb hv he
    simp only [ringRows, List.mem_cons, List.not_mem_nil, or_false] at hrow
    rcases hrow with rfl | rfl | rfl
    · exact ⟨_, exec_flogEnable hb hv, writeRingCtrl_enable (by decide) (by decide) he hv⟩
    · have hx : exec (.traceEnable h v) s = writeRow s h true .trace 0x48 v (v.getLsbD 0) := rfl
      refine ⟨_, hx.trans (by rw [hv, writeRow_trace v hb]), ?_⟩
      have hr : ∀ b, b ≠ 0x604C → b ≠ 0x6050 → (s.restarted v.toNat).reg b = s.reg b := fun b h4C h50 =>
        ite_keeps (P := (State.reg · b)) (by rw [State.reg_setReg_ne _ _ _ _ h50, State.reg_setReg_ne _ _ _ _ h4C]) rfl
      refine ringEnabled_of_eq (by decide) (by decide) he hv
        (State.getF_of_reg_eq (hr 0x6048 (by decide) (by decide)) _ _) fun b hlt => ?_
      have hlt : b < 0x6028 ∨ b = 0x6040 := hlt
      exact hr b (by omega) (by omega)
    · refine ⟨_, exec_cperEnable hb hv, ?_⟩
      refine ringEnabled_of_eq (by decide) (by decide) he hv ?_ fun b hlt => ?_
      · exact ite_keeps (P := (State.getF · 0x3068 0 0))
          (State.getF_setF_beside _ _ _ (by decide) (by decide) (by decide)) rfl
      · have hlt : b < 0x3028 ∨ b = 0x3060 := hlt
        exact ite_keeps (P := (State.reg · b)) (State.reg_setF_ne _ _ _ _ _ _ (by omega)) rfl
  · intro s h v hb hv
    have hx : exec (.traceRestart h v) s = writeRow s h true .trace 0x48 v (v.getLsbD 1) := rfl
    refine ⟨_, hx.trans (by rw [hv, writeRow_trace v hb]), ?_⟩
    rw [reg_writeRingCtrl (by decide) (by decide), reg_writeRingCtrl (by decide) (by decide)]
    have hv : bit v.toNat 1 = true := hv
    split
    · next he =>
      rw [State.restarted, if_pos ⟨hv, he⟩]
      simp
    · next he =>
      rw [State.restarted, if_neg fun h => he h.2]
      exact ⟨rfl, rfl⟩

end Sys2Proof.Machine

namespace Sys2Proof.Machine

/-! ### Trace records (R174, R475) -/

namespace State

variable {s : State} {e : TraceEvent} {rest : List TraceEvent}

/-- The fault report that waited with a trace record is made once the record has left (log entry 54). -/
def afterRecord (s : State) (e : TraceEvent) : State :=
  match e.fault with
  | some (t, i) => s.reportFault t i
  | none => s

theorem afterRecord_of_none (he : e.fault = none) : s.afterRecord e = s := by
  unfold afterRecord
  rw [he]

/-- The trace records that wait are `es`. -/
def setTraceQ (s : State) (es : List TraceEvent) : State := { s with traceQ := es }

theorem putTrace_interior (s : State) (e : TraceEvent) : (s.putTrace e).interior = s.interior := by
  unfold putTrace
  extract_lets port s₁ w dpa s₂
  have h₁ : s₁.interior = s.interior := ite_keeps (P := interior) rfl rfl
  have h₂ : s₂.interior = s.interior :=
    (ite_keeps (P := interior) (b := s₁.interior) (sendMesh_interior s₁ _) rfl).trans h₁
  split
  · exact ite_keeps (P := interior) h₁ h₁
  · split
    · exact h₁
    · exact h₂

/-- The oldest record leaves when it need not wait. -/
theorem takeTrace_cons (hq : s.traceQ = e :: rest) (hw : s.traceWaits e = false) :
    s.takeTrace = ((s.setTraceQ rest).putTrace e).afterRecord e := by
  have ht : takeFirst (fun e => !s.traceWaits e) s.traceQ = some (e, rest) := by
    rw [hq, takeFirst, if_pos (by simp [hw])]
  unfold takeTrace
  rw [ht]
  rfl

/-- Nothing leaves while every record waits. -/
theorem takeTrace_of_waits (hw : ∀ e ∈ s.traceQ, s.traceWaits e = true) : s.takeTrace = s := by
  unfold takeTrace
  rw [takeFirst_eq_none fun e he => by simp [hw e he]]

/-- The place in the ring of the next record. -/
def traceDpa (s : State) : Nat := s.getF 0x6040 38 0 + 32 * (s.reg 0x604C % 2 ^ max 4 (s.getF 0x6048 11 8))

/-- The places of a ring in barn memory lie in barn memory. -/
theorem traceDpa_inBarn (h : InBarn (s.getF 0x6040 38 0) (32 * 2 ^ max 4 (s.getF 0x6048 11 8))) :
    0x2000000000 ≤ s.traceDpa ∧ s.traceDpa + 32 ≤ 0x6000000000 := by
  obtain ⟨hlo, hhi, -⟩ := h
  have hlt : s.reg 0x604C % 2 ^ max 4 (s.getF 0x6048 11 8) < 2 ^ max 4 (s.getF 0x6048 11 8) :=
    Nat.mod_lt _ (by positivity)
  unfold traceDpa
  omega

/-- A record goes to the ring, whose write index moves on (R475). -/
theorem putTrace_of_room (hport : s.getF 0x6060 0 0 = 0) (hen : s.getF 0x6048 0 0 = 1) (hroom : s.ringFull = false)
    (hin : InBarn (s.getF 0x6040 38 0) (32 * 2 ^ max 4 (s.getF 0x6048 11 8))) :
    s.putTrace e = (s.postHalf (.post none) s.traceDpa e.bytes).setF 0x604C 31 0 (s.reg 0x604C + 1) := by
  unfold putTrace ringLog2
  simp only [hport, hen, hroom, Nat.zero_ne_one, Nat.one_ne_zero, Bool.false_eq_true, if_false]
  exact congrArg (setF · 0x604C 31 0 (s.reg 0x604C + 1)) (if_pos (traceDpa_inBarn hin))

/-- The record is on its way to its place. -/
theorem onItsWay_putTrace (hport : s.getF 0x6060 0 0 = 0) (hen : s.getF 0x6048 0 0 = 1) (hroom : s.ringFull = false)
    (hin : InBarn (s.getF 0x6040 38 0) (32 * 2 ^ max 4 (s.getF 0x6048 11 8))) :
    ∃ be data, OnItsWay (s.putTrace e) (meshReq (.post none) (.partialWrite data be false false) s.traceDpa) := by
  rw [putTrace_of_room hport hen hroom hin]
  exact ⟨_, _, onItsWay_of_unreported (setF_unreported _ _ _ _ _) (onItsWay_sendMesh_of_mem List.mem_cons_self)⟩

/-- A record that no ring takes is counted (R475). -/
theorem putTrace_of_dropped (hport : s.getF 0x6060 0 0 = 0) (h : s.getF 0x6048 0 0 = 0 ∨ s.ringFull = true) :
    s.putTrace e = s.addF 0x6058 63 0 1 := by
  unfold putTrace
  simp only [hport, Nat.zero_ne_one, if_false]
  split
  · rfl
  · next hen => rw [if_pos (h.resolve_left hen)]

variable (s e)

theorem afterRecord_faultView {a g : Nat} (ha : Steady a) : (s.afterRecord e).faultView a g = s.faultView a g := by
  unfold afterRecord
  split
  · exact reportFault_faultView s ha _ _
  · rfl

theorem onItsWay_afterRecord {r : MemReq} (hsrc : ∀ u id, r.src ≠ .entry u id) (h : OnItsWay s r) :
    OnItsWay (s.afterRecord e) r := by
  unfold afterRecord
  split
  · exact onItsWay_reportFault hsrc h
  · exact h

/-- A fault of a tile of a live gang makes the gang faulted (R168). -/
theorem gangFault_faulted {g t : Nat} {i : FaultInfo} (hl : (s.gang g).live = true) :
    ((s.gangFault g i t).gang g).faulted = true := by
  unfold gangFault
  simp only [hl, Bool.not_true, Bool.false_eq_true, if_false]
  split <;> rw [gang_onGang_self]

theorem afterRecord_faulted {t g : Nat} {i : FaultInfo} (he : e.fault = some (t, i)) (hg : (s.tile t).gang = some g)
    (hl : (s.gang g).live = true) : ((s.afterRecord e).gang g).faulted = true := by
  unfold afterRecord reportFault
  rw [he]
  dsimp only
  rw [hg]
  exact gangFault_faulted s hl

section Views

variable {s} {s' : State} {a g : Nat}

theorem traceQ_of_faultView (h : s'.faultView a g = s.faultView a g) : s'.traceQ = s.traceQ :=
  (congrArg (fun x : Nat × Gang × State => x.2.2.traceQ) h :)
theorem barnData_of_faultView (h : s'.faultView a g = s.faultView a g) : s'.barnData = s.barnData :=
  (congrArg (fun x : Nat × Gang × State => x.2.2.barnData) h :)
theorem reg_of_faultView (h : s'.faultView a g = s.faultView a g) : s'.reg a = s.reg a := (congrArg Prod.fst h :)

end Views

theorem traceQ_putTrace : (s.putTrace e).traceQ = s.traceQ := (congrArg State.traceQ (putTrace_interior s e) :)
theorem barnData_putTrace : (s.putTrace e).barnData = s.barnData := (congrArg State.barnData (putTrace_interior s e) :)

end State

theorem exec_traceRecord (s : State) : exec .traceRecord s = .next s.takeTrace := rfl

/-- Trace records leave in order, towards the ring or dropped, or wait (R174, R475). -/
theorem traceRecordsGoToTheRing : Claims.TraceRecordsGoToTheRing := by
  intro s e rest hq
  have h4C : Steady 0x604C := by unfold Steady; omega
  have h58 : Steady 0x6058 := by unfold Steady; omega
  refine ⟨fun hport hen hroom hin => ?_, fun hen hfull hmodes => ?_, fun hport hdrop => ?_⟩
  · have hw : s.traceWaits e = false := by simp [State.traceWaits, hroom]
    have hput := State.putTrace_of_room (s := s.setTraceQ rest) (e := e) hport hen hroom hin
    refine ⟨_, exec_traceRecord s, ?_⟩
    rw [State.takeTrace_cons hq hw]
    have hv := fun g => State.afterRecord_faultView ((s.setTraceQ rest).putTrace e) e (g := g) h4C
    refine ⟨?_, ?_, ?_, fun hf => ?_, fun t i g hf hg hl => ?_⟩
    · exact (State.traceQ_of_faultView (hv 0)).trans (State.traceQ_putTrace _ e)
    · rw [State.getF_of_reg_eq (State.reg_of_faultView (hv 0)), hput]
      exact State.getF_setF_self _ _ _ _ _ (by decide) (by decide)
    · obtain ⟨be, data, hway⟩ := State.onItsWay_putTrace (s := s.setTraceQ rest) (e := e) hport hen hroom hin
      exact ⟨be, data, State.onItsWay_afterRecord _ e (fun _ _ => by simp [State.meshReq]) hway⟩
    · rw [State.afterRecord_of_none hf]
      exact (State.tiles_of_interior (State.putTrace_interior (s.setTraceQ rest) e) :)
    · have hi := State.putTrace_interior (s.setTraceQ rest) e
      exact State.afterRecord_faulted _ e hf ((congrArg Tile.gang (State.tile_of_interior hi t)).trans hg)
        ((congrArg Gang.live (State.gang_of_interior hi g)).trans hl)
  · refine (exec_traceRecord s).trans (congrArg _ (State.takeTrace_of_waits fun e he => ?_))
    rcases hmodes e he with h | h <;> simp [State.traceWaits, h, hen, hfull]
  · have hw : s.traceWaits e = false := by
      rcases hdrop with h | ⟨-, h⟩ <;> simp [State.traceWaits, h]
    have hput := State.putTrace_of_dropped (s := s.setTraceQ rest) (e := e) hport (hdrop.imp_right And.left)
    have hv := State.afterRecord_faultView ((s.setTraceQ rest).putTrace e) e (g := 0) h58
    refine ⟨_, exec_traceRecord s, ?_⟩
    rw [State.takeTrace_cons hq hw]
    refine ⟨?_, ?_, ?_⟩
    · exact (State.traceQ_of_faultView hv).trans (State.traceQ_putTrace _ e)
    · exact (State.barnData_of_faultView hv).trans (State.barnData_putTrace _ e)
    · rw [State.reg_of_faultView hv, hput]
      exact State.reg_addF_whole _ _ _

/-- Settles O24: a ring's control register sets EN over a ring that lies right, and a record that need not wait leaves before
its fault is reported, which touches neither the ring nor the records behind it. -/
theorem ringsAndTraceRecords : Obligations.RingsAndTraceRecords :=
  ⟨ringsAreEnabledInBarnMemory, traceRecordsGoToTheRing⟩

end Sys2Proof.Machine

/-! ## Completions (R29, R165, R166) -/

namespace Sys2Proof.Machine

/-- Where a queue's completion ring lies shows in two of its registers. -/
theorem queueInBarn_of_regs {s s' : State} {q : Nat} (h40 : s'.reg (State.dbReg q 0x40) = s.reg (State.dbReg q 0x40))
    (h50 : s'.reg (State.dbReg q 0x50) = s.reg (State.dbReg q 0x50)) (h : QueueInBarn s q) : QueueInBarn s' q := by
  unfold QueueInBarn State.cqSize
  rw [State.getF_of_reg_eq h40, State.getF_of_reg_eq h50]
  exact h

theorem Due.mono {s : State} {q : Nat} {p p' : Completion → Prop} (h : Due s q p) (hp : ∀ r, p r → p' r) : Due s q p' := by
  obtain ⟨r, b, hm, hr⟩ := h
  exact ⟨r, b, hm, hp r hr⟩

namespace State

variable (s : State) (q : Nat) (c : Completion)

/-- Register `a`, and the state but for the completions that are not made and for what reports and traffic may change. -/
def completionView (a : Nat) (s : State) : Nat × State :=
  (s.reg a, { s.interior with disp := { s.disp with completions := [] } })

theorem completionView_of_interior {s s' : State} {a : Nat} (e : s'.interior = s.interior) (hr : s'.reg a = s.reg a) :
    s'.completionView a = s.completionView a := by
  have hd : s'.disp = s.disp := (congrArg State.disp e :)
  rw [completionView, completionView, e, hr, hd]

section Views

variable {s} {s' : State} {a : Nat} (e : s'.completionView a = s.completionView a)
include e

theorem reg_of_completionView : s'.reg a = s.reg a := (congrArg Prod.fst e :)
theorem tile_of_completionView (t : Nat) : s'.tile t = s.tile t := (congrArg (fun x : Nat × State => x.2.tile t) e :)
theorem tiles_of_completionView : s'.tiles = s.tiles := (congrArg (fun x : Nat × State => x.2.tiles) e :)
theorem gangs_of_completionView : s'.gangs = s.gangs := (congrArg (fun x : Nat × State => x.2.gangs) e :)
theorem gang_of_completionView (g : Nat) : s'.gang g = s.gang g := (congrArg (fun x : Nat × State => x.2.gang g) e :)
theorem gangTiles_of_completionView (g : Nat) : s'.gangTiles g = s.gangTiles g :=
  (congrArg (fun x : Nat × State => x.2.gangTiles g) e :)
theorem taking_of_completionView : s'.disp.taking = s.disp.taking :=
  (congrArg (fun x : Nat × State => x.2.disp.taking) e :)

end Views

theorem sendVector_unreported (v : Nat) : (s.sendVector v).unreported = s.unreported := by
  unfold sendVector
  dsimp only
  repeat' split
  all_goals simp

theorem sendVector_regs (v : Nat) : (s.sendVector v).regs = s.regs := by
  unfold sendVector
  dsimp only
  repeat' split
  all_goals simp

/-- The pages of the queues lie above the other pages of the module's own. -/
theorem ne_dbReg {a q o : Nat} (ha : a < 0x100000) : a ≠ dbReg q o := by
  simp only [dbReg, Page.base]
  omega

section Kept

variable {a : Nat} (ha : a ≠ dbReg q 0x68)

theorem onDisp_completionView {f : Dispatch → Dispatch}
    (hf : ({ f s.disp with completions := [] } : Dispatch) = { s.disp with completions := [] }) :
    (s.onDisp f).completionView a = s.completionView a :=
  (congrArg (fun d : Dispatch => (s.reg a, { s.interior with disp := d })) hf :)

include ha

theorem completionDone_completionView : (s.completionDone q).completionView a = s.completionView a := by
  have hset : (s.setF (dbReg q 0x68) 31 0 (s.reg (dbReg q 0x68) + 1)).completionView a = s.completionView a :=
    completionView_of_interior rfl (reg_setF_ne _ _ _ _ _ _ ha)
  unfold completionDone
  extract_lets i s₁ s₂
  have h₂ : s₂.completionView a = s.completionView a := (onDisp_completionView s₁ rfl).trans hset
  split
  · exact (completionView_of_interior (interior_of_unreported (sendVector_unreported _ _))
      (reg_of_regs_eq (sendVector_regs _ _) a)).trans h₂
  · exact h₂

theorem completionStatus_completionView : (s.completionStatus q).2.completionView a = s.completionView a := by
  unfold completionStatus
  split
  next s₁ h =>
    unfold postStatus at h
    dsimp only at h
    obtain ⟨-, h⟩ := Option.ite_none_right_eq_some.1 h
    cases h
    exact completionView_of_interior (sendMesh_interior s _) (reg_sendMesh s _ a)
  next => exact completionDone_completionView s q ha

omit ha in
theorem postRecord_completionView {i : Nat} {s' : State} (h : s.postRecord q i c = some s') :
    s'.completionView a = s.completionView a := by
  unfold postRecord at h
  dsimp only at h
  obtain ⟨-, h⟩ := Option.ite_none_right_eq_some.1 h
  cases h
  exact completionView_of_interior (sendMesh_interior s _) (reg_sendMesh s _ a)

theorem pushCompletions_completionView (n : Nat) : (s.pushCompletions q n).completionView a = s.completionView a := by
  induction n generalizing s with
  | zero => rfl
  | succ n ih =>
    unfold pushCompletions
    split
    next c _ =>
      extract_lets s₁
      have h₁ : s₁.completionView a = s.completionView a := onDisp_completionView s rfl
      split
      next s₂ h => exact (postRecord_completionView s₁ q c h).trans h₁
      next =>
        dsimp only
        have h₂ := (completionStatus_completionView s₁ q ha).trans h₁
        exact ite_keeps (P := completionView a) ((ih _).trans h₂) h₂
    next => rfl

/-- A completion that comes due changes the dispatcher's completions and the completion index (R29). -/
theorem complete_completionView : (s.complete q c).completionView a = s.completionView a :=
  (pushCompletions_completionView _ q ha _).trans (onDisp_completionView s rfl)

end Kept

/-! ### What is due -/

theorem postRecord_of_inBarn {s : State} {q : Nat} (h : QueueInBarn s q) (i : Nat) (c : Completion) :
    ∃ s', s.postRecord q i c = some s' ∧ s'.disp = s.disp := by
  have hlt : i % s.cqSize q < s.cqSize q := Nat.mod_lt _ (by unfold cqSize; positivity)
  obtain ⟨hlo, hhi, -⟩ := h
  refine ⟨_, if_pos ⟨?_, ?_⟩, (congrArg State.disp (sendMesh_interior s _) :)⟩
  · omega
  · omega

/-- Beginning the completions of a queue whose ring is in barn memory makes none (R29). -/
theorem pushCompletions_due {s : State} {q : Nat} {c : Completion} (h : QueueInBarn s q) (n : Nat)
    (hc : (q, c, false) ∈ s.disp.completions) : Due (s.pushCompletions q n) q fun r => r = c := by
  cases n with
  | zero => exact ⟨c, false, hc, rfl⟩
  | succ n =>
    unfold pushCompletions
    split
    next c' _ =>
      extract_lets s₁
      obtain ⟨s₂, h₂, hd⟩ := postRecord_of_inBarn (s := s₁) (q := q) h (s₁.reg (dbReg q 0x68)) c'
      rw [h₂]
      have hm : (if (q, c, false) = (q, c', false) then (q, c', true) else (q, c, false)) ∈ s₂.disp.completions := by
        rw [hd]
        exact List.mem_map_of_mem hc
      split at hm
      next e =>
        obtain rfl : c = c' := (congrArg (fun x : Nat × Completion × Bool => x.2.1) e :)
        exact ⟨c, true, hm, rfl⟩
      next => exact ⟨c, false, hm, rfl⟩
    next => exact ⟨c, false, hc, rfl⟩

/-- A completion of a queue whose ring is in barn memory comes due (R29, R165). -/
theorem complete_due (h : QueueInBarn s q) : Due (s.complete q c) q fun r => r = c :=
  pushCompletions_due (s := s.onDisp fun d => { d with completions := d.completions ++ [(q, c, false)] }) h _
    (List.mem_append_right _ List.mem_cons_self)

end State
end Sys2Proof.Machine

/-! ## The end of a gang (R154, R172 to R174) -/

namespace Sys2Proof.Machine

/-- From `s` to `s'` gang `g` ends: its ID is not in use, its tiles belong to no gang, and no tile changes otherwise. -/
structure GangEnds (s s' : State) (g : Nat) : Prop where
  gang : s'.gang g = Gang.reset
  tile : ∀ t, s'.tile t = { s.tile t with gang := if t ∈ s.gangTiles g then none else (s.tile t).gang }

theorem GangEnds.free {s s' : State} {g t : Nat} (h : GangEnds s s' g) (ht : t ∈ s.gangTiles g) : (s'.tile t).gang = none := by
  rw [h.tile, if_pos ht]

theorem GangEnds.isReset {s s' : State} {g t : Nat} (h : GangEnds s s' g) (ht : (s.tile t).IsReset) : (s'.tile t).IsReset := by
  rw [h.tile]
  exact ht

theorem GangEnds.imem {s s' : State} {g : Nat} (h : GangEnds s s' g) (t : Nat) : (s'.tile t).imem = (s.tile t).imem := by
  rw [h.tile]

/-- A gang but for its faults and for a snapshot or restore of it. -/
def Gang.settled (G : Gang) : Gang := { G.unfaulted with snap := .none, restoring := 0 }

namespace State

variable (s : State) (g : Nat)

/-! ### Gangs that are freed -/

theorem tile_foldEach_free (ts : List Nat) (t : Nat) :
    (foldEach ts s fun u r => r.onTile u fun x => { x with gang := none }).tile t =
      { s.tile t with gang := if t ∈ ts then none else (s.tile t).gang } := by
  induction ts generalizing s with
  | nil => rfl
  | cons u ts ih =>
    refine (ih _).trans ?_
    rw [tile_onTile]
    by_cases hu : t = u
    · subst hu; simp
    · simp [hu]

theorem freeGang_ends : GangEnds s (s.freeGang g) g :=
  ⟨gang_onGang_self _ _ _, tile_foldEach_free (s.dropSnap g) (s.gangTiles g)⟩

/-- A traced event of a gang only joins the records that wait (R174). -/
theorem traceGang_eq (type q : Nat) (flagged : Bool) (epoch : Nat) :
    ∃ es, s.traceGang g type q flagged epoch = s.setTraceQ es := by
  unfold traceGang
  dsimp only
  split
  · exact ⟨_, rfl⟩
  · exact ⟨s.traceQ, rfl⟩

/-- A completion comes due, and its gang ends. -/
theorem complete_freeGang_ends {r : State} (hr : ∃ es, r = s.setTraceQ es) (q : Nat) (c : Completion) :
    GangEnds s ((r.complete q c).freeGang g) g := by
  obtain ⟨es, rfl⟩ := hr
  have hc := complete_completionView (s.setTraceQ es) q c (a := 0) (ne_dbReg (by decide))
  have he := freeGang_ends ((s.setTraceQ es).complete q c) g
  refine ⟨he.gang, fun t => ?_⟩
  rw [he.tile, tile_of_completionView hc, gangTiles_of_completionView hc]
  rfl

/-- A gang that has been reset ends, or its end waits for room in the trace ring (R172, R174). -/
theorem resetEnd_cases :
    (∃ h c, (s.gang g).sheaf = some h ∧ (s.gang g).ending = some c ∧
      s.traceBlocked (s.gang g).tmode h.trace 7 = true ∧ s.resetEnd g = s) ∨ GangEnds s (s.resetEnd g) g := by
  unfold resetEnd
  dsimp only
  split
  next h c hh hc =>
    split
    next hb => exact .inl ⟨h, c, hh, hc, hb, rfl⟩
    next => exact .inr (complete_freeGang_ends s g (traceGang_eq s g _ _ _ _) _ _)
  next => exact .inr (freeGang_ends s g)

/-! ### What stays of a gang while it is reset -/

/-- Gang `g` but for its faults and its snapshots, and the fence map. -/
def settledView (g : Nat) (s : State) : Gang × Fence := ((s.gang g).settled, s.fence)

section Views

variable {s g} {s' : State}

theorem settledView_of_stopView {a : Nat} (e : s'.stopView a = s.stopView a) : s'.settledView g = s.settledView g :=
  (congrArg (fun x : Nat × State => ((x.2.gang g).settled, x.2.fence)) e :)
theorem settledView_of_resetView {a : Nat} (e : s'.resetView a = s.resetView a) : s'.settledView g = s.settledView g :=
  (congrArg (fun x : Nat × State => ((x.2.gang g).settled, x.2.fence)) e :)
theorem settledView_of_wakeView {a t : Nat} (e : s'.wakeView a g t = s.wakeView a g t) :
    s'.settledView g = s.settledView g :=
  (congrArg (fun x : Nat × Gang × Fence × SMap Word => ({ x.2.1 with snap := .none, restoring := 0 }, x.2.2.1)) e :)

variable (e : s'.settledView g = s.settledView g)
include e

theorem tmode_of_settledView : (s'.gang g).tmode = (s.gang g).tmode :=
  (congrArg (fun x : Gang × Fence => x.1.tmode) e :)
theorem sheaf_of_settledView : (s'.gang g).sheaf.map Sheaf.unfaulted = (s.gang g).sheaf.map Sheaf.unfaulted :=
  (congrArg (fun x : Gang × Fence => x.1.sheaf) e :)
theorem gangTiles_of_settledView : s'.gangTiles g = s.gangTiles g :=
  (congrArg (fun x : Gang × Fence => x.1.tiles.map fun l => SMap.look (fmapDefault l) x.2.map l) e :)

end Views

theorem imem_of_wakeView {s s' : State} {a g t : Nat} (e : s'.wakeView a g t = s.wakeView a g t) :
    (s'.tile t).imem = (s.tile t).imem :=
  (congrArg (fun x : Nat × Gang × Fence × SMap Word => x.2.2.2) e :)

theorem dropSnap_settledView : (s.dropSnap g).settledView g = s.settledView g :=
  (congrArg (fun G : Gang => (G.settled, s.fence)) (gang_onGang_self _ g _) :)

/-- The tiles of a gang stop before the gang is reset. -/
def stopAll (ts : List Nat) (s : State) : State := foldEach ts s fun t s => (s.stopTile t).dropCheck t

theorem steady_trace : Steady 0x6000 := by unfold Steady; omega

theorem stopAll_settledView (ts : List Nat) : (s.stopAll ts).settledView g = s.settledView g :=
  settledView_of_stopView (foldEach_keeps (stopView 0x6000) _
    (fun t r => (dropCheck_stopView _ t).trans (stopTile_stopView r steady_trace t)) ts s)

theorem stopAll_imem (ts : List Nat) (t : Nat) : ((s.stopAll ts).tile t).imem = (s.tile t).imem :=
  foldEach_keeps (fun r : State => (r.tile t).imem) _ (fun u r => (dropCheck_imem _ u t).trans (stopTile_imem r u t)) ts s

/-- The tiles of a gang are reset. -/
def resetAll (ts : List Nat) (s : State) : State := foldEach ts s fun t s => s.resetTile t

theorem resetAll_settledView (ts : List Nat) : (s.resetAll ts).settledView g = s.settledView g :=
  settledView_of_resetView (foldEach_keeps (resetView 0x6000) _ (fun t r => resetTile_resetView r steady_trace t) ts s)

theorem resetAll_imem (ts : List Nat) (t : Nat) : ((s.resetAll ts).tile t).imem = (s.tile t).imem :=
  foldEach_keeps (fun r : State => (r.tile t).imem) _ (fun u r => (resetTile_place r u t).2) ts s

theorem resetAll_isReset {ts : List Nat} {t : Nat} (h : t ∈ ts) : ((s.resetAll ts).tile t).IsReset := by
  refine foldEach_of_mem (Q := fun r : State => (r.tile t).IsReset) (x := t) ?_ ?_ h
  · exact fun r _ hr => resetTile_keeps_isReset r hr
  · exact fun r => resetTile_isReset r t

/-- Gang `g` stops, and leaves its tallies and flags. -/
def leaving (s : State) (g : Nat) : State := ((s.stopAll (s.gangTiles g)).dropSnap g).gangGone g true

/-- Gang `g` before its end: stopped, gone from the tallies and flags, and its tiles reset. -/
def resetting (s : State) (g : Nat) : State := (s.leaving g).resetAll (s.gangTiles g)

theorem dropSnap_imem (t : Nat) : ((s.dropSnap g).tile t).imem = (s.tile t).imem := rfl

theorem leaving_settledView : (s.leaving g).settledView g = s.settledView g := by
  refine (settledView_of_wakeView (gangGone_wakeView (t := 0) _ steady_trace g true)).trans ?_
  rw [dropSnap_settledView, stopAll_settledView]

theorem leaving_imem (t : Nat) : ((s.leaving g).tile t).imem = (s.tile t).imem := by
  refine (imem_of_wakeView (gangGone_wakeView (g := g) (t := t) _ steady_trace g true)).trans ?_
  rw [dropSnap_imem, stopAll_imem]

theorem resetting_settledView : (s.resetting g).settledView g = s.settledView g :=
  (resetAll_settledView _ g _).trans (leaving_settledView s g)

theorem resetting_imem (t : Nat) : ((s.resetting g).tile t).imem = (s.tile t).imem :=
  (resetAll_imem _ _ t).trans (leaving_imem s g t)

/-- Gang `g` has been reset, and `e` is what its sheaf completes with. -/
def setEnding (s : State) (g : Nat) (e : Option Completion) : State := s.onGang g fun G => { G with ending := e }

theorem gang_setEnding (e : Option Completion) : (s.setEnding g e).gang g = { s.gang g with ending := e } :=
  gang_onGang_self _ _ _

theorem gangTiles_setEnding (e : Option Completion) : (s.setEnding g e).gangTiles g = s.gangTiles g :=
  (congrArg (fun G : Gang => G.tiles.map s.ptileOf) (gang_setEnding s g e) :)

theorem resetGang_eq (he : (s.gang g).ending = none) :
    s.resetGang g = ((s.resetting g).setEnding g
      (((s.leaving g).gang g).sheaf.map fun h => (s.leaving g).sheafRecord g h 3)).resetEnd g := by
  unfold resetGang
  rw [he]
  rfl

/-- A reset of a live gang whose end does not wait resets its tiles; the gang ends, or its end waits (R172, R174). -/
theorem resetGang_resets (he : (s.gang g).ending = none) :
    (∀ t ∈ s.gangTiles g, TileReset s (s.resetGang g) t) ∧
      (((s.resetGang g).gang g = Gang.reset ∧ ∀ t ∈ s.gangTiles g, ((s.resetGang g).tile t).gang = none) ∨
        ∃ f, (s.gang g).sheaf = some f ∧ ((s.resetGang g).gang g).ending.isSome = true ∧
          (s.resetGang g).traceBlocked (s.gang g).tmode f.trace 7 = true) := by
  have hs := resetting_settledView s g
  have hreset : ∀ t ∈ s.gangTiles g, ((s.resetting g).tile t).IsReset := fun t ht => resetAll_isReset _ ht
  rw [resetGang_eq s g he]
  generalize (Option.map _ _ : Option Completion) = e
  have hg := gang_setEnding (s.resetting g) g e
  have hts := (gangTiles_setEnding (s.resetting g) g e).trans (gangTiles_of_settledView hs)
  rcases resetEnd_cases ((s.resetting g).setEnding g e) g with ⟨h, c, hh, hc, hb, hend⟩ | hend
  · rw [hend]
    refine ⟨fun t ht => tileReset_of_isReset (hreset t ht) (resetting_imem s g t), .inr ?_⟩
    rw [hg] at hh hb
    have hmap := sheaf_of_settledView hs
    rw [hh, Option.map_some] at hmap
    obtain ⟨f, hf, hu⟩ := Option.map_eq_some_iff.1 hmap.symm
    have htrace : f.trace = h.trace := (congrArg Sheaf.trace hu :)
    refine ⟨f, hf, by rw [hc]; rfl, ?_⟩
    rw [htrace, ← tmode_of_settledView hs]
    exact hb
  · rw [← hts]
    refine ⟨fun t ht => tileReset_of_isReset (hend.isReset ?_) ((hend.imem t).trans (resetting_imem s g t)),
      .inl ⟨hend.gang, fun t ht => hend.free ht⟩⟩
    rw [hts] at ht
    exact hreset t ht

end State

/-! ### The rows of a gang reset and a tile reset -/

/-- The page of a tile is found at its offsets. -/
theorem pageAt_tile {t off : Nat} (ht : t < 4352) (ho : off < 0x1000) :
    pageAt ((Page.tile t).base + off) = some (.tile t) := by
  have hn : ((Page.tile t).base + off) / 0x1000 = 0x1000 + t := by
    simp only [Page.base]
    omega
  unfold pageAt
  dsimp only
  rw [hn]
  repeat rw [if_neg (by omega)]
  rw [if_pos (by omega), Nat.add_sub_cancel_left]

theorem exec_gangReset {s : State} {h : Nat} {v : BitVec 32} (hb : BarReady s h .dispatch) (hv : v.getLsbD 8 = true) :
    exec (.gangReset h v) s = .next (s.writeGangReset v.toNat) := by
  have hx : exec (.gangReset h v) s = writeRow s h true .dispatch 0x44 v (v.getLsbD 8) := rfl
  obtain ⟨r, hr, hw⟩ : ∃ r, regAt .dispatch 0x44 = some (r, 0x44) ∧ r.width = 32 := ⟨_, rfl, rfl⟩
  rw [hx, hv, writeRow_ready v hb rfl rfl hr hw rfl (by decide) (by decide)]
  rfl

theorem exec_tileReset {s : State} {h t : Nat} {v : BitVec 32} (ht : t < 4352) (hb : BarReady s h (.tile t))
    (hv : v.getLsbD 0 = true) : exec (.tileReset h t v) s = .next (s.writeTileCtrl t v.toNat) := by
  have hx : exec (.tileReset h t v) s = writeRow s h (isTile t) (.tile t) 0x40 v (v.getLsbD 0) := rfl
  obtain ⟨r, hr, hw⟩ : ∃ r, regAt (.tile t) 0x40 = some (r, 0x40) ∧ r.width = 32 := ⟨_, rfl, rfl⟩
  have hbase : (Page.tile t).base = 0x1000000 + t * 0x1000 := rfl
  have hcxl : isCxlRange ((Page.tile t).base + 0x40) = false := by
    unfold isCxlRange
    simp only [hbase, Bool.and_eq_false_iff, decide_eq_false_iff_not]
    omega
  rw [hx, hv, writeRow_ready v hb (by simpa [isTile] using ht) (pageAt_tile ht (by decide)) hr hw (by omega) hcxl
    fun e => by cases e]
  rfl

/-- A GANG_RESET waits for the sheaf in hand that names its gang, and else applies (R173). -/
theorem writeGangReset_eq {s : State} {v : Nat} (hv : bit v 8 = true) :
    s.writeGangReset v =
      if (s.disp.taking.map fun k => (sheafCmd k.bytes).gang) = some (v % 256) then
        s.onDisp fun d => { d with resets := d.resets ++ [v % 256] }
      else s.gangReset (v % 256) := by
  unfold State.writeGangReset
  simp only [hv, Bool.not_true, Bool.false_eq_true, if_false]
  cases s.disp.taking with
  | none => rfl
  | some k =>
    simp only [decide_eq_true_eq, Option.map_some, Option.some.injEq]

/-- A GANG_RESET waits, ends its gang, changes nothing or logs GANG_ABSENT (R172, R173). -/
theorem gangResetFreesItsTiles : Claims.GangResetFreesItsTiles := by
  intro s h v hb hv
  refine ⟨_, exec_gangReset hb hv, ?_⟩
  rw [writeGangReset_eq hv]
  split
  · rfl
  · unfold State.gangReset
    split
    · split
      next he => exact if_pos he
      next he => exact State.resetGang_resets s _ (Option.not_isSome_iff_eq_none.1 he)
    · exact State.log_logs s _ _

/-- TILE.CTRL.RESET resets a free tile, and logs TILE_BUSY of any other (R134, R411). -/
theorem tileResetNeedsAFreeTile : Claims.TileResetNeedsAFreeTile := by
  intro s h t v ht hb hv
  refine ⟨_, exec_tileReset ht hb hv, ?_⟩
  have hv : bit v.toNat 0 = true := hv
  unfold State.writeTileCtrl
  simp only [hv, Bool.not_true, Bool.false_eq_true, if_false]
  split
  next hfree =>
    obtain ⟨hgang, hplace⟩ := hfree
    rw [if_neg]
    · exact tileReset_of_isReset (State.resetTile_isReset s t) (State.resetTile_place s t t).2
    · simpa [hgang] using hplace
  next hbusy =>
    rw [if_pos]
    · exact State.log_logs s _ _
    · by_contra hnot
      simp only [not_or, Option.not_isSome_iff_eq_none, List.any_eq_true, not_exists, not_and, Bool.or_eq_true,
        decide_eq_true_eq] at hnot
      exact hbusy hnot

/-- Settles O23: a gang's reset stops and resets its tiles while the gang's own entry stays, and the end of the gang, made
then or once its trace record has room, changes of its tiles only that they are free. -/
theorem gangAndTileResets : Obligations.GangAndTileResets := ⟨gangResetFreesItsTiles, tileResetNeedsAFreeTile⟩

end Sys2Proof.Machine

/-! ## Sheaves complete (R154, R158, R165, R168, R174, R428) -/

namespace Sys2Proof.Machine

namespace State

variable (s : State) (g : Nat)

theorem tile_of_tiles {s s' : State} (e : s'.tiles = s.tiles) (t : Nat) : s'.tile t = s.tile t := by
  unfold tile
  rw [e]

/-- A state but for the bytes of its memories. -/
def dataless (s : State) : State := { s with fieldData := [], fieldCheck := [], barnData := [], barnCheck := [] }

/-- Upsets change stored bytes alone. -/
theorem upset_dataless (env : Env) : (s.upset env).dataless = s.dataless :=
  foldEach_keeps dataless _ (fun u r => by unfold upsetOne; dsimp only; split <;> split <;> rfl) _ _

theorem gang_upset (env : Env) : (s.upset env).gang g = s.gang g :=
  (congrArg (fun r : State => r.gang g) (upset_dataless s env) :)

/-! ### A sheaf ends -/

/-- What neither tiles nor gangs nor requests on the mesh show stays when a gang ends. -/
theorem freeGang_keeps {β : Type} {P : State → β} (hd : ∀ r : State, P (r.dropSnap g) = P r)
    (ht : ∀ (r : State) t f, P (r.onTile t f) = P r) (hg : ∀ (r : State) f, P (r.onGang g f) = P r) :
    P (s.freeGang g) = P s := by
  unfold freeGang
  dsimp only
  rw [hg, foldEach_keeps P _ fun t r => ht r t _, hd]

theorem freeGang_disp : (s.freeGang g).disp = s.disp :=
  freeGang_keeps s g (P := State.disp) (fun _ => rfl) (fun _ _ _ => rfl) fun _ _ => rfl

theorem freeGang_regs : (s.freeGang g).regs = s.regs :=
  freeGang_keeps s g (P := State.regs) (fun _ => rfl) (fun _ _ _ => rfl) fun _ _ => rfl

theorem queueInBarn_of_steady {s s' : State} {q : Nat} (hq : q < 64) (h : ∀ a, Steady a → s'.reg a = s.reg a)
    (hb : QueueInBarn s q) : QueueInBarn s' q :=
  queueInBarn_of_regs (h _ (steady_dbReg hq (by decide))) (h _ (steady_dbReg hq (by decide))) hb

theorem reg_of_wakeView {s s' : State} {a g t : Nat} (e : s'.wakeView a g t = s.wakeView a g t) : s'.reg a = s.reg a :=
  (congrArg Prod.fst e :)

/-- The gang of a sheaf that completes: no snapshot is under way, and the sheaf is gone from it. -/
def sheafless (s : State) (g : Nat) (f : Gang → Gang) : State :=
  (s.onGang g f).onGang g fun G => { G with sheaf := none }

theorem sheafless_sheaf (f : Gang → Gang) : ((s.sheafless g f).gang g).sheaf = none :=
  (congrArg Gang.sheaf (gang_onGang_self _ g _) :)

theorem sheafless_gangTiles {f : Gang → Gang} (hf : ∀ G, (f G).tiles = G.tiles) :
    (s.sheafless g f).gangTiles g = s.gangTiles g := by
  have h : ((s.sheafless g f).gang g).tiles = (s.gang g).tiles := by
    unfold sheafless
    rw [gang_onGang_self, gang_onGang_self]
    exact hf _
  unfold gangTiles
  rw [h]
  rfl

/-- What holds of the state in which the completion of gang `g`'s sheaf comes due. -/
structure SheafOver (s r : State) (g status : Nat) (h : Sheaf) : Prop where
  regs : ∀ a, Steady a → r.reg a = s.reg a
  sheaf : (r.gang g).sheaf = none
  tiles : status ≠ 0 → r.tiles = s.tiles
  ends : status = 0 → h.dissolve = true → r.gang g = Gang.reset ∧ ∀ t ∈ s.gangTiles g, (r.tile t).gang = none

theorem sheafless_over {f : Gang → Gang} (hf : ∀ G, (f G).tiles = G.tiles) (es : List TraceEvent) (status : Nat) (h : Sheaf) :
    SheafOver s (if status = 0 ∧ h.dissolve = true then (((s.sheafless g f).setTraceQ es).gangGone g false).freeGang g
      else (s.sheafless g f).setTraceQ es) g status h := by
  split
  next hd =>
    have hgone := fun {a} (ha : Steady a) => gangGone_wakeView (t := 0) (g := g) ((s.sheafless g f).setTraceQ es) ha g false
    have he := freeGang_ends (((s.sheafless g f).setTraceQ es).gangGone g false) g
    have hts := (gangTiles_of_settledView (settledView_of_wakeView (hgone steady_trace))).trans (sheafless_gangTiles s g hf)
    refine ⟨fun a ha => ?_, by rw [he.gang]; rfl, fun hn => absurd hd.1 hn, fun _ _ => ⟨he.gang, fun t ht => he.free ?_⟩⟩
    · have hreg : ((s.sheafless g f).setTraceQ es).reg a = s.reg a := rfl
      rw [reg_of_regs_eq (freeGang_regs _ g), reg_of_wakeView (hgone ha), hreg]
    · rwa [hts]
  next hd =>
    have hsheaf : (((s.sheafless g f).setTraceQ es).gang g).sheaf = none := sheafless_sheaf s g f
    exact ⟨fun _ _ => rfl, hsheaf, fun _ => rfl, fun h0 hh => absurd ⟨h0, hh⟩ hd⟩

/-- The completion of the sheaf that a gang runs comes due in a state in which the sheaf is over (R154, R165). -/
theorem finishSheaf_over {h : Sheaf} (status : Nat) (hs : (s.gang g).sheaf = some h) :
    ∃ (r : State) (c : Completion), s.finishSheaf g status = r.complete h.q c ∧ SheafOver s r g status h ∧
      c.status = status ∧ c.cookie = h.cookie ∧ c.gang = g ∧ c.index = h.index := by
  unfold finishSheaf
  simp only [hs]
  refine ⟨_, _, rfl, ?_, rfl, rfl, rfl, rfl⟩
  obtain ⟨es, he⟩ := traceGang_eq (s.sheafless g _) g 7 h.q h.trace _
  exact he ▸ sheafless_over s g (by exact fun _ => rfl) es status h

/-- The completion of the sheaf that a gang runs comes due, and the sheaf is gone (R154, R165). -/
theorem finishSheaf_completes {s s₀ : State} {g status : Nat} {h : Sheaf} (hs : (s.gang g).sheaf = some h) (hq : h.q < 64)
    (hr : ∀ a, Steady a → s.reg a = s₀.reg a) :
    ((s.finishSheaf g status).gang g).sheaf = none ∧
      (QueueInBarn s₀ h.q → Due (s.finishSheaf g status) h.q fun r =>
        r.status = status ∧ r.cookie = h.cookie ∧ r.gang = g ∧ r.index = h.index) ∧
      (status ≠ 0 → (s.finishSheaf g status).tiles = s.tiles) ∧
      (status = 0 → h.dissolve = true →
        (s.finishSheaf g status).gang g = Gang.reset ∧ ∀ t ∈ s.gangTiles g, ((s.finishSheaf g status).tile t).gang = none) := by
  obtain ⟨r, c, hfin, hover, hc⟩ := finishSheaf_over s g status hs
  have hv := complete_completionView r h.q c (a := 0) (ne_dbReg (by decide))
  rw [hfin, gang_of_completionView hv, tiles_of_completionView hv]
  refine ⟨hover.sheaf, fun hb => Due.mono (complete_due r h.q c ?_) fun x hx => hx ▸ hc, hover.tiles, fun h0 hd => ?_⟩
  · exact queueInBarn_of_steady hq (fun a ha => (hover.regs a ha).trans (hr a ha)) hb
  · obtain ⟨hgang, hfree⟩ := hover.ends h0 hd
    exact ⟨hgang, fun t ht => (congrArg Tile.gang (tile_of_completionView hv t)).trans (hfree t ht)⟩

/-! ### Tiles at rest -/

/-- The tiles of a gang that stops are at rest (R168). -/
theorem stopOthers_atRest {t : Nat} (ht : t ∈ s.gangTiles g) : ((s.stopOthers g none).tile t).AtRest := by
  unfold stopOthers
  refine foldEach_of_mem (Q := fun r : State => (r.tile t).AtRest) (x := t) (fun r u hr => ?_) (fun r => ?_)
    (List.mem_filter.2 ⟨ht, rfl⟩)
  · split
    · exact hr
    · exact stopTile_keeps_atRest _ (dropCheck_keeps r bodyFact_atRest hr)
  · split
    next hf => exact .inr (.inr hf)
    next => exact stopTile_atRest _ t

/-! ### The row (R154, R168, R172, R428) -/

section SheafEnd

variable {s g} {f : Sheaf} (hs : (s.gang g).sheaf = some f) (env : Env)
include hs

theorem sheafEnd_of_ending {c : Completion} (he : (s.gang g).ending = some c) : s.sheafEnd g env = s.resetEnd g := by
  unfold sheafEnd
  simp only [hs, he, Option.isSome_some, if_true]

/-- A sheaf of a gang that has not been reset, once its record need not wait. -/
theorem sheafEnd_of_running (he : (s.gang g).ending = none) :
    s.sheafEnd g env =
      if s.mayFinish g = false then s
      else if (s.gang g).faulted = true then ((s.dropSnap g).stopOthers g none).finishSheaf g 1
      else if f.steps = 0 ∨ ∀ t ∈ s.gangTiles g, (s.tile t).core = .halted then
        if s.snapDue g = true ∧ (s.gang g).snap ≠ .taken then (s.upset env).snapOn g env else s.finishSheaf g 0
      else s := by
  unfold sheafEnd
  simp only [hs, he, Option.isSome_none, Bool.false_eq_true, if_false, Bool.not_eq_true', List.all_eq_true, decide_eq_true_eq]

/-- A snapshot that is due begins with the header of the granary area (R428). -/
theorem snapOn_begins (hn : (s.gang g).snap = .none) :
    ((s.snapOn g env).gang g).snap = .asked ∧ ((s.snapOn g env).gang g).sheaf = some f ∧
      OnItsWay (s.snapOn g env) (meshReq (.snap g) .read (s.gang g).granary) := by
  unfold snapOn
  simp only [hn]
  have hg : ∀ r : State, (r.sendMesh [meshReq (.snap g) .read (s.gang g).granary]).gang g = r.gang g := fun r =>
    gang_of_interior (sendMesh_interior r _) g
  refine ⟨?_, ?_, onItsWay_sendMesh_of_mem List.mem_cons_self⟩
  · rw [hg, gang_onGang_self]
  · rw [hg, gang_onGang_self]
    exact hs

end SheafEnd

end State

theorem exec_sheafComplete {s : State} {g : Nat} (env : Env) (hg : g < 256) (hc : s.pllLost 36 = false) :
    exec (.sheafComplete g env) s = .next (s.sheafEnd g env) := by
  have hx : exec (.sheafComplete g env) s = guardUnit (g < 256) (s.inClock 36 (s.sheafEnd g env)) := rfl
  rw [hx, guardUnit_true _ _ (decide_eq_true hg), inClock_runs s _ _ hc]

/-- The end of a gang that has been reset, once its trace record need not wait (R172, R174). -/
theorem State.resetEnd_of_room {s : State} {g : Nat} {f : Sheaf} {c : Completion} (hs : (s.gang g).sheaf = some f)
    (he : (s.gang g).ending = some c) (hb : s.traceBlocked (s.gang g).tmode f.trace 7 = false) :
    GangEnds s (s.resetEnd g) g ∧ (QueueInBarn s f.q → Due (s.resetEnd g) f.q fun r => r = c) := by
  obtain ⟨es, htrace⟩ := State.traceGang_eq s g 7 f.q f.trace c.epoch
  have hend : s.resetEnd g = ((s.setTraceQ es).complete f.q c).freeGang g := by
    unfold State.resetEnd
    simp only [hs, he, hb, Bool.false_eq_true, if_false, htrace]
  rw [hend]
  refine ⟨State.complete_freeGang_ends s g ⟨es, rfl⟩ f.q c, fun hin => ?_⟩
  have hdue := State.complete_due (s.setTraceQ es) f.q c (queueInBarn_of_regs rfl rfl hin)
  unfold Due at hdue ⊢
  rwa [State.freeGang_disp]

/-- A gang that stops keeps its sheaf, and the registers stay. -/
theorem State.stopped_keeps {s : State} {g : Nat} {f : Sheaf} (hs : (s.gang g).sheaf = some f) :
    (((s.dropSnap g).stopOthers g none).gang g).sheaf = some f ∧
      ∀ a, Steady a → ((s.dropSnap g).stopOthers g none).reg a = s.reg a := by
  have hv := fun {a} (ha : Steady a) => State.stopOthers_stopView (s.dropSnap g) ha g none
  have hreg : ∀ a, (s.dropSnap g).reg a = s.reg a := fun _ => rfl
  refine ⟨?_, fun a ha => (State.reg_of_stopView (hv ha)).trans (hreg a)⟩
  rw [State.gang_of_stopView (hv State.steady_trace)]
  exact (congrArg Gang.sheaf (State.gang_onGang_self _ g _) :).trans hs

/-- Sheaves complete once they may and their gang has faulted or ended (R154, R158, R165, R168, R174, R428). -/
theorem sheavesComplete : Claims.SheavesComplete := by
  intro s g env f ended hg hc hs hq
  rw [exec_sheafComplete env hg hc]
  refine ⟨fun c he => ?_, fun he hended => ?_⟩
  · rw [State.sheafEnd_of_ending hs env he]
    split
    next hb =>
      unfold State.resetEnd
      simp only [hs, he, hb, if_true]
    next hb =>
      obtain ⟨hend, hdue⟩ := State.resetEnd_of_room hs he (Bool.eq_false_iff.2 hb)
      exact ⟨_, rfl, hend.gang, fun t ht => hend.free ht, hdue⟩
  · subst hended
    rw [State.sheafEnd_of_running hs env he]
    refine ⟨fun hw => ?_, fun hm hcase => ?_, fun hm hf hend hdue hsnap => ?_⟩
    · rcases hw with hw | ⟨hf, hend⟩
      · rw [if_pos hw]
      · rw [if_neg (by simp [hf] : ¬ (s.gang g).faulted = true), if_neg hend, ite_self]
    · rw [if_neg (by simp [hm])]
      by_cases hf : (s.gang g).faulted = true
      · rw [if_pos hf, hf]
        obtain ⟨hsheaf, hregs⟩ := State.stopped_keeps hs
        obtain ⟨hnone, hdue, htiles, -⟩ := State.finishSheaf_completes (status := 1) hsheaf hq hregs
        refine ⟨_, rfl, hnone, hdue, fun _ t ht => ?_, fun h => Bool.noConfusion h⟩
        have hts : (s.dropSnap g).gangTiles g = s.gangTiles g :=
          State.gangTiles_of_settledView (State.dropSnap_settledView s g)
        rw [State.tile_of_tiles (htiles (by decide))]
        exact State.stopOthers_atRest (s.dropSnap g) g (hts ▸ ht)
      · obtain ⟨hend, hsnap⟩ := hcase.resolve_left hf
        rw [if_neg hf, if_pos hend, if_neg (by rintro ⟨hdue, hnot⟩; rcases hsnap with h | h <;> simp_all)]
        obtain ⟨hnone, hdue, -, hfree⟩ := State.finishSheaf_completes (status := 0) hs hq fun _ _ => rfl
        rw [Bool.eq_false_iff.2 hf]
        exact ⟨_, rfl, hnone, hdue, fun h => absurd h Bool.false_ne_true, fun _ => hfree rfl⟩
    · rw [if_neg (by simp [hm]), if_neg (by simp [hf]), if_pos hend, if_pos ⟨hdue, by simp [hsnap]⟩]
      have hu := State.gang_upset s g env
      rw [← hu] at hs hsnap
      obtain ⟨hasked, hsheaf, hway⟩ := State.snapOn_begins hs env hsnap
      rw [hu] at hway
      exact ⟨_, rfl, hasked, hsheaf, hway⟩

end Sys2Proof.Machine

/-! ## Gangs are formed and started (R147, R151, R154, R157) -/

namespace Sys2Proof.Machine

/-! ### The image and the registers of a tile that starts -/

/-- What instruction memory holds once an image has been loaded. -/
theorem look_loadImage (x : Tile) (im : List Byte) {w : Nat} (hw : w < im.length / 4) :
    SMap.look 0 (State.loadImage x im).imem w = BitVec.ofNat 32 (field im (4 * w) 4) := by
  unfold State.loadImage
  dsimp only
  refine foldl_of_mem (Q := fun m => SMap.look 0 m w = BitVec.ofNat 32 (field im (4 * w) 4)) (x := w) (fun m k hm => ?_)
    (fun m => SMap.look_put_self _ _ _ _) (.inl (List.mem_range.2 hw))
  rw [SMap.look_put]
  split
  next h => rw [h]
  next => exact hm

/-- A tile that starts a sheaf: PC 0, every register zero but g1, and no step begun (R151, R157). -/
def Tile.started (arg : Word) (x : Tile) : Tile :=
  { x with g := SMap.put 0 [] 1 arg, loops := [], queue := [], stalledEntry := none, pc := 0, core := .running,
           stepsDone := 0, dirty := false, issued := [], arrived := [],
           gate := { phase := .closed, held := [], receivers := [], awaiting := [] } }

/-- A tile of rank `rank` of the `size` tiles that form the gang of `c` (R147, R151, R397). -/
def Tile.placed (c : SheafCmd) (rank size : Nat) (x : Tile) : Tile :=
  { x with gang := some c.gang, gangId := c.gang, rank, gsize := size, epoch := BitVec.ofNat 32 c.epoch0, stepsDone := 0 }

/-- A tile that has started the sheaf of command `c` with image `im` (R151, R157). -/
structure Tile.RunsSheaf (x : Tile) (c : SheafCmd) (im : List Byte) : Prop where
  gang : x.gang = some c.gang
  pc : x.pc = 0
  regs : x.g = SMap.put 0 [] 1 c.arg
  imem : c.usesImage = true → ∀ w, w < im.length / 4 → SMap.look 0 x.imem w = BitVec.ofNat 32 (field im (4 * w) 4)

namespace State

variable (s : State)

theorem fence_of_resetView {s s' : State} {a : Nat} (e : s'.resetView a = s.resetView a) : s'.fence = s.fence :=
  (congrArg (fun x : Nat × State => x.2.fence) e :)
theorem gang_of_resetView {s s' : State} {a : Nat} (e : s'.resetView a = s.resetView a) (g : Nat) : s'.gang g = s.gang g :=
  (congrArg (fun x : Nat × State => x.2.gang g) e :)
theorem ptileOf_of_fence {s s' : State} (e : s'.fence = s.fence) (l : Nat) : s'.ptileOf l = s.ptileOf l := by
  unfold ptileOf
  rw [e]

/-! ### Tiles that start -/

/-- Beginning a step changes no tile but its core and its gate. -/
theorem beginStep_keeps {β : Type} {P : Tile → β} (hP : ∀ x c y, P { x with core := c, gate := y } = P x) (t u : Nat) :
    P ((s.beginStep t).tile u) = P (s.tile u) := by
  unfold beginStep
  split
  · rfl
  · split
    · rw [tile_onTile]
      split
      next h => rw [hP, h]
      next => rfl
    · unfold startStep
      dsimp only
      split
      · split <;> rfl
      · rfl

theorem beginStep_resetView (a t : Nat) : (s.beginStep t).resetView a = s.resetView a := by
  unfold beginStep
  split
  · rfl
  · split
    · rfl
    · unfold startStep
      dsimp only
      split
      · split <;> rfl
      · rfl

theorem onTile_resetView (a t : Nat) (f : Tile → Tile) : (s.onTile t f).resetView a = s.resetView a := rfl

theorem startTile_eq (t : Nat) (arg : Word) : s.startTile t arg = (s.onTile t (Tile.started arg)).beginStep t := rfl

theorem startTile_resetView (a t : Nat) (arg : Word) : (s.startTile t arg).resetView a = s.resetView a :=
  (beginStep_resetView _ a t).trans rfl

theorem startTile_self (t : Nat) (arg : Word) :
    (((s.startTile t arg).tile t).pc, ((s.startTile t arg).tile t).g) = (0, SMap.put 0 [] 1 arg) := by
  rw [startTile_eq, beginStep_keeps (P := fun x => (x.pc, x.g)) _ (fun _ _ _ => rfl), tile_onTile_self]
  rfl

/-- Starting a tile keeps what its start and its core and gate leave. -/
theorem startTile_keeps {β : Type} {P : Tile → β} (hP : ∀ x c y, P { x with core := c, gate := y } = P x) {t u : Nat}
    {arg : Word} (hs : u = t → P ((s.tile u).started arg) = P (s.tile u)) :
    P ((s.startTile t arg).tile u) = P (s.tile u) := by
  rw [startTile_eq, beginStep_keeps _ hP, tile_onTile]
  split
  next h => rw [← hs h, h]
  next => rfl

/-- The tiles of a gang start. -/
def startAll (ts : List Nat) (arg : Word) (s : State) : State := foldEach ts s fun t s => s.startTile t arg

theorem startAll_resetView (a : Nat) (ts : List Nat) (arg : Word) : (s.startAll ts arg).resetView a = s.resetView a :=
  foldEach_keeps (resetView a) _ (fun t r => startTile_resetView r a t arg) ts s

theorem startAll_place (ts : List Nat) (arg : Word) (u : Nat) :
    (((s.startAll ts arg).tile u).gang, ((s.startAll ts arg).tile u).imem) = ((s.tile u).gang, (s.tile u).imem) :=
  foldEach_keeps (fun r : State => ((r.tile u).gang, (r.tile u).imem)) _
    (fun _ r => startTile_keeps r (P := fun x => (x.gang, x.imem)) (fun _ _ _ => rfl) fun _ => rfl) ts s

theorem startAll_started {ts : List Nat} {t : Nat} (ht : t ∈ ts) (arg : Word) :
    (((s.startAll ts arg).tile t).pc, ((s.startAll ts arg).tile t).g) = (0, SMap.put 0 [] 1 arg) := by
  refine foldEach_of_mem (Q := fun r : State => ((r.tile t).pc, (r.tile t).g) = (0, SMap.put 0 [] 1 arg)) (x := t)
    (fun r u hr => ?_) (fun r => startTile_self r t arg) ht
  refine (startTile_keeps r (P := fun x => (x.pc, x.g)) (fun _ _ _ => rfl) fun _ => ?_).trans hr
  rw [hr]
  rfl

/-! ### The image -/

/-- The tiles of a gang load their image. -/
def loadAll (ts : List Nat) (im : List Byte) (s : State) : State :=
  foldEach ts s fun t s => s.onTile t fun x => State.loadImage x im

theorem loadAll_resetView (a : Nat) (ts : List Nat) (im : List Byte) : (s.loadAll ts im).resetView a = s.resetView a :=
  foldEach_keeps (resetView a) _ (fun t r => onTile_resetView r a t _) ts s

theorem loadAll_gang (ts : List Nat) (im : List Byte) (u : Nat) : ((s.loadAll ts im).tile u).gang = (s.tile u).gang := by
  refine foldEach_keeps (fun r : State => (r.tile u).gang) _ (fun t r => ?_) ts s
  rw [tile_onTile]
  split
  next h => rw [h]; rfl
  next => rfl

theorem loadAll_look {ts : List Nat} {im : List Byte} {t w : Nat} (ht : t ∈ ts) (hw : w < im.length / 4) :
    SMap.look 0 ((s.loadAll ts im).tile t).imem w = BitVec.ofNat 32 (field im (4 * w) 4) := by
  refine foldEach_of_mem (Q := fun r : State => SMap.look 0 (r.tile t).imem w = BitVec.ofNat 32 (field im (4 * w) 4)) (x := t)
    (fun r u hr => ?_) (fun r => ?_) ht
  · rw [tile_onTile]
    split
    next => exact look_loadImage _ im hw
    next => exact hr
  · rw [tile_onTile_self]
    exact look_loadImage _ im hw

/-! ### The tiles of a gang that is formed -/

/-- The tiles of a gang are reset and take their places. -/
def formTiles (c : SheafCmd) (ls : List Nat) (s : State) : State :=
  foldEach (ls.zip (List.range ls.length)) s fun p s =>
    (s.resetTile (s.ptileOf p.1)).onTile (s.ptileOf p.1) (Tile.placed c p.2 ls.length)

theorem formTiles_resetView {a : Nat} (ha : Steady a) (c : SheafCmd) (ls : List Nat) :
    (s.formTiles c ls).resetView a = s.resetView a :=
  foldEach_keeps (resetView a) _ (fun _ r => (onTile_resetView _ _ _ _).trans (resetTile_resetView r ha _)) _ s

theorem formTiles_gang (c : SheafCmd) {ls : List Nat} {l : Nat} (hl : l ∈ ls) :
    ((s.formTiles c ls).tile (s.ptileOf l)).gang = some c.gang := by
  obtain ⟨i, hi, hli⟩ := List.mem_iff_getElem.1 hl
  have hmem : (l, i) ∈ ls.zip (List.range ls.length) :=
    List.mem_iff_getElem.2 ⟨i, by simpa using hi, by simp [hli]⟩
  have hfence : ∀ (r : State) (p : Nat × Nat) f, ((r.resetTile (r.ptileOf p.1)).onTile (r.ptileOf p.1) f).fence = r.fence :=
    fun r p f => fence_of_resetView (a := 0x6000) ((onTile_resetView _ _ _ _).trans (resetTile_resetView r steady_trace _))
  refine foldEach_of_mem (Q := fun r : State => r.fence = s.fence → (r.tile (s.ptileOf l)).gang = some c.gang) (x := (l, i))
    (fun r p hr he => ?_) (fun r he => ?_) hmem (fence_of_resetView (formTiles_resetView s steady_trace c ls))
  · rw [tile_onTile]
    split
    next => rfl
    next => exact (resetTile_place r _ _).1.trans (hr ((hfence r p _).symm.trans he))
  · rw [ptileOf_of_fence ((hfence r _ _).symm.trans he), tile_onTile_self]
    rfl

/-! ### The sheaf is performed (R151, R152) -/

/-- The state in which the gang of a sheaf stands, formed on the tiles `ls` if the sheaf forms it. -/
def ready (s : State) (c : SheafCmd) (ls : List Nat) : State := if c.form then s.formGang c ls else s

/-- The sheaf of command `c` as it starts, its map being of generation `gen`. -/
def sheafOf (q idx : Nat) (c : SheafCmd) (k : Checked) (gen : Nat) : Sheaf :=
  { q, index := idx, cookie := c.cookie, steps := c.steps, dissolve := c.dissolve, trace := c.trace, ranges := k.ranges,
    fmapGen := gen, nfault := 0, code := 0, fseq := 0, flost := false }

/-- Gang `g` runs sheaf `h`. -/
def assign (s : State) (g : Nat) (h : Sheaf) : State := s.onGang g fun G => { G with sheaf := some h }

/-- The start of the sheaf that command `c` gave its gang is traced. -/
def traceStart (s : State) (q : Nat) (c : SheafCmd) : State := s.traceGang c.gang 6 q c.trace (s.gangEpoch c.gang)

/-- The tiles of a gang load their image, if the sheaf names one, and start. -/
def launch (s : State) (ts : List Nat) (c : SheafCmd) (im : List Byte) : State :=
  if c.steps = 0 then s else (if c.usesImage = true then s.loadAll ts im else s).startAll ts c.arg

/-- The state in which the gang of a sheaf has been given it. -/
def given (s : State) (q idx : Nat) (c : SheafCmd) (k : Checked) : State :=
  (s.ready c k.tiles).assign c.gang (sheafOf q idx c k ((s.ready c k.tiles).getF 0x4048 31 0))

theorem performSheaf_eq {q idx : Nat} {c : SheafCmd} {k : Checked} (hk : ¬ (c.form = true ∧ k.tiles = [])) :
    s.performSheaf q idx c k =
      ((s.given q idx c k).traceStart q c).launch ((s.given q idx c k).gangTiles c.gang) c k.image := by
  unfold performSheaf
  rw [if_neg hk]
  rfl

theorem traceStart_resetView (a q : Nat) (c : SheafCmd) : (s.traceStart q c).resetView a = s.resetView a := by
  obtain ⟨es, he⟩ := traceGang_eq s c.gang 6 q c.trace (s.gangEpoch c.gang)
  rw [traceStart, he]
  rfl

theorem traceStart_tiles (q : Nat) (c : SheafCmd) : (s.traceStart q c).tiles = s.tiles := by
  obtain ⟨es, he⟩ := traceGang_eq s c.gang 6 q c.trace (s.gangEpoch c.gang)
  rw [traceStart, he]
  rfl

theorem launch_resetView (a : Nat) (ts : List Nat) (c : SheafCmd) (im : List Byte) :
    (s.launch ts c im).resetView a = s.resetView a := by
  unfold launch
  split
  · rfl
  · exact (startAll_resetView _ a ts c.arg).trans (ite_keeps (P := resetView a) (loadAll_resetView s a ts im) rfl)

/-- The tiles of a gang that run its sheaf. -/
theorem launch_runsSheaf {ts : List Nat} {t : Nat} (ht : t ∈ ts) {c : SheafCmd} (hc : c.steps ≠ 0) (im : List Byte)
    (hgang : (s.tile t).gang = some c.gang) : ((s.launch ts c im).tile t).RunsSheaf c im := by
  unfold launch
  rw [if_neg hc]
  generalize hr : (if c.usesImage = true then s.loadAll ts im else s) = r
  obtain ⟨hrgang, himem⟩ := Prod.mk.inj (startAll_place r ts c.arg t)
  obtain ⟨hpc, hg⟩ := Prod.mk.inj (startAll_started r ht c.arg)
  have hrg : (r.tile t).gang = (s.tile t).gang :=
    hr ▸ ite_keeps (P := fun r : State => (r.tile t).gang) (loadAll_gang s ts im t) rfl
  refine ⟨hrgang.trans (hrg.trans hgang), hpc, hg, fun hu w hw => ?_⟩
  rw [himem, ← hr, if_pos hu]
  exact loadAll_look s ht hw

/-- A gang as its sheaf forms it (R147, R151). -/
def formed (s : State) (c : SheafCmd) (ls : List Nat) : Gang :=
  { Gang.reset with
    live := true, tiles := ls, checkpoint := c.checkpoint, tithe := c.tithe, tmode := s.getF 0x5040 1 0,
    granary := c.granary, crew := c.crew, seed := BitVec.ofNat 64 (s.reg 0x3048) }

theorem formGang_eq (c : SheafCmd) (ls : List Nat) :
    s.formGang c ls = (s.formTiles c ls).onGang c.gang fun _ => (s.formTiles c ls).formed c ls := rfl

/-- Register `a`, the queue served last, and what the dispatcher has in hand, gang resets that wait included. -/
def handView (a : Nat) (s : State) : Nat × Nat × Option Taking × List Nat := (s.reg a, s.lastQueue, s.disp.taking, s.disp.resets)

theorem handView_of_resetView {s s' : State} {a : Nat} (e : s'.resetView a = s.resetView a) : s'.handView a = s.handView a :=
  (congrArg (fun x : Nat × State => (x.1, x.2.lastQueue, x.2.disp.taking, x.2.disp.resets)) e :)

theorem handView_of_completionView {s s' : State} {a : Nat} (e : s'.completionView a = s.completionView a) :
    s'.handView a = s.handView a :=
  (congrArg (fun x : Nat × State => (x.1, x.2.lastQueue, x.2.disp.taking, x.2.disp.resets)) e :)

theorem taking_of_handView {s s' : State} {a : Nat} (e : s'.handView a = s.handView a) : s'.disp.taking = s.disp.taking :=
  (congrArg (fun v : Nat × Nat × Option Taking × List Nat => v.2.2.1) e :)

theorem given_handView {a : Nat} (ha : Steady a) (q idx : Nat) (c : SheafCmd) (k : Checked) :
    (s.given q idx c k).handView a = s.handView a := by
  have h : (s.ready c k.tiles).handView a = s.handView a :=
    ite_keeps (P := handView a) (handView_of_resetView (formTiles_resetView s ha c k.tiles) :) rfl
  exact h

/-- Performing a sheaf leaves what the dispatcher has in hand. -/
theorem performSheaf_handView {a : Nat} (ha : Steady a) {q : Nat} (hq : a ≠ dbReg q 0x68) (idx : Nat) (c : SheafCmd)
    (k : Checked) : (s.performSheaf q idx c k).handView a = s.handView a := by
  by_cases hk : c.form = true ∧ k.tiles = []
  · obtain ⟨x, he⟩ : ∃ x, s.performSheaf q idx c k = s.complete q x := ⟨_, if_pos hk⟩
    rw [he]
    exact handView_of_completionView (complete_completionView s q x hq)
  · rw [performSheaf_eq s hk, handView_of_resetView (launch_resetView _ a _ _ _),
      handView_of_resetView (traceStart_resetView _ a q c)]
    exact given_handView s ha q idx c k

/-- A sheaf that forms its gang leaves it live on its tiles, which have started (R151, R157). -/
theorem performSheaf_forms {q idx : Nat} {c : SheafCmd} {k : Checked} (hf : c.form = true) (hk : k.tiles ≠ [])
    (hc : c.steps ≠ 0) :
    ((s.performSheaf q idx c k).gang c.gang).live = true ∧ ((s.performSheaf q idx c k).gang c.gang).tiles = k.tiles ∧
      (((s.performSheaf q idx c k).gang c.gang).sheaf.map fun f => (f.q, f.cookie, f.steps)) = some (q, c.cookie, c.steps) ∧
      ∀ l ∈ k.tiles, ((s.performSheaf q idx c k).tile ((s.performSheaf q idx c k).ptileOf l)).RunsSheaf c k.image := by
  have hready : s.ready c k.tiles = (s.formTiles c k.tiles).onGang c.gang fun _ => (s.formTiles c k.tiles).formed c k.tiles :=
    (if_pos hf).trans (formGang_eq s c k.tiles)
  have hfence : (s.given q idx c k).fence = s.fence := by
    have h : (s.ready c k.tiles).fence = s.fence := by
      rw [hready]
      exact (fence_of_resetView (formTiles_resetView s steady_trace c k.tiles) :)
    exact h
  have hgang : (s.given q idx c k).gang c.gang =
      { (s.formTiles c k.tiles).formed c k.tiles with
        sheaf := some (sheafOf q idx c k ((s.ready c k.tiles).getF 0x4048 31 0)) } := by
    unfold given assign
    rw [gang_onGang_self, hready, gang_onGang_self]
  have hplace : ∀ l ∈ k.tiles, ((s.given q idx c k).tile (s.ptileOf l)).gang = some c.gang := fun l hl => by
    have h : ((s.ready c k.tiles).tile (s.ptileOf l)).gang = some c.gang := by
      rw [hready]
      exact formTiles_gang s c hl
    exact h
  have hts : (s.given q idx c k).gangTiles c.gang = k.tiles.map s.ptileOf := by
    unfold gangTiles
    rw [hgang]
    exact List.map_congr_left fun l _ => ptileOf_of_fence hfence l
  rw [performSheaf_eq s fun h => hk h.2, hts]
  have hv := (launch_resetView ((s.given q idx c k).traceStart q c) 0x6000 (k.tiles.map s.ptileOf) c k.image).trans
    (traceStart_resetView _ 0x6000 q c)
  rw [gang_of_resetView hv, hgang]
  refine ⟨rfl, rfl, rfl, fun l hl => ?_⟩
  rw [ptileOf_of_fence ((fence_of_resetView hv).trans hfence)]
  refine launch_runsSheaf _ (List.mem_map_of_mem hl) hc _ ?_
  rw [tile_of_tiles (traceStart_tiles _ q c)]
  exact hplace l hl

end State
end Sys2Proof.Machine

/-! ## The dispatcher takes sheaves (R27, R139, R141, R149, R152, R165) -/

namespace Sys2Proof.Machine

namespace State

variable (s : State)

/-- The dispatcher has sheaf `k` in hand, or none. -/
def inHand (s : State) (k : Option Taking) : State := s.onDisp fun d => { d with taking := k }

theorem inHand_of_taking {k : Taking} (hk : s.disp.taking = some k) : s.inHand (some k) = s := by
  unfold inHand onDisp
  rw [← hk]

theorem checkSheaf_inHand (k : Option Taking) (c : SheafCmd) (got : List (Nat × Line)) :
    (s.inHand k).checkSheaf c got = s.checkSheaf c got := rfl

theorem startBlocked_inHand (k : Option Taking) (c : SheafCmd) : (s.inHand k).startBlocked c = s.startBlocked c := rfl

/-! ### Reads of the dispatcher -/

/-- The reads that are made for these DPAs, numbered from `n`. -/
def numbered (n : Nat) (dpas : List Nat) : List (Nat × Nat) := ((List.range dpas.length).zip dpas).map fun p => (n + p.1, p.2)

theorem exists_numbered {n d : Nat} {dpas : List Nat} (hd : d ∈ dpas) : ∃ id, (id, d) ∈ numbered n dpas := by
  obtain ⟨i, hi, rfl⟩ := List.mem_iff_getElem.1 hd
  exact ⟨n + i, List.mem_map.2 ⟨(i, dpas[i]), List.mem_iff_getElem.2 ⟨i, by simpa using hi, by simp⟩, rfl⟩⟩

/-- Asking for lines changes of the dispatcher the number of its next read. -/
theorem dispRead_keeps {β : Type} {P : State → β} (hp : ∀ r t f, P (onPillar r t f) = P r)
    (hc : ∀ r c f, P (onChannel r c f) = P r) (hm : ∀ (r : State) m, P { r with mesh := m } = P r)
    (hn : ∀ (r : State) n, P (r.onDisp fun d => { d with nextRead := n }) = P r) (dpas : List Nat) :
    P (s.dispRead dpas).2 = P s :=
  (sendMesh_keeps _ P hp hc hm _).trans (hn s _)

theorem dispRead_handView (a : Nat) (dpas : List Nat) : (s.dispRead dpas).2.handView a = s.handView a :=
  dispRead_keeps s (fun _ _ _ => rfl) (fun _ _ _ => rfl) (fun _ _ => rfl) (fun _ _ => rfl) dpas

theorem onItsWay_dispRead {dpas : List Nat} {p : Nat × Nat} (hp : p ∈ (s.dispRead dpas).1) :
    OnItsWay (s.dispRead dpas).2 (meshReq (.disp p.1) .read p.2) :=
  onItsWay_sendMesh_of_mem (List.mem_map_of_mem (f := fun p : Nat × Nat => meshReq (.disp p.1) .read p.2) hp)

/-! ### The sheaf in hand -/

/-- The lines of `dpas` that the sheaf in hand has not asked for. -/
def missing (k : Taking) (dpas : List Nat) : List Nat :=
  dpas.filter fun d => !(k.fetch.asked.any fun p => p.2 = d) && !(k.fetch.got.any fun p => p.1 = d)

/-- Sheaf `k` once its reads, numbered from `n`, have been made. -/
def asking (k : Taking) (n : Nat) (dpas : List Nat) : Taking :=
  { k with fetch := { k.fetch with asked := k.fetch.asked ++ numbered n (missing k dpas) } }

section GoOn

variable {s} {k : Taking}

theorem goOn_of_need {dpas : List Nat} (hc : s.checkSheaf (sheafCmd k.bytes) k.fetch.got = .need dpas) :
    (s.inHand (some k)).goOn k =
      ((s.inHand (some (asking k s.disp.nextRead dpas))).dispRead (missing k dpas)).2 := by
  unfold goOn
  simp only [checkSheaf_inHand, hc]
  rfl

theorem goOn_of_reject {code addr : Nat} (hc : s.checkSheaf (sheafCmd k.bytes) k.fetch.got = .reject code addr) :
    (s.inHand (some k)).goOn k =
      (s.inHand none).rejectSheaf k.q k.index (sheafCmd k.bytes).gang (sheafCmd k.bytes).cookie code addr := by
  unfold goOn
  simp only [checkSheaf_inHand, hc]
  rfl

theorem goOn_of_ok {r : Checked} (hc : s.checkSheaf (sheafCmd k.bytes) k.fetch.got = .ok r) :
    (s.inHand (some k)).goOn k =
      if s.startBlocked (sheafCmd k.bytes) = true then s.inHand (some k)
      else (s.inHand none).performSheaf k.q k.index (sheafCmd k.bytes) r := by
  unfold goOn
  simp only [checkSheaf_inHand, startBlocked_inHand, hc]
  rfl

theorem mem_asking_of_need {n d : Nat} {dpas : List Nat} (hd : d ∈ dpas) :
    (∃ id, (id, d) ∈ (asking k n dpas).fetch.asked) ∨ ∃ l, (d, l) ∈ k.fetch.got := by
  by_cases ha : ∃ id, (id, d) ∈ k.fetch.asked
  · obtain ⟨id, hid⟩ := ha
    exact .inl ⟨id, List.mem_append_left _ hid⟩
  by_cases hg : ∃ l, (d, l) ∈ k.fetch.got
  · exact .inr hg
  · have hm : d ∈ missing k dpas := List.mem_filter.2 ⟨hd, by
      simp only [Bool.and_eq_true, Bool.not_eq_true', List.any_eq_false, decide_eq_true_eq]
      exact ⟨fun p hp h => ha ⟨p.1, h ▸ hp⟩, fun p hp h => hg ⟨p.2, h ▸ hp⟩⟩⟩
    obtain ⟨id, hid⟩ := exists_numbered (n := n) hm
    exact .inl ⟨id, List.mem_append_right _ hid⟩

/-- What a check needs is read, and the gangs and tiles stay (R149). -/
theorem goOn_need {dpas : List Nat} (hc : s.checkSheaf (sheafCmd k.bytes) k.fetch.got = .need dpas) :
    GoesOn s ((s.inHand (some k)).goOn k) k := by
  unfold GoesOn
  rw [goOn_of_need hc]
  simp only [hc]
  have hi := dispRead_keeps (s.inHand (some (asking k s.disp.nextRead dpas)))
    (P := fun r => (r.gangs, r.tiles, r.disp.taking)) (fun _ _ _ => rfl) (fun _ _ _ => rfl) (fun _ _ => rfl)
    (fun _ _ => rfl) (missing k dpas)
  simp only [Prod.mk.injEq] at hi
  obtain ⟨hgangs, htiles, htaking⟩ := hi
  refine ⟨hgangs, htiles, _, htaking, rfl, rfl, rfl, rfl, fun d hd => mem_asking_of_need hd, fun p hp => ?_⟩
  exact (List.mem_append.1 hp).imp_right fun h => onItsWay_dispRead (s.inHand _) h

/-! ### Sheaves that are rejected -/

omit k in
variable (s) in
theorem rejectSheaf_eq (q idx g cookie code addr : Nat) : ∃ (i : FaultInfo) (ctx : RecordContext) (c : Completion),
    s.rejectSheaf q idx g cookie code addr = ((s.faultRecord i ctx none).2.2).complete q c ∧
      c.status = 2 ∧ c.code = code ∧ c.cookie = cookie ∧ c.gang = g ∧ c.index = idx :=
  ⟨_, _, _, rfl, rfl, rfl, rfl, rfl, rfl⟩

omit k in
variable (s) in
/-- A fault record moves the write index of its ring on (R171). -/
theorem getF_faultRecord (i : FaultInfo) (ctx : RecordContext) (t : Option Nat) :
    ((s.faultRecord i ctx t).2.2).getF 0x5054 31 0 = (s.getF 0x5054 31 0 + 1) % 2 ^ 32 := by
  have hset : (s.setF 0x5054 31 0 (s.getF 0x5054 31 0 + 1)).getF 0x5054 31 0 = (s.getF 0x5054 31 0 + 1) % 2 ^ 32 :=
    getF_setF_self _ _ _ _ _ (by decide) (by decide)
  refine (getF_of_reg_eq ?_ _ _).trans hset
  unfold faultRecord
  dsimp only
  split
  · rw [raise_reg, reg_addF_ne _ _ _ _ _ _ (by decide)]
  · rw [reg_postLines]

/-- A check that fails rejects the sheaf with its code (R149, R165, R170). -/
theorem goOn_reject (hq : k.q < 64) {code addr : Nat}
    (hc : s.checkSheaf (sheafCmd k.bytes) k.fetch.got = .reject code addr) :
    GoesOn s ((s.inHand (some k)).goOn k) k := by
  obtain ⟨i, ctx, c, he, hcompl⟩ :=
    rejectSheaf_eq (s.inHand none) k.q k.index (sheafCmd k.bytes).gang (sheafCmd k.bytes).cookie code addr
  have hi := faultRecord_interior (s.inHand none) i ctx none
  have hv := complete_completionView (((s.inHand none).faultRecord i ctx none).2.2) k.q c (a := 0x5054)
    (ne_dbReg (by decide))
  unfold GoesOn
  rw [goOn_of_reject hc, he]
  simp only [hc]
  refine ⟨(taking_of_completionView hv).trans (congrArg (fun r : State => r.disp.taking) hi :),
    (gangs_of_completionView hv).trans (congrArg State.gangs hi :), (tiles_of_completionView hv).trans (tiles_of_interior hi :),
    (getF_of_reg_eq (reg_of_completionView hv) _ _).trans (getF_faultRecord (s.inHand none) i ctx none), fun hb => ?_⟩
  refine Due.mono (complete_due _ k.q c ?_) fun x hx => hx ▸ hcompl
  exact queueInBarn_of_steady hq (fun a ha => reg_of_stopView (faultRecord_stopView (s.inHand none) ha i ctx none)) hb

/-! ### Sheaves that pass their checks -/

/-- A sheaf that passes its checks waits for the trace ring, or forms its gang and starts its tiles (R151, R157, R174). -/
theorem goOn_ok {r : Checked} (hc : s.checkSheaf (sheafCmd k.bytes) k.fetch.got = .ok r) :
    GoesOn s ((s.inHand (some k)).goOn k) k := by
  unfold GoesOn
  rw [goOn_of_ok hc]
  simp only [hc]
  split
  · rfl
  · refine ⟨?_, fun hf hk hs => ?_⟩
    · have h := performSheaf_handView (s.inHand none) steady_trace (q := k.q) (ne_dbReg (by decide))
        k.index (sheafCmd k.bytes) r
      exact taking_of_handView h
    · obtain ⟨hlive, htiles, hsheaf, hrun⟩ := performSheaf_forms (s.inHand none) (q := k.q) (idx := k.index) hf hk hs
      refine ⟨hlive, htiles, hsheaf, fun l hl => ?_⟩
      obtain ⟨hgang, hpc, hregs, himem⟩ := hrun l hl
      refine ⟨hgang, hpc, ?_, ?_, himem⟩
      · rw [Tile.rd, hregs]; exact SMap.look_put_self _ _ _ _
      · rw [Tile.rd, hregs]; exact SMap.look_put_ne _ _ _ _ (by decide)

/-- The dispatcher goes on with the sheaf in hand (R149 to R152). -/
theorem goOn_goesOn (hq : k.q < 64) : GoesOn s ((s.inHand (some k)).goOn k) k := by
  rcases hc : s.checkSheaf (sheafCmd k.bytes) k.fetch.got with dpas | ⟨code, addr⟩ | r
  · exact goOn_need hc
  · exact goOn_reject hq hc
  · exact goOn_ok hc

/-- Going on with a sheaf takes no queue's head and brings no gang reset. -/
theorem goOn_handView {a : Nat} (ha : Steady a) (hq : a ≠ dbReg k.q 0x68) :
    (((s.inHand (some k)).goOn k).reg a, ((s.inHand (some k)).goOn k).lastQueue, ((s.inHand (some k)).goOn k).disp.resets) =
      (s.reg a, s.lastQueue, s.disp.resets) := by
  have hand : ∀ {r : State} {x}, r.handView a = (s.inHand x).handView a →
      (r.reg a, r.lastQueue, r.disp.resets) = (s.reg a, s.lastQueue, s.disp.resets) := fun e =>
    (congrArg (fun v : Nat × Nat × Option Taking × List Nat => (v.1, v.2.1, v.2.2.2)) e :)
  rcases hc : s.checkSheaf (sheafCmd k.bytes) k.fetch.got with dpas | ⟨code, addr⟩ | r
  · rw [goOn_of_need hc]
    exact hand (dispRead_handView _ a _)
  · obtain ⟨i, ctx, c, he, -⟩ :=
      rejectSheaf_eq (s.inHand none) k.q k.index (sheafCmd k.bytes).gang (sheafCmd k.bytes).cookie code addr
    rw [goOn_of_reject hc, he]
    exact hand ((handView_of_completionView (complete_completionView _ k.q c hq)).trans
      (handView_of_resetView (resetView_of_stopView (faultRecord_stopView (s.inHand none) ha i ctx none))))
  · rw [goOn_of_ok hc]
    split
    · rfl
    · exact hand (performSheaf_handView (s.inHand none) ha hq k.index _ r)

theorem goOn_resets : ((s.inHand (some k)).goOn k).disp.resets = s.disp.resets :=
  (congrArg (fun v : Nat × Nat × List Nat => v.2.2)
    (goOn_handView steady_trace (ne_dbReg (by decide))) :)

end GoOn

/-! ### The row -/

theorem lateResets_of_none (h : s.disp.resets = []) : s.lateResets = s := by
  unfold lateResets
  split
  · rfl
  · have he : (s.onDisp fun d => { d with resets := [] }) = s := by
      unfold onDisp
      rw [← h]
    rw [he, h]
    rfl

theorem disp_upset (env : Env) : (s.upset env).disp = s.disp :=
  (congrArg State.disp (upset_dataless s env) :)

end State

theorem exec_sheafTake {s : State} {q : Nat} (env : Env) (hq : q < 64) (ho : DispatcherOpen s) :
    exec (.sheafTake q env) s = .next ((s.upset env).takeSheaf q).lateResets := by
  have hx : exec (.sheafTake q env) s = guardUnit (isSheafQueue q) (s.inClock 36
      (if (s.getF 0x1040 3 0 = 10 ∨ s.getF 0x1040 3 0 = 11) ∧ !s.st.thermtrip then ((s.upset env).takeSheaf q).lateResets
        else s)) := rfl
  rw [hx, guardUnit_true _ _ (by simpa [isSheafQueue] using hq), inClock_runs s _ _ ho.clock,
    if_pos ⟨ho.stage, by rw [ho.cool]; rfl⟩]

/-- A free dispatcher reads the heads, and takes the head of the queue that rotation reaches, once it has come (R141). -/
theorem State.takeSheaf_of_free {s : State} {q : Nat} (h : s.disp.taking = none) :
    s.takeSheaf q =
      if s.readHeads.nextQueue = some q ∧ (s.readHeads.head q).got ≠ [] then s.readHeads.takeHead q else s.readHeads := by
  unfold State.takeSheaf
  rw [h]

/-- The sheaf in hand goes on (R149 to R152). -/
theorem theSheafInHandGoesOn : Claims.TheSheafInHandGoesOn := by
  intro s q env k hq ho hr hk hkq
  have hd := State.disp_upset s env
  have ht : (s.upset env).takeSheaf q = ((s.upset env).inHand (some k)).goOn k := by
    rw [State.inHand_of_taking _ (hd ▸ hk)]
    unfold State.takeSheaf
    rw [hd, hk]
    exact if_pos hkq
  refine ⟨_, exec_sheafTake env hq ho, ?_⟩
  rw [ht, State.lateResets_of_none _ (State.goOn_resets.trans (hd ▸ hr))]
  exact State.goOn_goesOn (hkq ▸ hq)

end Sys2Proof.Machine

/-! ## The heads of the queues (R139, R141) -/

namespace Sys2Proof.Machine

/-- A pass whose step at `x` brings about, in states that an invariant holds of, what every step keeps. -/
theorem foldEach_reaches {α σ : Type} {J Q : σ → Prop} {f : α → σ → σ} {x : α} (hJ : ∀ y s, J s → J (f y s))
    (hkeep : ∀ y s, J s → Q s → Q (f y s)) (hmem : ∀ s, J s → Q (f x s)) {xs : List α} {s : σ} (hx : x ∈ xs) (h : J s) :
    Q (foldEach xs s f) := by
  induction xs generalizing s with
  | nil => cases hx
  | cons y ys ih =>
    by_cases hys : x ∈ ys
    · exact ih hys (hJ y s h)
    · obtain rfl := (List.mem_cons.1 hx).resolve_right hys
      exact (foldEach_invariant (P := fun s => J s ∧ Q s) (fun y s hs => ⟨hJ y s hs.1, hkeep y s hs.1 hs.2⟩)
        ⟨hJ x s h, hmem s h⟩).2

namespace State

variable (s : State)

/-- The dispatcher asks for the head of queue `q`. -/
def readHead (q : Nat) (s : State) : State := (s.dispRead [s.headAt q]).2.setHead q ⟨(s.dispRead [s.headAt q]).1, []⟩

/-- The registers, gangs and tiles, and what the dispatcher does besides reading heads. -/
def headView (s : State) : SMap Reg × SMap Gang × SMap Tile × Steward × Option Taking × List Nat :=
  (s.regs, s.gangs, s.tiles, s.st, s.disp.taking, s.disp.resets)

theorem readHead_headView (q : Nat) : (s.readHead q).headView = s.headView :=
  (dispRead_keeps s (P := headView) (fun _ _ _ => rfl) (fun _ _ _ => rfl) (fun _ _ => rfl) (fun _ _ => rfl) [s.headAt q] :)

theorem headOpen_of_headView {s s' : State} (e : s'.headView = s.headView) (q : Nat) : s'.headOpen q = s.headOpen q :=
  (congrArg (fun v : SMap Reg × SMap Gang × SMap Tile × Steward × Option Taking × List Nat =>
    ({ s with regs := v.1 } : State).headOpen q) e :)

theorem headAt_of_headView {s s' : State} (e : s'.headView = s.headView) (q : Nat) : s'.headAt q = s.headAt q :=
  (congrArg (fun v : SMap Reg × SMap Gang × SMap Tile × Steward × Option Taking × List Nat =>
    ({ s with regs := v.1 } : State).headAt q) e :)

theorem st_of_headView {s s' : State} (e : s'.headView = s.headView) : s'.st = s.st :=
  (congrArg (fun v : SMap Reg × SMap Gang × SMap Tile × Steward × Option Taking × List Nat => v.2.2.2.1) e :)

theorem head_setHead (q r : Nat) (x : Fetch) : (s.setHead q x).head r = if r = q then x else s.head r :=
  SMap.look_put _ _ _ _ _

theorem head_readHead_self (q : Nat) : (s.readHead q).head q = ⟨[(s.disp.nextRead, s.headAt q)], []⟩ := by
  rw [readHead, head_setHead, if_pos rfl]
  rfl

theorem head_readHead_ne {q r : Nat} (h : r ≠ q) : (s.readHead q).head r = s.head r := by
  rw [readHead, head_setHead, if_neg h]
  exact dispRead_keeps s (P := fun r' => r'.head r) (fun _ _ _ => rfl) (fun _ _ _ => rfl) (fun _ _ => rfl) (fun _ _ => rfl)
    [s.headAt q]

theorem onItsWay_readHead {q : Nat} {r : MemReq} (h : OnItsWay s r) : OnItsWay (s.readHead q) r :=
  onItsWay_sendMesh (s := s.onDisp _) h _

/-- The head of queue `q` is read if it is open and has not been read. -/
def readOpenHead (q : Nat) (s : State) : State :=
  if s.headOpen q ∧ s.head q = .reset ∧ !s.st.thermtrip then s.readHead q else s

theorem readHeads_eq : s.readHeads = foldEach (List.range 64) s readOpenHead := rfl

theorem readOpenHead_headView (q : Nat) : (s.readOpenHead q).headView = s.headView :=
  ite_keeps (P := headView) (readHead_headView s q) rfl

theorem readHeads_headView : s.readHeads.headView = s.headView :=
  foldEach_keeps headView _ (fun q r => readOpenHead_headView r q) _ _

/-- Lines that have not come for a head do not come by asking. -/
theorem readHeads_got {q : Nat} (h : (s.head q).got = []) : (s.readHeads.head q).got = [] := by
  rw [readHeads_eq]
  refine foldEach_invariant (P := fun r : State => (r.head q).got = []) (fun p r hr => ?_) h
  unfold readOpenHead
  split
  · by_cases hq : q = p
    · rw [hq, head_readHead_self]
    · rw [head_readHead_ne r hq, hr]
  · exact hr

/-- The line at DPA `d` has been asked for as the head of queue `p`, and is on its way. -/
def HeadAsked (s : State) (p d : Nat) : Prop :=
  ∃ id, (s.head p).asked = [(id, d)] ∧ OnItsWay s (meshReq (.disp id) .read d)

theorem headAsked_readHead (p : Nat) : HeadAsked (s.readHead p) p (s.headAt p) :=
  ⟨s.disp.nextRead, by rw [head_readHead_self], onItsWay_dispRead s (dpas := [s.headAt p]) List.mem_cons_self⟩

theorem headAsked_readOpenHead {p d : Nat} (h : HeadAsked s p d) (q : Nat) : HeadAsked (s.readOpenHead q) p d := by
  obtain ⟨id, hasked, hway⟩ := h
  unfold readOpenHead
  split
  next hc =>
    have hpq : p ≠ q := by
      rintro rfl
      rw [hc.2.1] at hasked
      cases hasked
    exact ⟨id, by rw [head_readHead_ne s hpq, hasked], onItsWay_readHead s hway⟩
  next => exact ⟨id, hasked, hway⟩

/-- Every head that is open and has not been read is read (R141, R149). -/
theorem readHeads_asks {p : Nat} (hp : p < 64) (ho : s.headOpen p = true) (hr : s.head p = .reset)
    (hc : s.st.thermtrip = false) : HeadAsked s.readHeads p (s.headAt p) := by
  have hopen : ∀ r : State, r.headView = s.headView → r.head p = .reset →
      HeadAsked (r.readOpenHead p) p (s.headAt p) := fun r hv hh => by
    rw [readOpenHead, if_pos ⟨(headOpen_of_headView hv p).trans ho, hh, by rw [st_of_headView hv, hc]; rfl⟩,
      ← headAt_of_headView hv p]
    exact headAsked_readHead r p
  rw [readHeads_eq]
  refine foldEach_reaches (J := fun r : State => r.headView = s.headView ∧ (r.head p = .reset ∨ HeadAsked r p (s.headAt p)))
    (Q := fun r : State => HeadAsked r p (s.headAt p)) (x := p) ?_ ?_ ?_ (List.mem_range.2 hp) ⟨rfl, .inl hr⟩
  · rintro q r ⟨hv, hh⟩
    refine ⟨(readOpenHead_headView r q).trans hv, ?_⟩
    rcases hh with hh | hh
    · by_cases hq : p = q
      · exact .inr (hq ▸ hopen r hv hh)
      · refine .inl ?_
        unfold readOpenHead
        split
        · rw [head_readHead_ne r hq, hh]
        · exact hh
    · exact .inr (headAsked_readOpenHead r hh q)
  · exact fun q r _ hh => headAsked_readOpenHead r hh q
  · rintro r ⟨hv, hh | hh⟩
    · exact hopen r hv hh
    · exact headAsked_readOpenHead r hh p

/-- Nothing is read once every open head has been. -/
theorem readHeads_of_read (h : ∀ p, p < 64 → s.headOpen p = true → s.head p ≠ .reset) : s.readHeads = s :=
  foldEach_fixed fun p hp => if_neg fun hc => h p (List.mem_range.1 hp) hc.1 hc.2.1

/-! ### The head that is taken -/

theorem takeHead_of_clean {q dpa : Nat} {bytes : List Byte} (h : (s.head q).got = [(dpa, ⟨bytes, false⟩)]) :
    s.takeHead q = ((headTaken s q).inHand (some ⟨q, s.reg (dbReg q 0x64), bytes, .reset⟩)).goOn
      ⟨q, s.reg (dbReg q 0x64), bytes, .reset⟩ := by
  have hbytes : runBytes [(dpa, (⟨bytes, false⟩ : Line))] = bytes := by simp [runBytes]
  have hmark : runMark [(dpa, (⟨bytes, false⟩ : Line))] = none := rfl
  unfold takeHead
  simp only [h, hbytes, hmark]
  rfl

/-- Taking a head moves SQ_CONS and the rotation on, and the sheaf's checks begin (R139, R141). -/
theorem takeHead_goesOn {q dpa : Nat} {bytes : List Byte} (hq : q < 64) (h : (s.head q).got = [(dpa, ⟨bytes, false⟩)]) :
    (s.takeHead q).lastQueue = q ∧
      (s.takeHead q).getF (dbReg q 0x64) 31 0 = (s.reg (dbReg q 0x64) + 1) % 2 ^ 32 ∧
      (s.takeHead q).disp.resets = s.disp.resets ∧
      GoesOn (headTaken s q) (s.takeHead q) ⟨q, s.reg (dbReg q 0x64), bytes, .reset⟩ := by
  rw [takeHead_of_clean s h]
  generalize hk : (⟨q, s.reg (dbReg q 0x64), bytes, .reset⟩ : Taking) = k
  have hkq : k.q = q := hk ▸ rfl
  have hv := goOn_handView (s := headTaken s q) (k := k) (steady_dbReg hq (by decide : 0x64 ∈ [0x40, 0x50, 0x64]))
    (hkq ▸ dbReg_ne (by decide))
  simp only [Prod.mk.injEq] at hv
  obtain ⟨hreg, hlast, hresets⟩ := hv
  have hcons : (headTaken s q).getF (dbReg q 0x64) 31 0 = (s.reg (dbReg q 0x64) + 1) % 2 ^ 32 :=
    getF_setF_self (s.setHead q .reset) _ _ _ _ (by decide) (by decide)
  exact ⟨hlast, (getF_of_reg_eq hreg _ _).trans hcons, hresets, goOn_goesOn (hkq ▸ hq)⟩

/-! ### Upsets -/

theorem headView_upset (env : Env) : (s.upset env).headView = s.headView :=
  (congrArg headView (upset_dataless s env) :)

theorem head_upset (env : Env) (q : Nat) : (s.upset env).head q = s.head q :=
  (congrArg (fun r : State => r.head q) (upset_dataless s env) :)

theorem nextQueue_upset (env : Env) : (s.upset env).nextQueue = s.nextQueue :=
  (congrArg nextQueue (upset_dataless s env) :)

theorem reg_upset (env : Env) (a : Nat) : (s.upset env).reg a = s.reg a :=
  (congrArg (fun r : State => r.reg a) (upset_dataless s env) :)

end State

/-- Heads are read, and taken in rotation (R27, R139, R141). -/
theorem headsAreReadAndTakenInTurn : Claims.HeadsAreReadAndTakenInTurn := by
  refine ⟨fun s q p env hq hfree hgot hp hopen hreset => ?_, fun s q dpa env bytes hq hfree hread hnext hgot => ?_⟩
  · have hu := s.headView_upset env
    have hd := s.disp_upset env
    have hv := (s.upset env).readHeads_headView.trans hu
    have hnone : ((s.upset env).readHeads.head q).got = [] := State.readHeads_got _ (by rw [State.head_upset, hgot])
    have htake : (s.upset env).takeSheaf q = (s.upset env).readHeads := by
      rw [State.takeSheaf_of_free (hd ▸ hfree.free), if_neg fun h => h.2 hnone]
    simp only [State.headView, Prod.mk.injEq] at hv
    obtain ⟨-, hgangs, htiles, -, -, hresets⟩ := hv
    obtain ⟨id, hasked, hway⟩ := State.readHeads_asks (s.upset env) hp ((State.headOpen_of_headView hu p).trans hopen)
      ((State.head_upset s env p).trans hreset)
      ((congrArg Steward.thermtrip (State.st_of_headView hu)).trans hfree.open_.cool)
    rw [State.headAt_of_headView hu] at hasked hway
    refine ⟨_, id, exec_sheafTake env hq hfree.open_, ?_⟩
    rw [htake, State.lateResets_of_none _ (hresets.trans hfree.noReset)]
    exact ⟨hasked, hway, hgangs, htiles⟩
  · have hu := s.headView_upset env
    have hd := s.disp_upset env
    have hall : (s.upset env).readHeads = s.upset env := State.readHeads_of_read _ fun p hp ho => by
      rw [State.head_upset]
      exact hread p hp ((State.headOpen_of_headView hu p).symm.trans ho)
    have hgot := (congrArg Fetch.got (State.head_upset s env q)).trans hgot
    have htake : (s.upset env).takeSheaf q = (s.upset env).takeHead q := by
      rw [State.takeSheaf_of_free (hd ▸ hfree.free), hall, if_pos ⟨(State.nextQueue_upset s env).trans hnext, by simp [hgot]⟩]
    obtain ⟨hlast, hcons, hkept, hgoes⟩ := State.takeHead_goesOn (s.upset env) hq hgot
    refine ⟨_, exec_sheafTake env hq hfree.open_, ?_⟩
    rw [htake, State.lateResets_of_none _ (hkept.trans ((congrArg Dispatch.resets hd).trans hfree.noReset)),
      ← State.reg_upset s env]
    exact ⟨hlast, hcons, hgoes⟩

/-- Settles O22: the heads are asked for in one pass and rotation takes one that has come; what a check reads, a rejection
or a formation leaves follows from what stopping and resetting tiles keep; and a sheaf's completion comes due in the state
in which its gang has stopped, ended or gone on. -/
theorem sheavesAreTakenAndComplete : Obligations.SheavesAreTakenAndComplete :=
  ⟨headsAreReadAndTakenInTurn, theSheafInHandGoesOn, sheavesComplete⟩

end Sys2Proof.Machine

/-! ## What a fault leaves of its tile (R132, R168) -/

namespace Sys2Proof.Machine

/-- A pass whose every step over its own elements keeps a property keeps it. -/
theorem foldEach_invariant_of_mem {α σ : Type} {P : σ → Prop} {f : α → σ → σ} {xs : List α} {s : σ}
    (hf : ∀ x ∈ xs, ∀ s, P s → P (f x s)) (h : P s) : P (foldEach xs s f) := by
  induction xs generalizing s with
  | nil => exact h
  | cons x xs ih =>
    exact ih (fun y hy => hf y (List.mem_cons_of_mem _ hy)) (hf x List.mem_cons_self s h)

/-- A tile that shows a fault. -/
def Tile.faultedBy (x : Tile) (code : Nat) : Tile := { x.stopped .faulted with fcode := code }

/-- A tile faulted but for its gate, its cycle counter and what others send it is `FaultedWith` its code. -/
theorem faultedWith_of_body {s s' : State} {t code : Nat} (e : (s'.tile t).body = (s.tile t).body.faultedBy code) :
    FaultedWith s s' t code :=
  ⟨(congrArg Tile.core e :), (congrArg Tile.fcode e :), (congrArg Tile.queue e :), (congrArg Tile.loops e :),
    (congrArg Tile.pc e :), (congrArg Tile.g e :)⟩

/-- `FaultedWith` looks at PC and the registers alone of the state before. -/
theorem faultedWith_of_start {s r s' : State} {t code : Nat} (h : FaultedWith r s' t code)
    (hpc : (r.tile t).pc = (s.tile t).pc) (hg : (r.tile t).g = (s.tile t).g) : FaultedWith s s' t code :=
  ⟨h.core, h.code, h.queue, h.loops, h.pc.trans hpc, h.regs.trans hg⟩

namespace State

variable (s : State) {t u : Nat}

/-- The places of a check that is given up belong to no gang and are not the tile that is checked: any other stays (R410). -/
theorem restRuns_tile (c : TitheStep) (h : u = t ∨ (s.tile u).gang ≠ none) : (s.restRuns t c).tile u = s.tile u := by
  unfold restRuns
  refine foldEach_invariant (P := fun r : State => r.tile u = s.tile u) (fun pt r hr => ?_) rfl
  split
  · exact hr
  · next hn =>
    rw [tile_onTile_ne _ _ _ _ ?_, hr]
    rintro rfl
    exact hn (h.imp_right fun hg => hr ▸ hg)

theorem dropCheck_tile (h : u = t ∨ (s.tile u).gang ≠ none) : (s.dropCheck t).tile u = s.tile u := by
  unfold dropCheck
  split
  · rfl
  · dsimp only
    split
    · exact restRuns_tile s _ h
    · rfl

/-- A tile that stops sends other tiles messages alone. -/
theorem stopTile_body_ne (h : u ≠ t) : ((s.stopTile t).tile u).body = (s.tile u).body := by
  unfold stopTile
  dsimp only
  rw [tile_of_interior (settleBanks_interior _ _ _), tile_onTile_ne _ _ _ _ h, tile_of_interior (dropWrites_interior _ t),
    gateAbort_body, tile_of_interior (countStopped_interior _ t)]

theorem stopOthers_body (g : Nat) (hg : (s.tile t).gang ≠ none) :
    ((s.stopOthers g (some t)).tile t).body = (s.tile t).body := by
  unfold stopOthers
  refine foldEach_invariant_of_mem (P := fun r : State => (r.tile t).body = (s.tile t).body) (fun u hu r hr => ?_) rfl
  have hut : t ≠ u := fun e => by simp [e] at hu
  split
  · exact hr
  · rw [stopTile_body_ne _ hut, dropCheck_tile _ (.inr ?_)]
    · exact hr
    · rwa [← Tile.body_gang, hr]

/-- The dispatcher's work on a fault leaves the faulted tile as it is. -/
theorem reportFault_body (i : FaultInfo) : ((s.reportFault t i).tile t).body = (s.tile t).body := by
  have hr : ∀ c o, (s.faultRecord i c o).2.2.tile t = s.tile t := fun c o => tile_of_interior (faultRecord_interior s i c o) t
  have ho : ∀ (r : State) g f, (r.onGang g f).tile t = r.tile t := fun _ _ _ => rfl
  unfold reportFault
  split
  · next g hg =>
    have hn : (s.tile t).gang ≠ none := by simp [hg]
    unfold gangFault
    dsimp only
    split
    · rfl
    · split
      · rw [ho]
        split
        · rw [ho, hr]
        · rw [ho]
      · rw [ho]
        split
        · rw [stopOthers_body _ _ (by rwa [ho, hr]), ho, hr]
        · rw [stopOthers_body _ _ hn]
  · rfl

theorem traceWith_body (type queue tag qi : Nat) (f : Option (Nat × FaultInfo)) :
    ((s.traceWith t type queue tag qi f).tile u).body = (s.tile u).body := by
  have ha : ((s.advanceCycle t).tile u).body = (s.tile u).body :=
    onTile_body (s.takeFree 64).2 (f := fun x => { x with cycle := x.cycle + (s.takeFree 64).1 }) (fun _ => rfl) t u
  unfold traceWith
  dsimp only
  split
  · rfl
  · split
    · exact ha
    · rfl

/-- A tile that faults stops and shows the code; PC and registers stay (R132). -/
theorem tileFault_faultedWith (t : Nat) (i : FaultInfo) : FaultedWith s (s.tileFault t i) t i.code := by
  have hs : ∀ r : State, (r.sweepStrike t).tile t = r.tile t := fun r => tile_of_interior (sweepStrike_interior r t) t
  have hb : ∀ r : State, (r.tile t).body = (s.tile t).body →
      (((((r.dropCheck t).stopTile t).onTile t fun x => { x with core := .faulted, fcode := i.code }).sweepStrike t).tile t).body =
        (s.tile t).body.faultedBy i.code := fun r hr => by
    obtain ⟨c, -, e⟩ := (r.dropCheck t).stopTile_body (t := t)
    rw [dropCheck_tile _ (.inl rfl), hr] at e
    rw [hs, tile_onTile_self]
    exact congrArg (fun x : Tile => { x with core := .faulted, fcode := i.code }) e
  apply faultedWith_of_body
  unfold tileFault
  dsimp only
  split
  · exact hb _ (traceWith_body s _ _ _ _ _)
  · rw [reportFault_body]
    exact hb _ (traceWith_body s _ _ _ _ _)

theorem coreFault_faultedWith (t code detail addr : Nat) : FaultedWith s (s.coreFault t code detail addr) t code :=
  tileFault_faultedWith s t _

theorem entryFault_faultedWith (t : Nat) (e : Entry) (code detail addr : Nat) :
    FaultedWith s (s.entryFault t e code detail addr) t code :=
  tileFault_faultedWith s t _

/-! ### Waits on streams (R121, R206, R236) -/

/-- A wait on streams that never move faults with the code that `stuck` names. -/
theorem streamCheck_eq (t : Nat) :
    s.streamCheck t = match stuck (s.tile t) with | none => s | some c => s.coreFault t c 0 0 := by
  unfold streamCheck stuck
  cases hc : (s.tile t).core with
  | waitq m =>
    simp only [hc, bit]
    split_ifs <;> rfl
  | draining =>
    simp only [hc, bit, show Nat.testBit 63 0 = true from rfl, show Nat.testBit 63 1 = true from rfl,
      show Nat.testBit 63 4 = true from rfl, Bool.true_and]
    split_ifs <;> rfl
  | _ => simp [hc, bit]

/-- The check at the end of a row settles the tile. -/
theorem streamCheck_settles {r : State} (hpc : (r.tile t).pc = (s.tile t).pc) (hg : (r.tile t).g = (s.tile t).g) :
    Settles s (r.streamCheck t) t (r.tile t) := by
  rw [streamCheck_eq, Settles]
  cases h : stuck (r.tile t) with
  | none => rfl
  | some c => exact faultedWith_of_start (coreFault_faultedWith r t c 0 0) hpc hg

/-- A tile that has faulted waits for nothing. -/
theorem streamCheck_of_faultedWith {r : State} {code : Nat} (h : FaultedWith s r t code) : r.streamCheck t = r := by
  rw [streamCheck_eq, stuck, h.core]

end State
end Sys2Proof.Machine

/-! ## Outputs of the engines as bytes of the bin (R124, R234, R237) -/

namespace Sys2Proof.Machine

/-- Memory contents `f` with the bytes `bs` laid over them from `a` on. -/
def overlay (f : Nat → Byte) (a : Nat) (bs : List Byte) : Nat → Byte :=
  fun x => if a ≤ x ∧ x < a + bs.length then bs.getD (x - a) 0 else f x

theorem overlay_inside (f : Nat → Byte) {a x : Nat} {bs : List Byte} (h : a ≤ x) (h' : x < a + bs.length) :
    overlay f a bs x = bs.getD (x - a) 0 := if_pos ⟨h, h'⟩

theorem overlay_outside (f : Nat → Byte) {a x : Nat} {bs : List Byte} (h : x < a ∨ a + bs.length ≤ x) :
    overlay f a bs x = f x := if_neg (by omega)

@[simp] theorem overlay_nil (f : Nat → Byte) (a : Nat) : overlay f a [] = f :=
  funext fun x => overlay_outside f (by simp; omega)

/-- Bytes that follow one another may be laid in two parts. -/
theorem overlay_append (f : Nat → Byte) (a : Nat) (bs cs : List Byte) :
    overlay (overlay f a bs) (a + bs.length) cs = overlay f a (bs ++ cs) := by
  funext x
  unfold overlay
  rw [List.length_append]
  by_cases hb : a ≤ x ∧ x < a + bs.length
  · rw [if_neg (by omega), if_pos hb, if_pos (by omega), List.getD_append _ _ _ _ (by omega)]
  · rw [if_neg hb]
    by_cases hc : a + bs.length ≤ x ∧ x < a + bs.length + cs.length
    · rw [if_pos hc, if_pos (by omega), List.getD_append_right _ _ _ _ (by omega), Nat.sub_sub]
    · rw [if_neg hc, if_neg (by omega)]

theorem look_writeBytes (m : SMap Byte) (a : Nat) (bs : List Byte) :
    SMap.look 0 (writeBytes m a bs) = overlay (SMap.look 0 m) a bs := by
  funext x
  by_cases h : a ≤ x ∧ x < a + bs.length
  · obtain ⟨i, rfl⟩ := Nat.exists_eq_add_of_le h.1
    rw [overlay_inside _ h.1 h.2, look_writeBytes_inside _ _ _ i (by omega), Nat.add_sub_cancel_left,
      List.getD_eq_getElem]
  · rw [overlay_outside _ (by omega), look_writeBytes_outside _ _ _ _ (by omega)]

/-- Memory contents with output elements laid over them, one after another. -/
def laid (f : Nat → Byte) (es : List OutElem) : Nat → Byte := es.foldl (fun f e => overlay f e.addr e.bytes) f

/-- Elements change only the bytes they lie on. -/
theorem laid_outside (f : Nat → Byte) {es : List OutElem} {x : Nat}
    (h : ∀ e ∈ es, x < e.addr ∨ e.addr + e.bytes.length ≤ x) : laid f es x = f x := by
  induction es generalizing f with
  | nil => rfl
  | cons e es ih =>
    exact (ih _ fun d hd => h d (List.mem_cons_of_mem _ hd)).trans (overlay_outside f (h e List.mem_cons_self))

/-- A byte on which every element that covers it agrees reads so. -/
theorem laid_inside (f : Nat → Byte) {es : List OutElem} {x : Nat} {b : Byte}
    (hc : ∃ e ∈ es, e.addr ≤ x ∧ x < e.addr + e.bytes.length)
    (hv : ∀ e ∈ es, e.addr ≤ x → x < e.addr + e.bytes.length → e.bytes.getD (x - e.addr) 0 = b) : laid f es x = b := by
  induction es generalizing f with
  | nil => simp at hc
  | cons e es ih =>
    by_cases hm : ∃ d ∈ es, d.addr ≤ x ∧ x < d.addr + d.bytes.length
    · exact ih _ hm fun d hd => hv d (List.mem_cons_of_mem _ hd)
    · have hes : ∀ d ∈ es, x < d.addr ∨ d.addr + d.bytes.length ≤ x := fun d hd => by
        by_contra hx
        exact hm ⟨d, hd, by omega, by omega⟩
      obtain ⟨h₁, h₂⟩ : e.addr ≤ x ∧ x < e.addr + e.bytes.length := by
        obtain ⟨d, hd, hx⟩ := hc
        rcases List.mem_cons.1 hd with rfl | hd
        · exact hx
        · exact absurd ⟨d, hd, hx⟩ hm
      calc laid f (e :: es) x = overlay f e.addr e.bytes x := laid_outside _ hes
        _ = e.bytes.getD (x - e.addr) 0 := overlay_inside f h₁ h₂
        _ = b := hv e List.mem_cons_self h₁ h₂

/-! ### Runs -/

/-- Memory contents with runs of bytes laid over them. -/
def laidRuns (f : Nat → Byte) (rs : List (Nat × List (Byte × Bool))) : Nat → Byte :=
  rs.foldl (fun f r => overlay f r.1 (r.2.map (·.1))) f

/-- Joining elements into runs lays the same bytes. -/
theorem laidRuns_joinRuns (es : List OutElem) (f : Nat → Byte) : laidRuns f (joinRuns es) = laid f es := by
  induction es generalizing f with
  | nil => rfl
  | cons e es ih =>
    have hm : (e.bytes.map fun b => (b, e.blight)).map (·.1) = e.bytes := by simp [Function.comp_def]
    have hl : laid f (e :: es) = laid (overlay f e.addr e.bytes) es := rfl
    rw [hl, ← ih, joinRuns]
    cases hj : joinRuns es with
    | nil => simp only [laidRuns, List.foldl_cons, List.foldl_nil, hm]
    | cons r rest =>
      dsimp only
      split
      · next ha =>
        simp only [laidRuns, List.foldl_cons, List.map_append, hm]
        rw [← ha, overlay_append]
      · simp only [laidRuns, List.foldl_cons, hm]

/-! ### Lines -/

/-- Memory contents with the bytes that a line gives laid over them. -/
def overLine (f : Nat → Byte) (l : OutLine) : Nat → Byte :=
  fun x => if l.addr ≤ x ∧ x < l.addr + 64 ∧ bit l.mask (x - l.addr) = true then l.data.getD (x - l.addr) 0 else f x

/-- Memory contents with lines laid over them. -/
def laidLines (f : Nat → Byte) (ls : List OutLine) : Nat → Byte := ls.foldl overLine f

/-- Gathered lines are lines of 64 bytes, each at a place of its own. -/
structure Gathered (ls : List OutLine) : Prop where
  aligned : ∀ l ∈ ls, l.addr % 64 = 0
  whole : ∀ l ∈ ls, l.data.length = 64
  apart : (ls.map (·.addr)).Nodup

theorem overLine_outside (f : Nat → Byte) {l : OutLine} {x : Nat} (hl : l.addr % 64 = 0) (h : l.addr ≠ x / 64 * 64) :
    overLine f l x = f x := if_neg (by omega)

theorem laidLines_outside (f : Nat → Byte) {ls : List OutLine} {x : Nat} (ha : ∀ l ∈ ls, l.addr % 64 = 0)
    (h : ∀ l ∈ ls, l.addr ≠ x / 64 * 64) : laidLines f ls x = f x := by
  induction ls generalizing f with
  | nil => rfl
  | cons l ls ih =>
    exact (ih _ (fun k hk => ha k (List.mem_cons_of_mem _ hk)) fun k hk => h k (List.mem_cons_of_mem _ hk)).trans
      (overLine_outside f (ha l List.mem_cons_self) (h l List.mem_cons_self))

/-- What a byte reads under gathered lines, by the line it lies in. -/
theorem laidLines_eq (f : Nat → Byte) {ls : List OutLine} (hg : Gathered ls) (x : Nat) :
    laidLines f ls x = match ls.find? fun l => l.addr = x / 64 * 64 with
      | some l => overLine f l x
      | none => f x := by
  obtain ⟨ha, -, hn⟩ := hg
  induction ls generalizing f with
  | nil => rfl
  | cons l ls ih =>
    have ha' : ∀ k ∈ ls, k.addr % 64 = 0 := fun k hk => ha k (List.mem_cons_of_mem _ hk)
    obtain ⟨hl, hn'⟩ := List.nodup_cons.1 hn
    by_cases h : l.addr = x / 64 * 64
    · rw [List.find?_cons_of_pos (by simpa using h)]
      exact laidLines_outside _ ha' fun k hk e => hl (List.mem_map.2 ⟨k, hk, e.trans h.symm⟩)
    · rw [List.find?_cons_of_neg (by simpa using h)]
      have e : overLine f l x = f x := overLine_outside f (ha l List.mem_cons_self) h
      refine (ih (overLine f l) ha' hn').trans ?_
      cases List.find? (fun l => decide (l.addr = x / 64 * 64)) ls with
      | none => exact e
      | some k => unfold overLine at e ⊢; dsimp only; split <;> [rfl; exact e]

/-- The line at address `b` among gathered ones, or an empty one. -/
def lineAt (ls : List OutLine) (b : Nat) : OutLine := (ls.find? fun l => l.addr = b).getD ⟨b, 0, zeros 64, 0⟩

theorem lineAt_addr (ls : List OutLine) (b : Nat) : (lineAt ls b).addr = b := by
  unfold lineAt
  cases h : ls.find? fun l => l.addr = b with
  | none => rfl
  | some l => simpa using List.find?_some h

theorem lineAt_length {ls : List OutLine} (hg : Gathered ls) (b : Nat) : (lineAt ls b).data.length = 64 := by
  unfold lineAt
  cases h : ls.find? fun l => l.addr = b with
  | none => rfl
  | some l => exact hg.whole l (List.mem_of_find?_eq_some h)

theorem laidLines_lineAt (f : Nat → Byte) {ls : List OutLine} (hg : Gathered ls) (x : Nat) :
    laidLines f ls x = overLine f (lineAt ls (x / 64 * 64)) x := by
  rw [laidLines_eq f hg, lineAt]
  cases ls.find? fun l => l.addr = x / 64 * 64 with
  | some l => rfl
  | none => simp [overLine, bit]

/-- The line `l` with the bytes `bs` put at its byte `off`. -/
def OutLine.put (l : OutLine) (off : Nat) (bs : List (Byte × Bool)) : OutLine :=
  { addr := l.addr, mask := l.mask ||| (2 ^ off * (2 ^ bs.length - 1)),
    data := l.data.take off ++ bs.map (·.1) ++ l.data.drop (off + bs.length),
    marks := (l.marks ^^^ (l.marks &&& (2 ^ off * (2 ^ bs.length - 1)))) |||
      (bs.zipIdx.filter fun b => b.1.2).foldl (fun m b => m ||| 2 ^ (off + b.2)) 0 }

theorem putPiece_eq (a : Nat) (bs : List (Byte × Bool)) (ls : List OutLine) :
    putPiece a bs ls = (ls.filter fun l => l.addr ≠ a / 64 * 64) ++ [(lineAt ls (a / 64 * 64)).put (a % 64) bs] := by
  conv_rhs => rw [OutLine.put, lineAt_addr]
  rfl

theorem bit_put_mask (l : OutLine) (off : Nat) (bs : List (Byte × Bool)) (i : Nat) :
    bit (l.put off bs).mask i = (bit l.mask i || (decide (off ≤ i) && decide (i < off + bs.length))) := by
  simp only [OutLine.put, bit, Nat.testBit_or, Nat.testBit_two_pow_mul, Nat.testBit_two_pow_sub_one]
  congr 1
  by_cases h : off ≤ i <;> simp [h]
  omega

theorem put_data_length {l : OutLine} {off : Nat} {bs : List (Byte × Bool)} (hl : l.data.length = 64)
    (h : off + bs.length ≤ 64) : (l.put off bs).data.length = 64 := by
  simp [OutLine.put, hl]; omega

theorem put_data_getD {l : OutLine} {off : Nat} {bs : List (Byte × Bool)} (hl : l.data.length = 64)
    (h : off + bs.length ≤ 64) (i : Nat) : (l.put off bs).data.getD i 0 =
      if off ≤ i ∧ i < off + bs.length then (bs.map (·.1)).getD (i - off) 0 else l.data.getD i 0 := by
  have ht : (l.data.take off).length = off := by simp [hl]; omega
  unfold OutLine.put
  dsimp only
  by_cases h₁ : i < off
  · rw [if_neg (by omega), List.append_assoc, List.getD_append _ _ _ _ (by omega)]
    simp [List.getD_eq_getElem?_getD, h₁]
  · by_cases h₂ : i < off + bs.length
    · rw [if_pos ⟨by omega, h₂⟩, List.append_assoc, List.getD_append_right _ _ _ _ (by omega), ht,
        List.getD_append _ _ _ _ (by simp; omega)]
    · rw [if_neg (by omega), List.getD_append_right _ _ _ _ (by simp [hl]; omega)]
      have e : off + bs.length + (i - (off + bs.length)) = i := by omega
      simp [List.getD_eq_getElem?_getD, List.getElem?_drop, ht, e]

/-- A line with bytes put into it lays those bytes over what the line laid. -/
theorem overLine_put (f : Nat → Byte) {l : OutLine} {off : Nat} {bs : List (Byte × Bool)} (hl : l.data.length = 64)
    (h : off + bs.length ≤ 64) : overLine f (l.put off bs) = overlay (overLine f l) (l.addr + off) (bs.map (·.1)) := by
  funext x
  have ha : (l.put off bs).addr = l.addr := rfl
  unfold overLine overlay
  simp only [ha, bit_put_mask, put_data_getD hl h, List.length_map]
  by_cases hb : l.addr + off ≤ x ∧ x < l.addr + off + bs.length
  · rw [if_pos hb, if_pos ⟨by omega, by omega, by simp; omega⟩, if_pos (by omega), Nat.sub_sub]
  · rw [if_neg hb]
    by_cases hx : l.addr ≤ x ∧ x < l.addr + 64
    · have e : (decide (off ≤ x - l.addr) && decide (x - l.addr < off + bs.length)) = false := by simp; omega
      simp only [e, Bool.or_false, if_neg (show ¬ (off ≤ x - l.addr ∧ x - l.addr < off + bs.length) by omega)]
    · rw [if_neg (by tauto), if_neg (by tauto)]

theorem putPiece_gathered {a : Nat} {bs : List (Byte × Bool)} {ls : List OutLine} (hg : Gathered ls)
    (h : a % 64 + bs.length ≤ 64) : Gathered (putPiece a bs ls) := by
  have hp : ((lineAt ls (a / 64 * 64)).put (a % 64) bs).addr = a / 64 * 64 := lineAt_addr ls _
  rw [putPiece_eq]
  constructor
  · intro l hl
    rcases List.mem_append.1 hl with hl | hl
    · exact hg.aligned l (List.mem_of_mem_filter hl)
    · rw [List.mem_singleton.1 hl, hp]; omega
  · intro l hl
    rcases List.mem_append.1 hl with hl | hl
    · exact hg.whole l (List.mem_of_mem_filter hl)
    · rw [List.mem_singleton.1 hl]; exact put_data_length (lineAt_length hg _) h
  · rw [List.map_append, List.nodup_append]
    refine ⟨hg.apart.sublist (List.filter_sublist.map _), by simp, fun b hb c hc e => ?_⟩
    obtain ⟨l, hl, rfl⟩ := List.mem_map.1 hb
    rw [List.map_singleton, hp, List.mem_singleton] at hc
    simp [e, hc] at hl

/-- A piece put into gathered lines lays its bytes over them. -/
theorem laidLines_putPiece (f : Nat → Byte) {a : Nat} {bs : List (Byte × Bool)} {ls : List OutLine} (hg : Gathered ls)
    (h : a % 64 + bs.length ≤ 64) : laidLines f (putPiece a bs ls) = overlay (laidLines f ls) a (bs.map (·.1)) := by
  funext x
  have hp : ∀ b, (lineAt ls b).addr = b := lineAt_addr ls
  by_cases hx : x / 64 * 64 = a / 64 * 64
  · have e : lineAt (putPiece a bs ls) (x / 64 * 64) = (lineAt ls (x / 64 * 64)).put (a % 64) bs := by
      rw [hx, putPiece_eq, lineAt, List.find?_append, List.find?_eq_none.2 (by simp)]
      simp [OutLine.put, hp]
    rw [laidLines_lineAt f (putPiece_gathered hg h), e, overLine_put f (lineAt_length hg _) h, hp]
    unfold overlay
    rw [laidLines_lineAt f hg, show x / 64 * 64 + a % 64 = a by omega]
  · have e : lineAt (putPiece a bs ls) (x / 64 * 64) = lineAt ls (x / 64 * 64) := by
      have hne : ((lineAt ls (a / 64 * 64)).put (a % 64) bs).addr ≠ x / 64 * 64 := by
        simp only [OutLine.put, hp]; omega
      have hf : ((ls.filter fun l => l.addr ≠ a / 64 * 64).find? fun l => l.addr = x / 64 * 64) =
          ls.find? fun l => l.addr = x / 64 * 64 := by
        rw [List.find?_filter]
        congr 1
        funext l
        by_cases hl : l.addr = x / 64 * 64 <;> simp [hl, hx]
      rw [putPiece_eq, lineAt, List.find?_append, hf, List.find?_cons_of_neg (by simpa using hne), List.find?_nil,
        Option.or_none, ← lineAt]
    rw [laidLines_lineAt f (putPiece_gathered hg h), e, ← laidLines_lineAt f hg, overlay_outside _ (by simp; omega)]

theorem putRun_laid (f : Nat → Byte) (n : Nat) {a : Nat} {bs : List (Byte × Bool)} {ls : List OutLine} (hg : Gathered ls)
    (h : bs.length + a % 64 ≤ 64 * n) :
    Gathered (putRun a bs n ls) ∧ laidLines f (putRun a bs n ls) = overlay (laidLines f ls) a (bs.map (·.1)) := by
  induction n generalizing a bs ls with
  | zero =>
    obtain rfl : bs = [] := List.length_eq_zero_iff.1 (by omega)
    exact ⟨hg, by simp [putRun]⟩
  | succ n ih =>
    have hr : a % 64 + (bs.take (64 - a % 64)).length ≤ 64 := by simp; omega
    have hg' := putPiece_gathered hg hr
    have hl' := laidLines_putPiece f hg hr
    unfold putRun
    dsimp only
    split
    · next hs =>
      rw [List.take_of_length_le hs] at hg' hl' ⊢
      exact ⟨hg', hl'⟩
    · next hs =>
      obtain ⟨h₁, h₂⟩ := ih (a := a + (64 - a % 64)) (bs := bs.drop (64 - a % 64)) hg' (by simp; omega)
      refine ⟨h₁, ?_⟩
      have hlen : ((bs.take (64 - a % 64)).map (·.1)).length = 64 - a % 64 := by simp; omega
      rw [h₂, hl']
      calc _ = overlay (overlay (laidLines f ls) a ((bs.take (64 - a % 64)).map (·.1)))
            (a + ((bs.take (64 - a % 64)).map (·.1)).length) ((bs.drop (64 - a % 64)).map (·.1)) := by rw [hlen]
        _ = _ := by rw [overlay_append, ← List.map_append, List.take_append_drop]

/-- Gathering outputs into lines loses none of their bytes: the later of two on one byte stays (R234, R237). -/
theorem gatherOut_laid (f : Nat → Byte) (es : List OutElem) :
    Gathered (gatherOut es) ∧ laidLines f (gatherOut es) = laid f es := by
  have key : ∀ (rs : List (Nat × List (Byte × Bool))) (ls : List OutLine), Gathered ls →
      let r := rs.foldl (fun ls r => putRun r.1 r.2 (r.2.length / 64 + 2) ls) ls
      Gathered r ∧ laidLines f r = laidRuns (laidLines f ls) rs := by
    intro rs
    induction rs with
    | nil => exact fun ls hg => ⟨hg, rfl⟩
    | cons r rs ih =>
      intro ls hg
      obtain ⟨h₁, h₂⟩ := putRun_laid f (r.2.length / 64 + 2) (a := r.1) (bs := r.2) hg (by omega)
      have := ih _ h₁
      rw [h₂] at this
      exact this
  have h := key (joinRuns es) [] ⟨by simp, by simp, by simp⟩
  rw [show laidLines f [] = f from rfl, laidRuns_joinRuns] at h
  exact h

/-! ### Masks -/

/-- The runs of set bytes of a mask lay the bytes that the mask names. -/
theorem maskRuns_laid (mask a : Nat) (data : List Byte) (n i : Nat) (h : i + n ≤ data.length) (f : Nat → Byte) :
    (maskRuns mask i n).foldl (fun f r => overlay f (a + r.1) ((data.drop r.1).take r.2)) f = fun x =>
      if a + i ≤ x ∧ x < a + i + n ∧ bit mask (x - a) = true then data.getD (x - a) 0 else f x := by
  induction n generalizing i f with
  | zero => funext x; rw [if_neg (by omega)]; rfl
  | succ n ih =>
    have ih' := ih (i + 1) (by omega)
    have hd : data.drop i = data[i] :: data.drop (i + 1) := List.drop_eq_getElem_cons (by omega)
    have hone : ∀ f x, overlay f (a + i) [data[i]] x = if x = a + i then data.getD (x - a) 0 else f x := fun f x => by
      by_cases hx : x = a + i
      · subst hx; simp [overlay, List.getD_eq_getElem?_getD, show i < data.length by omega]
      · rw [if_neg hx, overlay_outside _ (by simp; omega)]
    have htake : (data.drop i).take 1 = [data[i]] := by rw [hd]; rfl
    -- laying byte `i` first, and then what the rest lays
    have hstep : bit mask i = true → (maskRuns mask (i + 1) n).foldl
        (fun f r => overlay f (a + r.1) ((data.drop r.1).take r.2)) (overlay f (a + i) [data[i]]) = fun x =>
          if a + i ≤ x ∧ x < a + i + (n + 1) ∧ bit mask (x - a) = true then data.getD (x - a) 0 else f x := fun hb => by
      rw [ih']
      funext x
      rw [hone]
      by_cases hx : x = a + i
      · subst hx; simp [hb]
      · simp only [if_neg hx]
        congr 1
        simp only [eq_iff_iff]
        constructor <;> rintro ⟨h₁, h₂, h₃⟩ <;> exact ⟨by omega, by omega, h₃⟩
    unfold maskRuns
    dsimp only
    split
    · next hb =>
      rw [ih']
      funext x
      by_cases hx : x = a + i
      · subst hx; simp at hb; simp [hb]
      · congr 1
        simp only [eq_iff_iff]
        constructor <;> rintro ⟨h₁, h₂, h₃⟩ <;> exact ⟨by omega, by omega, h₃⟩
    · next hb =>
      rw [← hstep (by simpa using hb)]
      split
      · next j m more hj =>
        split
        · next e =>
          subst e
          rw [hj, List.foldl_cons, List.foldl_cons]
          congr 1
          rw [hd, List.take_succ_cons]
          exact (overlay_append f (a + i) [data[i]] _).symm
        · rw [hj, List.foldl_cons, htake]
      · next hj => rw [hj, List.foldl_cons, htake]

end Sys2Proof.Machine

/-! ## What the engines' work on the bin changes (R191, R237) -/

namespace Sys2Proof.Machine

/-- A pass whose every step acts on a view as `g` does acts on it as the pass of `g`. -/
theorem foldEach_view {α σ β : Type} {P : σ → β} {f : α → σ → σ} {g : β → α → β} {xs : List α}
    (h : ∀ x ∈ xs, ∀ s, P (f x s) = g (P s) x) (s : σ) : P (foldEach xs s f) = xs.foldl g (P s) := by
  induction xs generalizing s with
  | nil => rfl
  | cons x xs ih =>
    refine (ih (fun y hy => h y (List.mem_cons_of_mem _ hy)) (f x s)).trans ?_
    rw [List.foldl_cons, h x List.mem_cons_self]

/-- A tile but for its bin, the bin's marks and the lattice's contents. -/
def Tile.binless (x : Tile) : Tile := { x with bin := [], binBlight := [], latticeData := [] }

namespace State

/-- The state but for the bin and lattice of tile `t` and for what reports, counters and the records of a sampled step or a
sweep hold. -/
def engineView (t : Nat) (s : State) : State × (Nat → Tile) :=
  ({ s with tiles := [], regs := [], tithe := .reset, fresh := 0, h0 := .reset, h1 := .reset, out := [],
            st := { s.st with sweepWork := .reset } },
   fun u => if u = t then (s.tile u).binless else s.tile u)

section Views

variable {s r : State} {t : Nat} (e : r.engineView t = s.engineView t)
include e

theorem binless_of_engineView : (r.tile t).binless = (s.tile t).binless := by
  have h := congrFun (congrArg Prod.snd e) t
  simpa [engineView] using h

theorem tile_of_engineView {u : Nat} (hu : u ≠ t) : r.tile u = s.tile u := by
  have h := congrFun (congrArg Prod.snd e) u
  simpa [engineView, hu] using h

theorem queue_of_engineView : (r.tile t).queue = (s.tile t).queue := (congrArg Tile.queue (binless_of_engineView e) :)
theorem sink0_of_engineView : (r.tile t).sink0 = (s.tile t).sink0 := (congrArg Tile.sink0 (binless_of_engineView e) :)
theorem pc_of_engineView : (r.tile t).pc = (s.tile t).pc := (congrArg Tile.pc (binless_of_engineView e) :)
theorem g_of_engineView : (r.tile t).g = (s.tile t).g := (congrArg Tile.g (binless_of_engineView e) :)

end Views

section Kept

variable (s : State) (t : Nat)

theorem onTile_engineView {f : Tile → Tile} (hf : ∀ x, (f x).binless = x.binless) :
    (s.onTile t f).engineView t = s.engineView t := by
  refine Prod.ext rfl (funext fun u => ?_)
  by_cases hu : u = t
  · subst hu; simp [engineView, hf]
  · simp [engineView, hu]

theorem engineView_of_unreported {s r : State} (h : r.unreported = s.unreported) : r.engineView t = s.engineView t :=
  (congrArg (engineView t) h :)

theorem sweepStrike_engineView (u : Nat) : (s.sweepStrike u).engineView t = s.engineView t := by
  unfold sweepStrike
  dsimp only
  split <;> rfl

theorem onCheck_engineView (u : Nat) (f : TitheStep → TitheStep) : (s.onCheck u f).engineView t = s.engineView t := by
  obtain ⟨x, hx⟩ := s.onCheck_eq u f
  rw [hx]
  rfl

theorem onCheck_tile (u v : Nat) (f : TitheStep → TitheStep) : (s.onCheck u f).tile v = s.tile v := by
  obtain ⟨x, hx⟩ := s.onCheck_eq u f
  rw [hx]
  rfl

theorem binParity_engineView (a : Nat) : (s.binParity t a).engineView t = s.engineView t := by
  unfold binParity
  split
  · rfl
  · rw [sweepStrike_engineView, engineView_of_unreported t (log_unreported _ _ _)]
    exact onTile_engineView s t fun _ => rfl

theorem binParity_bin (a : Nat) : ((s.binParity t a).tile t).bin = (s.tile t).bin := by
  unfold binParity
  split
  · rfl
  · rw [tile_of_interior (sweepStrike_interior _ _), tile_of_interior (log_interior _ _ _), tile_onTile_self]

end Kept

/-- From `s` to `r`, tile `t` has worked on its bin: of its bytes only those of the rows `ws` may have changed. -/
structure WritesIn (t : Nat) (ws : List (Nat × Nat × Nat × Nat)) (s r : State) : Prop where
  view : r.engineView t = s.engineView t
  bin : ∀ a, outsideRows a ws → SMap.look 0 (r.tile t).bin a = SMap.look 0 (s.tile t).bin a

variable {s r q : State} {t : Nat} {ws : List (Nat × Nat × Nat × Nat)} {env : Env}

theorem WritesIn.refl : WritesIn t ws s s := ⟨rfl, fun _ _ => rfl⟩

theorem WritesIn.trans (h : WritesIn t ws s r) (h' : WritesIn t ws r q) : WritesIn t ws s q :=
  ⟨h'.view.trans h.view, fun a ha => (h'.bin a ha).trans (h.bin a ha)⟩

theorem WritesIn.of_bin (hv : r.engineView t = s.engineView t) (hb : (r.tile t).bin = (s.tile t).bin) : WritesIn t ws s r :=
  ⟨hv, fun _ _ => by rw [hb]⟩

theorem WritesIn.foldEach {α : Type} {xs : List α} {f : α → State → State} (h : ∀ x ∈ xs, ∀ r, WritesIn t ws r (f x r)) :
    WritesIn t ws s (foldEach xs s f) :=
  foldEach_invariant_of_mem (P := fun r => WritesIn t ws s r) (fun x hx _ hr => hr.trans (h x hx _)) .refl

/-! ### Reads -/

variable (s t env)

theorem binErrors_engineView (rs : List (Nat × Nat)) : (s.binErrors t env rs).engineView t = s.engineView t :=
  foldEach_keeps (engineView t) _ (fun a r => binParity_engineView r t a) _ _

theorem binErrors_bin (rs : List (Nat × Nat)) : ((s.binErrors t env rs).tile t).bin = (s.tile t).bin :=
  foldEach_keeps (fun r : State => (r.tile t).bin) _ (fun a r => binParity_bin r t a) _ _

theorem binParitiesIn_engineView (rs : List (Nat × Nat)) : (s.binParitiesIn t env rs).engineView t = s.engineView t := by
  unfold binParitiesIn
  rw [binErrors_engineView]
  exact foldEach_keeps (engineView t) _ (fun a r => onCheck_engineView r t t _) _ _

theorem binParitiesIn_bin (rs : List (Nat × Nat)) : ((s.binParitiesIn t env rs).tile t).bin = (s.tile t).bin := by
  unfold binParitiesIn
  rw [binErrors_bin]
  exact foldEach_keeps (fun r : State => (r.tile t).bin) _ (fun a r => congrArg Tile.bin (onCheck_tile r t t _)) _ _

theorem binParitiesIn_writesIn (rs : List (Nat × Nat)) : WritesIn t ws s (s.binParitiesIn t env rs) :=
  .of_bin (binParitiesIn_engineView s t env rs) (binParitiesIn_bin s t env rs)

/-! ### Writes -/

theorem binLine_engineView (a mask : Nat) (data : List Byte) (b : Bool) :
    (s.binLine t env a mask data b).engineView t = s.engineView t := by
  unfold binLine
  dsimp only
  refine (foldEach_keeps (engineView t) _ (fun x r => ?_) _ _).trans (binErrors_engineView s t env _)
  exact onTile_engineView r t fun _ => rfl

/-- The bytes of a line that outputs give go to the bin (R124, R234). -/
theorem binLine_bin (l : OutLine) (b : Bool) (hl : l.data.length = 64) :
    SMap.look 0 ((s.binLine t env l.addr l.mask l.data b).tile t).bin = overLine (SMap.look 0 (s.tile t).bin) l := by
  unfold binLine
  dsimp only
  rw [foldEach_view (P := fun r : State => SMap.look 0 (r.tile t).bin)
    (g := fun f r => overlay f (l.addr + r.1) ((l.data.drop r.1).take r.2)), binErrors_bin, maskRuns_laid _ _ _ _ _ (by omega)]
  · rfl
  · intro x _ r
    rw [tile_onTile_self]
    exact look_writeBytes _ _ _

theorem writeOut_engineView (q id : Nat) (es : List OutElem) : (s.writeOut t q id env es).engineView t = s.engineView t :=
  foldEach_keeps (engineView t) _ (fun _ r => (binLine_engineView _ t env _ _ _ _).trans (onCheck_engineView r t t _)) _ _

/-- The outputs of a step lie in the bin as if they had been written one after another. -/
theorem writeOut_bin (q id : Nat) (es : List OutElem) :
    SMap.look 0 ((s.writeOut t q id env es).tile t).bin = laid (SMap.look 0 (s.tile t).bin) es := by
  obtain ⟨hg, hl⟩ := gatherOut_laid (SMap.look 0 (s.tile t).bin) es
  unfold writeOut
  rw [foldEach_view (P := fun r : State => SMap.look 0 (r.tile t).bin) (g := overLine)]
  · exact hl
  · intro l hl r
    dsimp only
    rw [binLine_bin _ _ _ _ _ (hg.whole l hl)]
    unfold sign
    rw [onCheck_tile]

end State

/-- An output element lies in these rows. -/
def OutElem.Within (e : OutElem) (ws : List (Nat × Nat × Nat × Nat)) : Prop :=
  ∃ w ∈ ws, ∃ i < w.2.1, w.1 + i * w.2.2.1 ≤ e.addr ∧ e.addr + e.bytes.length ≤ w.1 + i * w.2.2.1 + w.2.2.2

namespace State

variable {s r : State} {t : Nat} {ws : List (Nat × Nat × Nat × Nat)} {env : Env}

/-- A step that writes outputs in its rows. -/
theorem writeOut_writesIn {q id : Nat} {es : List OutElem} (h : ∀ e ∈ es, e.Within ws) :
    WritesIn t ws s (s.writeOut t q id env es) := by
  refine ⟨writeOut_engineView s t env q id es, fun a ha => ?_⟩
  rw [writeOut_bin]
  refine laid_outside _ fun e he => ?_
  obtain ⟨w, hw, i, hi, h₁, h₂⟩ := h e he
  rcases ha w hw i hi with h | h <;> omega

/-! ### Entries -/

variable {e : Entry} {q : Nat}

/-- The row of an engine whose entry has started and is not performed does its work (R191). -/
theorem engineRow_runs {ops : List Nat} {f : Nat → Entry → State → State} (hp : Plain s t) (he : s.headEntry t q = some e)
    (hs : e.started = true) (hn : e.performed = false) (ho : ops.contains (field e.desc 0 1) = true) :
    engineRow t q ops env s f = .next (f t e (s.upset env)) := by
  unfold engineRow
  rw [guardUnit_true _ _ (isTile_of_lt hp.tile), asRun_plain s t _ hp]
  simp only [he, hs, hn, ho, Bool.not_false, Bool.and_self, if_true]

theorem tile_upset (u : Nat) : (s.upset env).tile u = s.tile u :=
  (congrArg (fun r : State => r.tile u) (upset_dataless s env) :)

/-- What upsets leave: `s.upset env` is `s` with other bytes in its memories. -/
theorem upset_with : { s.upset env with
    tiles := s.tiles, regs := s.regs, tithe := s.tithe, fresh := s.fresh, h0 := s.h0, h1 := s.h1, out := s.out,
    st := { (s.upset env).st with sweepWork := s.st.sweepWork } } = s.upset env :=
  (congrArg (fun r : State => { s.upset env with
    tiles := r.tiles, regs := r.regs, tithe := r.tithe, fresh := r.fresh, h0 := r.h0, h1 := r.h1, out := r.out,
    st := { (s.upset env).st with sweepWork := r.st.sweepWork } }) (upset_dataless s env).symm :)

/-- The entry that takes the place of the head of a queue is its head, the numbers of other entries whatever they are. -/
theorem find?_replaced {xs : List Entry} {e' : Entry} (h : xs.find? (fun o => o.q = q) = some e) (hid : e'.id = e.id)
    (hq : e'.q = e.q) : (xs.map fun o => if o.id = e'.id then e' else o).find? (fun o => o.q = q) = some e' := by
  have heq : e'.q = q := hq.trans (by simpa using List.find?_some h)
  induction xs with
  | nil => simp at h
  | cons o xs ih =>
    rw [List.map_cons]
    by_cases ho : o.id = e'.id
    · rw [if_pos ho, List.find?_cons_of_pos (by simpa using heq)]
    · rw [if_neg ho]
      by_cases hoq : o.q = q
      · rw [List.find?_cons_of_pos (by simpa using hoq)] at h
        exact absurd (by rw [hid, Option.some.inj h]) ho
      · rw [List.find?_cons_of_neg (by simpa using hoq)] at h ⊢
        exact ih h

theorem setEntry_tile (u : Entry) : (s.setEntry t u).tile t =
    { s.tile t with queue := (s.tile t).queue.map fun o => if o.id = u.id then u else o } := tile_onTile_self _ _ _

/-- An entry whose work on the bin is done is performed. -/
theorem performed_engineRan (he : s.headEntry t q = some e) (h : WritesIn t ws (s.upset env) r) :
    EngineRan s (r.performed t e) t q e env ws := by
  obtain ⟨hv, hb⟩ := h
  have hx := binless_of_engineView hv
  rw [tile_upset] at hx
  constructor
  · unfold headEntry performed
    rw [setEntry_tile]
    dsimp only
    rw [queue_of_engineView hv, tile_upset]
    exact find?_replaced (e' := { e with performed := true }) he rfl rfl
  · intro a ha
    unfold performed
    rw [setEntry_tile]
    simpa only [tile_upset] using hb a ha
  · unfold performed
    rw [setEntry_tile]
    exact congrArg (fun x : Tile => { x with
      bin := (s.tile t).bin, binBlight := (s.tile t).binBlight, latticeData := (s.tile t).latticeData,
      queue := (s.tile t).queue }) hx
  · intro u hu
    unfold performed setEntry
    rw [tile_onTile_ne _ _ _ _ hu, tile_of_engineView hv hu, tile_upset]
  · refine Eq.trans ?_ upset_with
    exact congrArg (fun r : State => { r with
      tiles := s.tiles, regs := s.regs, tithe := s.tithe, fresh := s.fresh, h0 := s.h0, h1 := s.h1, out := s.out,
      st := { r.st with sweepWork := s.st.sweepWork } }) (congrArg Prod.fst hv)

/-- The counters of an engine count beside its work. -/
theorem WritesIn.counted {o₁ o₂ : Nat} (h : WritesIn t ws s r) : WritesIn t ws s ((r.countCycles t o₁).countCycles t o₂) :=
  h.trans (.of_bin rfl rfl)

end State

end Sys2Proof.Machine

/-! ## The tensor and vector entries over the bin (R191 to R231) -/

namespace Sys2Proof.Machine

/-! ### What ENQ allows -/

/-- The allowed combinations of OP, FN, ITYPE and OFMT are those of `typeOk`. -/
theorem typeOk_of_mem_allowedTypes {op fn it ofmt : Nat} (h : [op, fn, it, ofmt] ∈ allowedTypes) :
    typeOk op fn it ofmt = true := by
  unfold allowedTypes at h
  simp only [List.mem_flatMap, List.mem_map, List.mem_filter, List.cons.injEq, and_true] at h
  obtain ⟨_, _, _, _, _, _, _, ⟨_, hok⟩, rfl, rfl, rfl, rfl⟩ := h
  exact hok

/-- Four members that are not allowed together are one of the combinations that `typeFields` looks at. -/
theorem comboBad_all {op fn it ofmt : Nat} (h : typeOk op fn it ofmt = false) : comboBad [op, fn, it, ofmt] 15 = true := by
  unfold comboBad
  rw [List.all_eq_true]
  intro w hw
  have hne : w ≠ [op, fn, it, ofmt] := by
    rintro rfl
    rw [typeOk_of_mem_allowedTypes hw] at h
    cases h
  obtain ⟨a, b, c, d, rfl⟩ : ∃ a b c d, w = [a, b, c, d] := by
    unfold allowedTypes at hw
    simp only [List.mem_flatMap, List.mem_map] at hw
    obtain ⟨a, -, b, -, c, -, d, -, rfl⟩ := hw
    exact ⟨a, b, c, d, rfl⟩
  by_contra hall
  simp only [List.any_eq_true, List.mem_range, not_exists, not_and] at hall
  refine hne ?_
  have h0 := hall 0 (by decide)
  have h1 := hall 1 (by decide)
  have h2 := hall 2 (by decide)
  have h3 := hall 3 (by decide)
  simp [bit, show Nat.testBit 15 1 = true from rfl, show Nat.testBit 15 2 = true from rfl,
    show Nat.testBit 15 3 = true from rfl] at h0 h1 h2 h3
  rw [h0, h1, h2, h3]

/-- Some field is named where the members are not allowed together (R112). -/
theorem typeFields_ne_nil {op fn it ofmt : Nat} (h : typeOk op fn it ofmt = false) : typeFields [op, fn, it, ofmt] ≠ [] := by
  have hbad : ∃ m, m < 16 ∧ m ≠ 0 ∧ comboBad [op, fn, it, ofmt] m = true := ⟨15, by decide, by decide, comboBad_all h⟩
  classical
  -- the smallest such mask holds no other
  obtain ⟨hm, hm0, hmb⟩ := Nat.find_spec hbad
  have hleast : ∀ k < 16, k ≠ 0 → comboBad [op, fn, it, ofmt] k = true → k &&& Nat.find hbad = k → k = Nat.find hbad :=
    fun k hk hk0 hkb hand => le_antisymm (hand ▸ Nat.and_le_right) (Nat.find_min' hbad ⟨hk, hk0, hkb⟩)
  generalize Nat.find hbad = m at hm hm0 hmb hleast
  have hmem : m ∈ ((List.range 16).drop 1).filter (comboBad [op, fn, it, ofmt]) :=
    List.mem_filter.2 ⟨(by decide : ∀ m < 16, m ≠ 0 → m ∈ (List.range 16).drop 1) m hm hm0, hmb⟩
  have hbits : ∀ k ∈ (List.range 16).drop 1, k < 16 ∧ k ≠ 0 := by decide
  intro hnil
  refine (by decide : ∀ m < 16, m ≠ 0 → (typeKeys.zipIdx.find? fun k => bit m k.2).map (·.1) ≠ none) m hm hm0
    (List.filterMap_eq_nil_iff.1 hnil m (List.mem_filter.2 ⟨hmem, List.all_eq_true.2 fun k hk => ?_⟩))
  obtain ⟨hk, hkb⟩ := List.mem_filter.1 hk
  obtain ⟨hk, hk0⟩ := hbits k hk
  by_cases hand : k &&& m = k
  · simp [hleast k hk hk0 hkb hand]
  · simp [hand]

theorem typeOk_of_veIllegal {d : List Byte} (h : veIllegal d = []) :
    typeOk (veCmd d).op (veCmd d).fn (veCmd d).itype (veCmd d).ofmt = true := by
  by_contra ht
  rw [Bool.not_eq_true] at ht
  unfold veIllegal at h
  simp only [ht, Bool.false_eq_true, if_false, List.append_eq_nil_iff] at h
  exact typeFields_ne_nil ht h.1.1

/-- A vector entry over tiles that ENQ has placed holds a combination of types that is allowed (R112, R233). -/
theorem Entry.typeOk {e : Entry} (h : Enqueued e) (hq : e.q = 1) {op : Nat} (hop : field e.desc 0 1 = op)
    (ho : op ∈ [1, 2, 3, 5]) :
    Sys2Proof.Machine.typeOk op (veCmd e.desc).fn (veCmd e.desc).itype (veCmd e.desc).ofmt = true := by
  obtain ⟨-, -, hi⟩ := h
  have hv : veIllegal e.desc = [] := by
    simp only [illegalFields, hq, vectorIllegal, hop] at hi
    rwa [if_neg (by simp at ho; omega), if_pos (by simp at ho; omega)] at hi
  have := typeOk_of_veIllegal hv
  rwa [show (veCmd e.desc).op = op from hop] at this

/-- The bytes of a converted value, for every OFMT that is no MX format (R223). -/
theorem convertTo_length {ofmt : Nat} (h : ofmt ∈ [0x00, 0x02, 0x03, 0x0C, 0x0D, 0x10, 0x11]) (fp sat : Bool) (v : Nat) :
    (convertTo fp ofmt sat v).length = outSize ofmt := by
  simp only [List.mem_cons, List.not_mem_nil, or_false] at h
  rcases h with rfl | rfl | rfl | rfl | rfl | rfl | rfl
  all_goals simp [convertTo, outSize]
  split <;> simp

/-- EW, SCAN and REDUCE give FP32, BF16 or INT32 (R213). -/
theorem ofmt_of_typeOk {op fn it ofmt : Nat} (h : typeOk op fn it ofmt = true) (ho : op = 1 ∨ op = 2 ∨ op = 3) :
    ofmt ∈ [0x00, 0x02, 0x03, 0x0C, 0x0D, 0x10, 0x11] := by
  have hgives : ofmt = 0x10 ∨ ofmt = 0x0C ∨ ofmt = 0x11 := by
    unfold typeOk at h
    rw [Bool.and_eq_true, if_neg (by omega)] at h
    replace h := h.2
    split_ifs at h
    · exact .inr (.inr (of_decide_eq_true h))
    · rw [Bool.or_eq_true, decide_eq_true_iff, decide_eq_true_iff] at h
      tauto
    · exact .inr (.inr (of_decide_eq_true h))
  rcases hgives with rfl | rfl | rfl <;> decide

end Sys2Proof.Machine

namespace Sys2Proof.Machine

/-! ### Output elements in their rows -/

/-- Element `k` of row `i` of `n` elements of `w` bytes each lies in its row. -/
theorem within_of_element {e : OutElem} {ws : List (Nat × Nat × Nat × Nat)} {base count stride width i k w n : Nat}
    (hw : (base, count, stride, width) ∈ ws) (hi : i < count) (ha : e.addr = base + i * stride + k * w)
    (hl : e.bytes.length = w) (hk : k < n) (hn : n * w ≤ width) : e.Within ws := by
  refine ⟨_, hw, i, hi, by dsimp only; omega, ?_⟩
  have h : (k + 1) * w ≤ n * w := Nat.mul_le_mul_right w hk
  have hs : (k + 1) * w = k * w + w := Nat.succ_mul k w
  dsimp only
  omega

theorem snd_lt_of_mem_zip_range {α : Type} {xs : List α} {n : Nat} {p : α × Nat} (h : p ∈ xs.zip (List.range n)) : p.2 < n :=
  List.mem_range.1 (List.of_mem_zip h).2

/-- The rows that each kind of vector entry over tiles writes (R212, R221, R224). -/
theorem VeCmd.mem_writes_tile {c : VeCmd} (h : c.op ≠ 3) : (c.d, c.rows, c.ds, c.cols * c.os) ∈ c.writes.map (·.2) := by
  simp [VeCmd.writes, h]

theorem VeCmd.mem_writes_axis1 {c : VeCmd} (h : c.op = 3) (ha : c.axis1 = true) :
    (c.d, 1, 0, c.cols * c.os) ∈ c.writes.map (·.2) := by
  simp [VeCmd.writes, h, ha]

theorem VeCmd.mem_writes_axis0 {c : VeCmd} (h : c.op = 3) (ha : ¬ c.axis1 = true) :
    (c.d, c.rows, c.ds, c.os) ∈ c.writes.map (·.2) := by
  simp [VeCmd.writes, h, ha]

theorem VeCmd.mem_writes_scales {c : VeCmd} (h : c.mx = true) : (c.s, c.rows, c.ss, c.cols / 32) ∈ c.writes.map (·.2) := by
  simp [VeCmd.writes, h]

namespace State

variable {s : State} {t : Nat} {env : Env} {c : VeCmd} {r : Nat}

@[simp] theorem veRow_length (a n : Nat) : (s.veRow t c a n).length = n := by simp [veRow]

@[simp] theorem veOperand_length (mode base stride imm : Nat) : (s.veOperand t c mode base stride imm r).length = c.cols := by
  unfold veOperand
  split <;> simp

/-- The output elements of a row of lanes lie in the row of D. -/
theorem veOut_within {sat : Bool} {ls : List Lane} {ws : List (Nat × Nat × Nat × Nat)}
    (hf : c.ofmt ∈ [0x00, 0x02, 0x03, 0x0C, 0x0D, 0x10, 0x11]) (hw : (c.d, c.rows, c.ds, c.cols * c.os) ∈ ws)
    (hr : r < c.rows) (hl : ls.length ≤ c.cols) : ∀ e ∈ veOut c sat r ls, e.Within ws := by
  intro e he
  obtain ⟨p, hp, rfl⟩ := List.mem_map.1 he
  exact within_of_element hw hr rfl (convertTo_length hf _ _ _) (lt_of_lt_of_le (snd_lt_of_mem_zip_range hp) hl) le_rfl

/-- The rows of an entry, each in its own row of D, one after another or all at once (R232). -/
theorem veWriteRows_writesIn {e : Entry} {row : State → Nat → List OutElem} {ws : List (Nat × Nat × Nat × Nat)}
    (h : ∀ s, ∀ r < c.rows, ∀ o ∈ row s r, o.Within ws) : WritesIn t ws s (s.veWriteRows t env e c row) := by
  unfold veWriteRows
  split
  · exact .foldEach fun r hr q => writeOut_writesIn (h q r (List.mem_range.1 hr))
  · refine writeOut_writesIn fun o ho => ?_
    obtain ⟨os, hos, ho⟩ := List.mem_flatten.1 ho
    obtain ⟨r, hr, rfl⟩ := List.mem_map.1 hos
    exact h s r (List.mem_range.1 hr) o ho

/-! ### Vector entries over tiles -/

/-- A row of the vector engine over a tile runs to its end in the rows that its work writes. -/
theorem veRowOp_ran {op : Nat} {f : Entry → VeCmd → State → State} {e : Entry} {ws : List (Nat × Nat × Nat × Nat)}
    (hp : Plain s t) (he : s.headEntry t 1 = some e) (hs : e.started = true) (hn : e.performed = false)
    (hop : field e.desc 0 1 = op) (hf : ∀ r, WritesIn t ws r (f e (veCmd e.desc) r)) :
    ∃ s', veRowOp t op env s f = .next s' ∧ EngineRan s s' t 1 e env ws := by
  refine ⟨_, engineRow_runs hp he hs hn (by simp [hop]), ?_⟩
  dsimp only
  split
  · exact performed_engineRan he .refl
  · exact performed_engineRan he ((binParitiesIn_writesIn _ t env _).trans (hf _)).counted

theorem execEw_ran {e : Entry} (hp : Plain s t) (he : s.headEntry t 1 = some e) (hs : e.started = true)
    (hn : e.performed = false) (hop : field e.desc 0 1 = 1) (hq : Enqueued e) (heq : e.q = 1) :
    ∃ s', execEw t env s = .next s' ∧ EngineRan s s' t 1 e env ((veCmd e.desc).writes.map (·.2)) := by
  have hf := ofmt_of_typeOk (Entry.typeOk hq heq hop (by simp)) (by simp)
  have ho : (veCmd e.desc).op ≠ 3 := by rw [show (veCmd e.desc).op = 1 from hop]; decide
  exact veRowOp_ran hp he hs hn hop fun q => veWriteRows_writesIn fun q r hr =>
    veOut_within hf (VeCmd.mem_writes_tile ho) hr (by simp)

theorem scanRow_length (cin : Lane) : (s.scanRow t c r cin).1.length = c.cols := by
  have hlev : ∀ op d (ls : List ScanLane), (scanLevel op d ls).length = ls.length := fun op d ls => by simp [scanLevel]
  unfold scanRow
  dsimp only
  split <;> simp [scanTree, hlev]

theorem scanRows_writesIn {e : Entry} {ws : List (Nat × Nat × Nat × Nat)} {each : Bool} {n : Nat}
    (hf : c.ofmt ∈ [0x00, 0x02, 0x03, 0x0C, 0x0D, 0x10, 0x11]) (hw : (c.d, c.rows, c.ds, c.cols * c.os) ∈ ws)
    {carry : Lane} {acc : List OutElem} (ha : ∀ o ∈ acc, o.Within ws) (hn : r + n ≤ c.rows) :
    WritesIn t ws s (s.scanRows t env e c each r carry acc n) := by
  induction n generalizing s r carry acc with
  | zero => exact writeOut_writesIn ha
  | succ n ih =>
    have ho : ∀ o ∈ veOut c false r (s.scanRow t c r carry).1, o.Within ws :=
      veOut_within hf hw (by omega) (scanRow_length carry).le
    unfold scanRows
    dsimp only
    split
    · exact (writeOut_writesIn ho).trans (ih (by simp) (by omega))
    · refine ih (fun o h => ?_) (by omega)
      exact (List.mem_append.1 h).elim (ha o) (ho o)

theorem execScan_ran {e : Entry} (hp : Plain s t) (he : s.headEntry t 1 = some e) (hs : e.started = true)
    (hn : e.performed = false) (hop : field e.desc 0 1 = 2) (hq : Enqueued e) (heq : e.q = 1) :
    ∃ s', execScan t env s = .next s' ∧ EngineRan s s' t 1 e env ((veCmd e.desc).writes.map (·.2)) := by
  have hf := ofmt_of_typeOk (Entry.typeOk hq heq hop (by simp)) (by simp)
  have ho : (veCmd e.desc).op ≠ 3 := by rw [show (veCmd e.desc).op = 2 from hop]; decide
  exact veRowOp_ran hp he hs hn hop fun q => scanRows_writesIn hf (VeCmd.mem_writes_tile ho) (by simp) (by omega)

/-! ### Reductions -/

theorem redOut_addr (a : Nat) (x : RedElem) : (s.redOut t c a x).addr = a := by
  unfold redOut
  split <;> rfl

/-- An index is a 32-bit word (R222), another result has the bytes of OFMT. -/
theorem redOut_length (hf : c.ofmt ∈ [0x00, 0x02, 0x03, 0x0C, 0x0D, 0x10, 0x11]) (hi : c.isArg = true → c.ofmt = 0x11)
    (a : Nat) (x : RedElem) : (s.redOut t c a x).bytes.length = c.os := by
  unfold redOut
  split
  · next h => simp [VeCmd.os, outSize, hi h]
  · exact convertTo_length hf _ _ _

theorem redDown_length {acc : List RedElem} {n : Nat} (h : r ≠ 0 → acc.length ≤ c.cols) (h0 : n = 0 → acc.length ≤ c.cols) :
    (s.redDown t c r acc n).length ≤ c.cols := by
  induction n generalizing r acc with
  | zero => exact h0 rfl
  | succ n ih =>
    have hl : (if r = 0 then (s.veRow t c (c.a + r * c.as_) c.cols).map (redIn c r) else
        List.zipWith (redOp c) acc ((s.veRow t c (c.a + r * c.as_) c.cols).map (redIn c r))).length ≤ c.cols := by
      split <;> simp
    exact ih (fun _ => hl) fun _ => hl

theorem execReduce_ran {e : Entry} (hp : Plain s t) (he : s.headEntry t 1 = some e) (hs : e.started = true)
    (hn : e.performed = false) (hop : field e.desc 0 1 = 3) (hq : Enqueued e) (heq : e.q = 1) :
    ∃ s', execReduce t env s = .next s' ∧ EngineRan s s' t 1 e env ((veCmd e.desc).writes.map (·.2)) := by
  have hok := Entry.typeOk hq heq hop (by simp)
  have hf := ofmt_of_typeOk hok (by simp)
  have hop' : (veCmd e.desc).op = 3 := hop
  have hi : (veCmd e.desc).isArg = true → (veCmd e.desc).ofmt = 0x11 := fun h => by
    simp only [VeCmd.isArg, hop', decide_true, Bool.true_and] at h
    simp [typeOk, h] at hok
    exact hok.2
  refine veRowOp_ran hp he hs hn hop fun q => ?_
  dsimp only
  split
  · next hax =>
    refine writeOut_writesIn fun o ho => ?_
    obtain ⟨p, hp, rfl⟩ := List.mem_map.1 ho
    exact within_of_element (i := 0) (k := p.2) (VeCmd.mem_writes_axis1 hop' hax) one_pos (by rw [redOut_addr]; omega)
      (redOut_length hf hi _ _) (lt_of_lt_of_le (snd_lt_of_mem_zip_range hp) (redDown_length (by simp) (by simp))) le_rfl
  · next hax =>
    refine writeOut_writesIn fun o ho => ?_
    obtain ⟨r, hr, ho⟩ := List.mem_flatMap.1 ho
    obtain ⟨x, -, rfl⟩ := List.mem_map.1 ho
    exact within_of_element (i := r) (k := 0) (n := 1) (VeCmd.mem_writes_axis0 hop' hax) (List.mem_range.1 hr)
      (by rw [redOut_addr]; omega) (redOut_length hf hi _ _) one_pos (one_mul _).le

/-! ### Conversions -/

/-- The formats of CONVERT that are no MX formats have a size of their own (R223). -/
theorem ofmt_of_convert {op fn it ofmt : Nat} (h : typeOk op fn it ofmt = true) (ho : op = 5)
    (hm : ¬ (0x04 ≤ ofmt ∧ ofmt ≤ 0x06)) : ofmt ∈ [0x00, 0x02, 0x03, 0x0C, 0x0D, 0x10, 0x11] := by
  subst ho
  unfold typeOk ofmtListed at h
  simp at h ⊢
  split_ifs at h
  · omega
  · omega

theorem convertRow_within {ws : List (Nat × Nat × Nat × Nat)} (hok : typeOk c.op c.fn c.itype c.ofmt = true) (hop : c.op = 5)
    (hw : (c.d, c.rows, c.ds, c.cols * c.os) ∈ ws) (hr : r < c.rows) : ∀ o ∈ s.convertRow t c r, o.Within ws := by
  intro o ho
  unfold convertRow at ho
  dsimp only at ho
  split at ho
  · next hm =>
    obtain ⟨os, hos, ho⟩ := List.mem_flatten.1 ho
    obtain ⟨g, hg, rfl⟩ := List.mem_map.1 hos
    obtain ⟨p, hp, rfl⟩ := List.mem_map.1 ho
    have hg := List.mem_range.1 hg
    have hp := snd_lt_of_mem_zip_range hp
    have hos : c.os = 1 := by
      simp only [VeCmd.mx, Bool.and_eq_true, decide_eq_true_eq] at hm
      rw [VeCmd.os, outSize, if_neg (by omega), if_neg (by omega)]
    exact within_of_element (k := 32 * g + p.2) (w := 1) (n := c.cols) hw hr (by simp; omega) rfl (by omega) (by rw [hos])
  · next hm =>
    refine veOut_within (ofmt_of_convert hok hop fun h => hm ?_) hw hr (veRow_length _ _).le o ho
    simp [VeCmd.mx, hop, h]

theorem convertScales_within {ws : List (Nat × Nat × Nat × Nat)} (hw : (c.s, c.rows, c.ss, c.cols / 32) ∈ ws) (hr : r < c.rows) :
    ∀ o ∈ s.convertScales t c r, o.Within ws := by
  intro o ho
  obtain ⟨g, hg, rfl⟩ := List.mem_map.1 ho
  exact within_of_element (k := g) (w := 1) (n := c.cols / 32) hw hr (by simp) rfl (List.mem_range.1 hg) (by simp)

/-- A pass that gathers scales as it writes rows leaves scales of its own rows to be written. -/
theorem convertPass_writesIn {ws : List (Nat × Nat × Nat × Nat)} {scales row : State → Nat → List OutElem}
    {write : State → List OutElem → State} (hs : ∀ q, ∀ r < c.rows, ∀ o ∈ scales q r, o.Within ws)
    (hw : ∀ q, ∀ r < c.rows, WritesIn t ws q (write q (row q r))) {xs : List Nat} (hx : ∀ r ∈ xs, r < c.rows)
    {p : List OutElem × State} (hp : ∀ o ∈ p.1, o.Within ws) :
    let d := xs.foldl (fun (p : List OutElem × State) r => (p.1 ++ scales p.2 r, write p.2 (row p.2 r))) p
    (∀ o ∈ d.1, o.Within ws) ∧ WritesIn t ws p.2 d.2 := by
  induction xs generalizing p with
  | nil => exact ⟨hp, .refl⟩
  | cons r xs ih =>
    have hr := hx r List.mem_cons_self
    obtain ⟨h₁, h₂⟩ := ih (fun k hk => hx k (List.mem_cons_of_mem _ hk))
      (p := (p.1 ++ scales p.2 r, write p.2 (row p.2 r)))
      fun o ho => (List.mem_append.1 ho).elim (hp o) (hs _ r hr o)
    exact ⟨h₁, (hw _ r hr).trans h₂⟩

theorem execConvert_ran {e : Entry} (hp : Plain s t) (he : s.headEntry t 1 = some e) (hs : e.started = true)
    (hn : e.performed = false) (hop : field e.desc 0 1 = 5) (hq : Enqueued e) (heq : e.q = 1) :
    ∃ s', execConvert t env s = .next s' ∧ EngineRan s s' t 1 e env ((veCmd e.desc).writes.map (·.2)) := by
  have hop' : (veCmd e.desc).op = 5 := hop
  have hok : typeOk (veCmd e.desc).op (veCmd e.desc).fn (veCmd e.desc).itype (veCmd e.desc).ofmt = true :=
    hop' ▸ Entry.typeOk hq heq hop (by simp)
  have hrow : ∀ q : State, ∀ r < (veCmd e.desc).rows, ∀ o ∈ q.convertRow t (veCmd e.desc) r,
      o.Within ((veCmd e.desc).writes.map (·.2)) := fun q r hr =>
    convertRow_within hok hop' (VeCmd.mem_writes_tile (by rw [hop']; decide)) hr
  have hscales : ∀ q : State, ∀ r < (veCmd e.desc).rows,
      ∀ o ∈ (if (veCmd e.desc).mx = true then q.convertScales t (veCmd e.desc) r else []),
      o.Within ((veCmd e.desc).writes.map (·.2)) := fun q r hr => by
    split
    · next hm => exact convertScales_within (VeCmd.mem_writes_scales hm) hr
    · simp
  refine veRowOp_ran hp he hs hn hop fun q => ?_
  dsimp only
  split
  · obtain ⟨h₁, h₂⟩ := convertPass_writesIn (t := t) (c := veCmd e.desc) (ws := (veCmd e.desc).writes.map (·.2))
      (row := fun q r => q.convertRow t (veCmd e.desc) r) (write := fun q es => q.writeOut t 1 e.id env es) hscales
      (fun q r hr => writeOut_writesIn (hrow q r hr)) (xs := List.range (veCmd e.desc).rows) (by simp) (p := ([], q)) (by simp)
    exact h₂.trans (writeOut_writesIn h₁)
  · refine (writeOut_writesIn fun o ho => ?_).trans (writeOut_writesIn fun o ho => ?_)
    · obtain ⟨r, hr, ho⟩ := List.mem_flatMap.1 ho
      exact hrow q r (List.mem_range.1 hr) o ho
    · obtain ⟨r, hr, ho⟩ := List.mem_flatMap.1 ho
      exact hscales q r (List.mem_range.1 hr) o ho

/-! ### Softmax states -/

section Softmax

variable {e : Entry} {dim base : Nat}

@[simp] theorem smRead_acc_length (q : Nat) : (s.smRead t base dim q).acc.length = dim := by simp [smRead]

theorem smMerge_acc_length {x y : SmState} (hx : x.acc.length = dim) (hy : y.acc.length = dim) :
    (smMerge x y).acc.length = dim := by
  unfold smMerge
  dsimp only
  repeat' split
  · exact hx
  · exact hy
  · simp [hx, hy]

/-- A state written back lies in its place among `n` states (R226). -/
theorem smWrite_writesIn {q n : Nat} {x : SmState} (hx : x.acc.length = dim) (hq : q < n) :
    WritesIn t [(base, 1, 0, n * stateBytes dim)] s (s.smWrite t env e base dim q x) := by
  refine writeOut_writesIn fun o ho => ?_
  obtain rfl := List.mem_singleton.1 ho
  have hl : ((x.acc.map (leBytes 4)).flatten).length = 4 * dim := by
    rw [List.length_flatten, List.map_map, ← hx]
    simp [Function.comp_def, Nat.mul_comm]
  exact within_of_element (i := 0) (k := q) (w := stateBytes dim) (List.mem_singleton.2 rfl) one_pos (by dsimp only; omega)
    (by simp [hl, stateBytes, zeros]; omega) hq le_rfl

theorem execSmMerge_ran (hp : Plain s t) (he : s.headEntry t 1 = some e) (hs : e.started = true)
    (hn : e.performed = false) (hop : field e.desc 0 1 = 7) : ∃ s', execSmMerge t env s = .next s' ∧
      EngineRan s s' t 1 e env [((smCmd e.desc).st, 1, 0, (smCmd e.desc).nq * stateBytes (smCmd e.desc).dim)] := by
  refine ⟨_, engineRow_runs hp he hs hn (by simp [hop]), ?_⟩
  dsimp only
  split
  · exact performed_engineRan he .refl
  · refine performed_engineRan he ((binParitiesIn_writesIn _ t env _).trans (.foldEach fun q hq r => ?_)).counted
    exact smWrite_writesIn (smMerge_acc_length (smRead_acc_length q) (smRead_acc_length q)) (List.mem_range.1 hq)

theorem execSmFinal_ran (hp : Plain s t) (he : s.headEntry t 1 = some e) (hs : e.started = true)
    (hn : e.performed = false) (hop : field e.desc 0 1 = 8) (hq : Enqueued e) (heq : e.q = 1) :
    ∃ s', execSmFinal t env s = .next s' ∧ EngineRan s s' t 1 e env
      [((smCmd e.desc).d, (smCmd e.desc).nq, (smCmd e.desc).ds, (smCmd e.desc).dim * outSize (smCmd e.desc).ofmt)] := by
  have hf : (smCmd e.desc).ofmt ∈ [0x00, 0x02, 0x03, 0x0C, 0x0D, 0x10, 0x11] := by
    obtain ⟨-, -, hi⟩ := hq
    simp [illegalFields, heq, vectorIllegal, hop, smIllegal, whenBad] at hi
    obtain ⟨-, -, hofmt, -⟩ := hi
    simp
    omega
  refine ⟨_, engineRow_runs hp he hs hn (by simp [hop]), ?_⟩
  dsimp only
  split
  · exact performed_engineRan he .refl
  · refine performed_engineRan he ((binParitiesIn_writesIn _ t env _).trans (writeOut_writesIn fun o ho => ?_)).counted
    obtain ⟨os, hos, ho⟩ := List.mem_flatten.1 ho
    obtain ⟨q, hq, rfl⟩ := List.mem_map.1 hos
    obtain ⟨p, hp, rfl⟩ := List.mem_map.1 ho
    exact within_of_element (i := q) (k := p.2) (List.mem_singleton.2 rfl) (List.mem_range.1 hq) rfl
      (convertTo_length hf _ _ _) (snd_lt_of_mem_zip_range hp) le_rfl

end Softmax

/-! ### Tensor entries -/

section Tensor

variable {e : Entry} {k : TeCmd}

theorem teOut_length (ofmt acc : Nat) (h : ofmt < 4) : (teOut ofmt acc).length = outBytes ofmt := by
  interval_cases ofmt <;> simp [teOut, outBytes]

/-- The outputs of row `b` lie in row `b` of Y (R190, R200). -/
theorem outRow_within {cols : List TeCol} {b : Nat} {a : ActRow} {init : Nat → Nat × Bool} (hf : k.ofmt < 4) (hb : b < k.rows)
    (hc : cols.length = k.n) : ∀ o ∈ k.outRow cols b a init, o.Within [(k.y, k.rows, k.ys, k.n * outBytes k.ofmt)] := by
  intro o ho
  obtain ⟨p, hp, rfl⟩ := List.mem_map.1 ho
  exact within_of_element (i := b) (k := p.2) (List.mem_singleton.2 rfl) hb rfl (teOut_length _ _ hf)
    (hc ▸ snd_lt_of_mem_zip_range hp) le_rfl

theorem teWrite_writesIn {ws : List (Nat × Nat × Nat × Nat)} {rows : List (List OutElem)}
    (h : ∀ row ∈ rows, ∀ o ∈ row, o.Within ws) : WritesIn t ws s (s.teWrite t env e rows) :=
  .foldEach fun row hrow _ => writeOut_writesIn (h row hrow)

theorem teStrips_writesIn {cols : List TeCol} (hf : k.ofmt < 4) (hc : cols.length = k.n) (n b : Nat) :
    WritesIn t [(k.y, k.rows, k.ys, k.n * outBytes k.ofmt)] s (s.teStrips t env e k cols b n) := by
  induction n generalizing s b with
  | zero => exact .refl
  | succ n ih =>
    refine (teWrite_writesIn fun row hrow => ?_).trans (ih _)
    obtain ⟨i, hi, rfl⟩ := List.mem_map.1 hrow
    exact outRow_within hf (by have := List.mem_range.1 hi; omega) hc

theorem fillTransb_writesIn {ws : List (Nat × Nat × Nat × Nat)} : WritesIn t ws s (s.fillTransb t k) := by
  unfold fillTransb
  split
  · exact .refl
  · exact .of_bin (onTile_engineView s t fun _ => rfl) (by rw [tile_onTile_self])

theorem teCmd_ofmt_lt (d : List Byte) : (teCmd d).ofmt < 4 := by
  unfold teCmd
  dsimp only
  split <;> exact Nat.mod_lt _ (by decide)

theorem execBlockMm_ran (hp : Plain s t) (he : s.headEntry t 0 = some e) (hs : e.started = true)
    (hn : e.performed = false) (hop : field e.desc 0 1 = 2) : ∃ s', execBlockMm t env s = .next s' ∧
      EngineRan s s' t 0 e env
        [((teCmd e.desc).y, (teCmd e.desc).rows, (teCmd e.desc).ys, (teCmd e.desc).n * outBytes (teCmd e.desc).ofmt)] := by
  refine ⟨_, engineRow_runs hp he hs hn (by simp [hop]), ?_⟩
  dsimp only
  split
  · exact performed_engineRan he .refl
  · exact performed_engineRan he (((binParitiesIn_writesIn _ t env _).trans fillTransb_writesIn).trans
      (teStrips_writesIn (teCmd_ofmt_lt _) (by simp) _ _)).counted

end Tensor

end State

/-- Every command over the bin runs its started entry to its end in its output rows, each by its own lemma. -/
theorem binEngineEntriesRunInTheirRows : Claims.BinEngineEntriesRunInTheirRows := by
  intro row hrow s t env e hp he hs hn hop hq
  have heq : e.q = row.2.1 := by simpa using List.find?_some he
  simp only [engineRows, List.mem_cons, List.not_mem_nil, or_false] at hrow
  rcases hrow with rfl | rfl | rfl | rfl | rfl | rfl | rfl
  · exact State.execBlockMm_ran hp he hs hn hop
  · exact State.execEw_ran hp he hs hn hop hq heq
  · exact State.execScan_ran hp he hs hn hop hq heq
  · exact State.execReduce_ran hp he hs hn hop hq heq
  · exact State.execConvert_ran hp he hs hn hop hq heq
  · exact State.execSmMerge_ran hp he hs hn hop
  · exact State.execSmFinal_ran hp he hs hn hop hq heq

end Sys2Proof.Machine

/-! ## Integer results of EW (R214, R216) -/

namespace Sys2Proof.Machine

/-! ### Integers of 32 bits -/

theorem sgn_toNat (a : Word) : sgn 32 a.toNat = a.toInt := by
  rw [BitVec.toInt_eq_toNat_cond]
  have := a.isLt
  unfold sgn
  dsimp only
  split <;> split <;> omega

theorem ofNat_wrap (v : Int) : BitVec.ofNat 32 (wrap 32 v) = BitVec.ofInt 32 v := by
  apply BitVec.eq_of_toNat_eq
  rw [BitVec.toNat_ofNat, BitVec.toNat_ofInt, wrap]
  have := Int.emod_lt_of_pos v (show (0 : Int) < 2 ^ 32 by decide)
  have := Int.emod_nonneg v (show (2 : Int) ^ 32 ≠ 0 by decide)
  omega

/-- The INT32 results of EW are those of its table on 32-bit words (R214, R216). -/
theorem ofNat_ewI {fn : Nat × (Word → Word → Word)} (hf : fn ∈ ewIntRows) (a b : Word) (c : Nat) :
    BitVec.ofNat 32 (ewI fn.1 a.toNat b.toNat c) = fn.2 a b := by
  have hn : ∀ x : Word, BitVec.ofNat 32 x.toNat = x := by simp
  simp only [ewIntRows, List.mem_cons, List.not_mem_nil, or_false] at hf
  rcases hf with rfl | rfl | rfl | rfl | rfl | rfl | rfl | rfl | rfl | rfl | rfl | rfl <;>
    simp only [ewI, ofNat_wrap, sgn_toNat]
  · exact hn a
  · rw [BitVec.ofInt_add, BitVec.ofInt_toInt, BitVec.ofInt_toInt]
  · exact BitVec.eq_of_toInt_eq (by rw [BitVec.toInt_ofInt, BitVec.toInt_sub])
  · rw [BitVec.ofInt_mul, BitVec.ofInt_toInt, BitVec.ofInt_toInt]
  · split <;> exact hn _
  · split <;> exact hn _
  · rw [← BitVec.toNat_and, hn]
  · rw [← BitVec.toNat_or, hn]
  · rw [← BitVec.toNat_xor, hn]
  · exact BitVec.eq_of_toNat_eq (by simp [Nat.shiftLeft_eq])
  · rw [← Nat.shiftRight_eq_div_pow, ← BitVec.toNat_ushiftRight, hn]
  · refine Eq.trans (congrArg (BitVec.ofInt 32) ?_) (BitVec.ofInt_toInt (x := a.sshiftRight (b.toNat % 32)))
    simp [BitVec.toInt_sshiftRight, Int.shiftRight_eq_div_pow]

/-! ### The elements of a row -/

theorem readBytes_of_look {m : SMap Byte} {a : Nat} {bs : List Byte} (h : ∀ i < bs.length, SMap.look 0 m (a + i) = bs.getD i 0) :
    readBytes m a bs.length = bs := by
  induction bs generalizing a with
  | nil => rfl
  | cons b bs ih =>
    rw [List.length_cons, readBytes]
    congr 1
    · simpa using h 0 (by simp)
    · refine ih fun i hi => ?_
      simpa [Nat.add_assoc, Nat.add_comm 1 i] using h (i + 1) (by simpa using hi)

/-- A word of the bin as a number. -/
theorem binWord_toNat (s : State) (t a : Nat) : s.binNat t a 4 = (binWord (s.tile t) a).toNat := by
  have := leNat_lt (readBytes (s.tile t).bin a 4)
  rw [readBytes_length] at this
  rw [binWord, BitVec.toNat_ofNat, Nat.mod_eq_of_lt (show _ < 2 ^ 32 from this)]
  rfl

namespace State

variable {s : State} {t : Nat} {c : VeCmd}

/-- The output elements of a row of lanes, lane by lane (R213). -/
theorem veOut_map (sat : Bool) (r n : Nat) (f : Nat → Lane) : veOut c sat r ((List.range n).map f) =
    (List.range n).map fun k =>
      { addr := c.d + r * c.ds + k * c.os, bytes := convertTo c.fp c.ofmt sat (f k).v, blight := (f k).bl } := by
  unfold veOut
  rw [List.length_map, List.length_range]
  conv_lhs => enter [2, 2]; rw [← List.map_id (List.range n)]
  rw [List.zip_map', List.map_map]
  rfl

/-- Operand B of an INT32 row over tiles: its lanes, or zero where FN does not read it (R213, R214). -/
def intLaneB (s : State) (t : Nat) (c : VeCmd) (r k : Nat) : Nat :=
  if c.usesB = true then s.binNat t (c.b + r * c.bs + k * 4) 4 else 0

/-- An INT32 row of EW over tiles computes each element from A and B at its row and column (R213, R214). -/
theorem ewRow_int (r : Nat) (hi : c.itype = 2) (hf : c.ofmt = 0x11) (hm : c.bmode = 0) (hu : c.usesC = false) :
    ∃ bl : Nat → Bool, s.ewRow t c r = (List.range c.cols).map fun k =>
      { addr := c.d + r * c.ds + 4 * k, blight := bl k,
        bytes := leBytes 4 (ewI c.fn (s.binNat t (c.a + r * c.as_ + 4 * k) 4) (s.intLaneB t c r k) 0) } := by
  have hes : c.es = 4 := by simp [VeCmd.es, hi]
  have hos : c.os = 4 := by simp [VeCmd.os, outSize, hf]
  have hfp : c.fp = false := by simp [VeCmd.fp, hi]
  have hz : List.replicate c.cols (⟨0, false⟩ : Lane) = (List.range c.cols).map fun _ => ⟨0, false⟩ := by simp
  have hb : ∃ bl : Nat → Bool, (if c.usesB = true then s.veOperand t c c.bmode c.b c.bs c.immB r
      else List.replicate c.cols (⟨0, false⟩ : Lane)) = (List.range c.cols).map fun k => ⟨s.intLaneB t c r k, bl k⟩ := by
    unfold intLaneB
    split
    · refine ⟨fun k => s.binMarked t (c.b + r * c.bs + k * c.es) c.es, ?_⟩
      simp [veOperand, hm, veRow, hi, hes]
    · exact ⟨fun _ => false, hz⟩
  obtain ⟨bl, hb⟩ := hb
  unfold ewRow
  dsimp only
  rw [hb, hu, if_neg (by simp), hz, veRow, List.zip_map', List.zip_map', List.map_map, veOut_map]
  simp only [convertTo, hf, hfp, ewOp, hes, hi, hos, Nat.mul_comm 4]
  exact ⟨_, rfl⟩

theorem vePerformed_bin (e : Entry) : ((s.vePerformed t e).tile t).bin = (s.tile t).bin := by
  unfold vePerformed performed
  rw [setEntry_tile]
  rfl

theorem overlap_byteRange_self {base count stride width : Nat} (hc : count ≠ 0) (hw : width ≠ 0) :
    overlap (byteRange base count stride width) (byteRange base count stride width) = true := by
  unfold byteRange
  rw [if_neg (by omega)]
  simp [overlap]
  omega

/-- With D apart from A and B, EW computes from the bin as it was (R232). -/
theorem eachRow_of_apart (ho : c.op = 1) (hi : c.itype = 2) (hm : c.bmode = 0) (hu : c.usesC = false)
    (hr : c.rows ≠ 0) (hc : c.cols ≠ 0)
    (ha : overlap (byteRange c.d c.rows c.ds (c.cols * 4)) (byteRange c.a c.rows c.as_ (c.cols * 4)) = false)
    (hb : overlap (byteRange c.d c.rows c.ds (c.cols * 4)) (byteRange c.b c.rows c.bs (c.cols * 4)) = false) :
    eachRow c = false := by
  have hes : c.es = 4 := by simp [VeCmd.es, hi]
  have hseg : c.seg = false := by simp [VeCmd.seg, ho]
  have hreads : ∀ x ∈ c.reads, c.coincides x = false := by
    intro x hx
    rw [VeCmd.reads, hm, hu, hseg] at hx
    simp only [Bool.false_eq_true, if_false, List.append_nil, List.mem_append, List.mem_singleton] at hx
    rw [Bool.eq_false_iff]
    intro hco
    simp only [VeCmd.coincides, Bool.and_eq_true, decide_eq_true_eq] at hco
    obtain ⟨⟨-, hd⟩, hds⟩ := hco
    rcases hx with rfl | hx
    · dsimp only at hd hds
      rw [← hd, ← hds, overlap_byteRange_self hr (by omega)] at ha
      cases ha
    · split at hx
      · obtain rfl := List.mem_singleton.1 hx
        dsimp only at hd hds
        rw [← hd, ← hds, overlap_byteRange_self hr (by omega)] at hb
        cases hb
      · cases hx
  unfold eachRow
  rw [List.any_eq_false]
  intro x hx
  simp [hreads x hx]

/-- Elements of 4 bytes in rows that do not overlap share no byte. -/
theorem element_unique {d ds rows cols r k r' k' x : Nat} (h : rows ≤ 1 ∨ cols * 4 ≤ ds) (hr : r < rows) (hr' : r' < rows)
    (hk : k < cols) (hk' : k' < cols) (h₁ : d + r * ds + 4 * k ≤ x) (h₂ : x < d + r * ds + 4 * k + 4)
    (h₃ : d + r' * ds + 4 * k' ≤ x) (h₄ : x < d + r' * ds + 4 * k' + 4) : r' = r ∧ k' = k := by
  have hrr : r' = r := by
    rcases h with h | h
    · omega
    · rcases Nat.lt_trichotomy r r' with hlt | rfl | hlt
      · have := Nat.mul_le_mul_right ds (Nat.succ_le_of_lt hlt)
        rw [Nat.succ_mul] at this
        omega
      · rfl
      · have := Nat.mul_le_mul_right ds (Nat.succ_le_of_lt hlt)
        rw [Nat.succ_mul] at this
        omega
  subst hrr
  exact ⟨rfl, by omega⟩

/-- Where rows do not overlap, every element of an INT32 entry reads back as it was written. -/
theorem readBytes_rows {m : SMap Byte} {f : Nat → Byte} {d ds rows cols : Nat} {v : Nat → Nat → Nat} {bl : Nat → Nat → Bool}
    (hm : SMap.look 0 m = laid f ((List.range rows).map fun r => (List.range cols).map fun k =>
      ({ addr := d + r * ds + 4 * k, blight := bl r k, bytes := leBytes 4 (v r k) } : OutElem)).flatten)
    (h : rows ≤ 1 ∨ cols * 4 ≤ ds) {r k : Nat} (hr : r < rows) (hk : k < cols) :
    readBytes m (d + r * ds + 4 * k) 4 = leBytes 4 (v r k) := by
  have hl : ∀ v, (leBytes 4 v).length = 4 := leBytes_length 4
  have hmem : ∀ o : OutElem, o ∈ ((List.range rows).map fun r => (List.range cols).map fun k =>
      ({ addr := d + r * ds + 4 * k, blight := bl r k, bytes := leBytes 4 (v r k) } : OutElem)).flatten ↔
      ∃ r < rows, ∃ k < cols, { addr := d + r * ds + 4 * k, blight := bl r k, bytes := leBytes 4 (v r k) } = o := fun o => by
    simp only [List.mem_flatten, List.mem_map, List.mem_range]
    constructor
    · rintro ⟨_, ⟨r, hr, rfl⟩, ho⟩
      obtain ⟨k, hk, rfl⟩ := List.mem_map.1 ho
      exact ⟨r, hr, k, List.mem_range.1 hk, rfl⟩
    · rintro ⟨r, hr, k, hk, rfl⟩
      exact ⟨_, ⟨r, hr, rfl⟩, List.mem_map.2 ⟨k, List.mem_range.2 hk, rfl⟩⟩
  have key : readBytes m (d + r * ds + 4 * k) (leBytes 4 (v r k)).length = leBytes 4 (v r k) := by
    refine readBytes_of_look fun i hi => ?_
    rw [hl] at hi
    rw [hm]
    refine laid_inside f ⟨_, (hmem _).2 ⟨r, hr, k, hk, rfl⟩, by dsimp only; omega, by dsimp only; rw [hl]; omega⟩
      fun o ho h₁ h₂ => ?_
    obtain ⟨r', hr', k', hk', rfl⟩ := (hmem o).1 ho
    dsimp only at h₁ h₂ ⊢
    rw [hl] at h₂
    obtain ⟨rfl, rfl⟩ := element_unique h hr hr' hk hk' (x := d + r * ds + 4 * k + i) (by omega) (by omega) h₁ h₂
    rw [Nat.add_sub_cancel_left]
  rwa [hl] at key

end State

/-- No FN of the table reads C, and all but COPY read B (R214). -/
theorem ewIntRows_operands {fn : Nat × (Word → Word → Word)} (h : fn ∈ ewIntRows) :
    fn.1 ≠ 4 ∧ ((1 ≤ fn.1 ∧ fn.1 ≤ 6 ∨ 0x10 ≤ fn.1 ∧ fn.1 ≤ 0x15) ∨ fn.1 = 0 ∧ ∀ a b, fn.2 a b = a) := by
  simp only [ewIntRows, List.mem_cons, List.not_mem_nil, or_false] at h
  rcases h with rfl | rfl | rfl | rfl | rfl | rfl | rfl | rfl | rfl | rfl | rfl | rfl <;> simp

/-- The value of an element, from the words of A and B, or of A alone where FN does not read B. -/
theorem ofNat_ewI_lanes {fn : Nat × (Word → Word → Word)} (hfn : fn ∈ ewIntRows) {s : State} {t : Nat} {c : VeCmd}
    (ho : c.op = 1) (hc : c.fn = fn.1) (r k a : Nat) :
    BitVec.ofNat 32 (ewI c.fn (s.binNat t a 4) (s.intLaneB t c r k) 0) =
      fn.2 (binWord (s.tile t) a) (binWord (s.tile t) (c.b + r * c.bs + 4 * k)) := by
  obtain ⟨-, hB | ⟨h0, hA⟩⟩ := ewIntRows_operands hfn
  · have hu : c.usesB = true := by simp [VeCmd.usesB, ho, hc, hB]
    rw [State.intLaneB, if_pos hu, Nat.mul_comm k, binWord_toNat, binWord_toNat, hc, ofNat_ewI hfn]
  · have hu : c.usesB = false := by simp [VeCmd.usesB, ho, hc, h0]
    rw [State.intLaneB, hu, if_neg (by simp), hc, binWord_toNat, show 0 = (0 : Word).toNat from rfl, ofNat_ewI hfn, hA, hA]

/-- INT32 EW: each word of D is the function of the words of A and B, whichever other words there are. -/
theorem elementwiseIntegerResults : Claims.ElementwiseIntegerResults := by
  intro fn hfn s t env e c hp he hs hn hop hc hi hcf hof hm hrows hoa hob
  have hop' : c.op = 1 := by rw [hc]; exact hop
  have hu : c.usesC = false := by simp [VeCmd.usesC, hcf, (ewIntRows_operands hfn).1]
  have hx : exec (.ew t env) s = execEw t env s := rfl
  rw [hx, execEw, veRowOp]
  refine ⟨_, State.engineRow_runs hp he hs hn (by simp [hop]), fun r k hr hk => ?_⟩
  obtain ⟨u, hu'⟩ : ∃ u, u = (s.upset env).binParitiesIn t env (State.veReads c) := ⟨_, rfl⟩
  have hut : ∀ a, binWord (u.tile t) a = binWord (s.tile t) a := fun a => by
    rw [binWord, binWord, hu', State.binParitiesIn_bin, State.tile_upset]
  dsimp only
  rw [← hc, if_neg (by omega), ← hu', binWord, State.vePerformed_bin, State.veWriteRows,
    State.eachRow_of_apart hop' hi hm hu (by omega) (by omega) hoa hob, if_neg (by simp)]
  choose bl hrow using fun r => State.ewRow_int (s := u) (t := t) r hi hof hm hu
  simp only [hrow]
  rw [State.readBytes_rows (State.writeOut_bin u t env 1 e.id _) hrows hr hk, leNat_leBytes]
  have hmod : ∀ x, BitVec.ofNat 32 (x % 256 ^ 4) = BitVec.ofNat 32 x := fun x => BitVec.eq_of_toNat_eq (by simp)
  rw [hmod, ofNat_ewI_lanes hfn hop' hcf, hut, hut]

/-- Settles O12, by the rows that the output elements of each command lie in and, for integers, by their bytes. -/
theorem binEnginesWriteTheirRows : Obligations.BinEnginesWriteTheirRows :=
  ⟨binEngineEntriesRunInTheirRows, elementwiseIntegerResults⟩

end Sys2Proof.Machine

/-! ## Entries that take from sinks (R183 to R189, R203, R226 to R228) -/

namespace Sys2Proof.Machine

theorem wordsOf_append (ws vs : List SinkWord) : wordsOf (ws ++ vs) = wordsOf ws ++ wordsOf vs := List.map_append

theorem length_of_wordsOf {ws vs : List SinkWord} (h : wordsOf ws = wordsOf vs) : ws.length = vs.length := by
  simpa [wordsOf] using congrArg List.length h

/-- How much weight data codewords hold does not turn on their marks (R187). -/
theorem weightBytes_length_of_wordsOf {cq : Bool} {ws vs : List SinkWord} (h : wordsOf ws = wordsOf vs) (hd hd' : List Byte)
    (hb hb' : Bool) : (weightBytes cq hd hb ws).length = (weightBytes cq hd' hb' vs).length := by
  induction ws generalizing vs hd hd' hb hb' with
  | nil =>
    obtain rfl : vs = [] := List.length_eq_zero_iff.1 (length_of_wordsOf h).symm
    rfl
  | cons w ws ih =>
    cases vs with
    | nil => simp [wordsOf] at h
    | cons v vs =>
      simp only [wordsOf, List.map_cons, List.cons.injEq, Prod.mk.injEq] at h
      obtain ⟨⟨hoff, hdata⟩, hrest⟩ := h
      unfold weightBytes
      rw [hoff, hdata]
      split
      · simp [ih hrest _ (List.take 32 v.line.data) _ v.line.blight]
      · simp [ih hrest hd hd' hb hb']

namespace State

/-! ### What leaves a sink -/

/-- Codewords as the decode stage of sink 0 takes them: one with a parity error is marked (R203). -/
def marked (env : Env) (ws : List SinkWord) : List SinkWord :=
  (ws.zip (List.range ws.length)).map fun p =>
    if env.sinkPar.contains p.2 = true then { p.1 with line := { p.1.line with blight := true } } else p.1

theorem wordsOf_marked (env : Env) (ws : List SinkWord) : wordsOf (marked env ws) = wordsOf ws := by
  unfold marked wordsOf
  rw [List.map_map]
  calc _ = (ws.zip (List.range ws.length)).map fun p => (p.1.off, p.1.line.data) :=
        List.map_congr_left fun p _ => by dsimp only [Function.comp]; split <;> rfl
    _ = ((ws.zip (List.range ws.length)).map Prod.fst).map fun w => (w.off, w.line.data) := by rw [List.map_map]; rfl
    _ = _ := by rw [List.map_fst_zip (by simp)]

variable (s : State) (t : Nat) (env : Env) (e : Entry) (n : Nat)

theorem takeSink0_fst : (s.takeSink t 0 e n env).1 = { e with taken := e.taken ++ marked env ((s.tile t).sink0.take n) } := by
  simp [takeSink, marked]

theorem takeSink0_tile : (s.takeSink t 0 e n env).2.tile t = { s.tile t with
    queue := (s.tile t).queue.map fun o => if o.id = e.id then (s.takeSink t 0 e n env).1 else o
    sink0 := (s.tile t).sink0.drop n } := by
  refine (foldEach_keeps (fun r : State => r.tile t) _ (fun _ r => tile_of_interior (log_interior r _ _) t) _ _).trans ?_
  rw [tile_onTile_self, setEntry_tile]
  rfl

theorem takeSink1_fst : (s.takeSink t 1 e n env).1 = { e with taken := e.taken ++ (s.tile t).sink1.take n } := by
  unfold takeSink
  simp [List.map_fst_zip]

theorem takeSink1_tile : (s.takeSink t 1 e n env).2.tile t = { s.tile t with
    queue := (s.tile t).queue.map fun o => if o.id = e.id then (s.takeSink t 1 e n env).1 else o
    sink1 := (s.tile t).sink1.drop n } := by
  refine (foldEach_keeps (fun r : State => r.tile t) _ (fun _ r => tile_of_interior (log_interior r _ _) t) _ _).trans ?_
  rw [tile_onTile_self, setEntry_tile]
  rfl

variable {s t env e n}

/-- An entry replaced twice is as the second has it. -/
theorem map_replaced_twice (xs : List Entry) {e₁ e₂ : Entry} (h₁ : e₁.id = e.id) (h₂ : e₂.id = e.id) :
    ((xs.map fun o => if o.id = e.id then e₁ else o).map fun o => if o.id = e₂.id then e₂ else o) =
      xs.map fun o => if o.id = e.id then e₂ else o := by
  rw [List.map_map]
  refine List.map_congr_left fun o _ => ?_
  dsimp only [Function.comp]
  by_cases ho : o.id = e.id
  · simp [ho, h₁, h₂]
  · simp [ho, h₂]

/-! ### ATTN -/

theorem foldl_smKey_acc_length {dim scale : Nat} {q : List Nat} {recs : List KvRecord} (hr : ∀ r ∈ recs, r.v.length = dim)
    {x : SmState} (hx : x.acc.length = dim) : (recs.foldl (smKey dim scale q) x).acc.length = dim := by
  induction recs generalizing x with
  | nil => exact hx
  | cons r recs ih =>
    refine ih (fun k hk => hr k (List.mem_cons_of_mem _ hk)) ?_
    unfold smKey
    dsimp only
    split
    · exact hx
    · simp [hx, hr r List.mem_cons_self]

theorem attnRecords_length {c : AttnCmd} : ∀ r ∈ s.attnRecords t c e, r.v.length = c.dim := by
  intro r hr
  obtain ⟨j, -, rfl⟩ := List.mem_map.1 hr
  split <;> simp [kvRecord]

/-- What an ATTN entry takes from sink 1 (R227). -/
def attnTake (s : State) (t : Nat) (env : Env) (e : Entry) : Entry × State :=
  s.takeSink t 1 e ((attnCmd e.desc).codewords - e.taken.length) env

/-- The rows of an ATTN entry's states (R226). -/
def attnRows (c : AttnCmd) : List (Nat × Nat × Nat × Nat) := [(c.st, 1, 0, c.nq * stateBytes c.dim)]

theorem runAttn_of_idle (h : (attnCmd e.desc).nq = 0 ∨ (attnCmd e.desc).dim = 0 ∨
    ((attnCmd e.desc).nkeys = 0 ∧ (!(attnCmd e.desc).init) = true)) : s.runAttn t env e = s.performed t e := by
  unfold runAttn
  exact if_pos h

theorem runAttn_of_wanting (h : ¬ ((attnCmd e.desc).nq = 0 ∨ (attnCmd e.desc).dim = 0 ∨
      ((attnCmd e.desc).nkeys = 0 ∧ (!(attnCmd e.desc).init) = true)))
    (hw : (s.attnTake t env e).1.taken.length < (attnCmd e.desc).codewords) : s.runAttn t env e = (s.attnTake t env e).2 := by
  unfold runAttn
  exact (if_neg h).trans (if_pos hw)

/-- With its last codeword an ATTN entry writes its states and is performed (R227, R228). -/
theorem runAttn_of_taken (h : ¬ ((attnCmd e.desc).nq = 0 ∨ (attnCmd e.desc).dim = 0 ∨
      ((attnCmd e.desc).nkeys = 0 ∧ (!(attnCmd e.desc).init) = true)))
    (hw : ¬ (s.attnTake t env e).1.taken.length < (attnCmd e.desc).codewords) :
    ∃ r, s.runAttn t env e = r.performed t (s.attnTake t env e).1 ∧
      WritesIn t (attnRows (attnCmd e.desc)) (s.attnTake t env e).2 r := by
  unfold runAttn
  refine ⟨_, (if_neg h).trans (if_neg hw), ((binParitiesIn_writesIn _ t env _).trans (.foldEach fun p hp r => ?_)).counted⟩
  refine smWrite_writesIn ?_ (snd_lt_of_mem_zip_range hp)
  obtain ⟨q, -, hq⟩ := List.mem_map.1 (List.of_mem_zip hp).1
  rw [← hq]
  refine foldl_smKey_acc_length attnRecords_length ?_
  dsimp only
  split
  · simp
  · exact smRead_acc_length q

end State

theorem exec_attn {s : State} {t : Nat} (env : Env) {e : Entry} (hp : Plain s t) (he : s.headEntry t 1 = some e)
    (hs : e.started = true) (hn : e.performed = false) (hop : field e.desc 0 1 = 6) :
    exec (.attn t env) s = .next (((s.upset env).runAttn t env e).streamCheck t) := by
  have hx : exec (.attn t env) s = execAttn t env s := rfl
  rw [hx, execAttn, State.engineRow_runs hp he hs hn (by simp [hop])]

/-- ATTN: nothing to do, codewords still wanting, or the last of them taken. -/
theorem attnTakesItsRecords : Claims.AttnTakesItsRecords := by
  rintro s t env e c hp he hs hn hop hq rfl htk
  rw [exec_attn env hp he hs hn hop]
  have hu : (s.upset env).tile t = s.tile t := State.tile_upset t
  have htile := State.takeSink1_tile (s.upset env) t env e ((attnCmd e.desc).codewords - e.taken.length)
  have hfst := State.takeSink1_fst (s.upset env) t env e ((attnCmd e.desc).codewords - e.taken.length)
  rw [← State.attnTake, hu] at htile hfst
  have hlen : ((s.upset env).attnTake t env e).1.taken.length < (attnCmd e.desc).codewords ↔
      e.taken.length + (s.tile t).sink1.length < (attnCmd e.desc).codewords := by
    rw [hfst]
    simp only [List.length_append, List.length_take]
    omega
  by_cases hidle : (attnCmd e.desc).nq = 0 ∨ (attnCmd e.desc).dim = 0 ∨
      ((attnCmd e.desc).nkeys = 0 ∧ (!(attnCmd e.desc).init) = true)
  · have hz : ¬ ((attnCmd e.desc).nq ≠ 0 ∧ (attnCmd e.desc).dim ≠ 0 ∧
        e.taken.length + (s.tile t).sink1.length < (attnCmd e.desc).codewords) := by
      rintro ⟨h₁, h₂, h₃⟩
      obtain ⟨h, -⟩ := (hidle.resolve_left h₁).resolve_left h₂
      simp [AttnCmd.codewords, h] at h₃
    rw [State.runAttn_of_idle hidle]
    have hx : ((s.upset env).performed t e).tile t = { s.tile t with
        queue := (s.tile t).queue.map fun o => if o.id = e.id then { e with performed := true } else o } := by
      rw [State.performed, State.setEntry_tile, hu]
    refine ⟨_, _, rfl, State.streamCheck_settles s (by rw [hx]) (by rw [hx]), ?_⟩
    rw [if_neg hz]
    exact ⟨{ e with performed := true }, rfl, rfl, by rw [hx], fun _ _ => by rw [hx]⟩
  · by_cases hw : ((s.upset env).attnTake t env e).1.taken.length < (attnCmd e.desc).codewords
    · rw [State.runAttn_of_wanting hidle hw]
      refine ⟨_, _, rfl, State.streamCheck_settles s (by rw [htile]) (by rw [htile]), ?_⟩
      rw [if_pos ⟨by tauto, by tauto, hlen.1 hw⟩]
      refine ⟨?_, by rw [htile], ?_⟩
      · rw [htile]
        exact List.drop_eq_nil_of_le (by have := hlen.1 hw; omega)
      · rw [htile, hfst, List.take_of_length_le (by have := hlen.1 hw; omega)]
    · obtain ⟨r, hr, hv, hb⟩ := State.runAttn_of_taken hidle hw
      rw [hr]
      have hx := State.setEntry_tile (s := r) (t := t) { ((s.upset env).attnTake t env e).1 with performed := true }
      rw [← State.performed] at hx
      have hpc := State.pc_of_engineView hv
      have hg := State.g_of_engineView hv
      have hqueue := State.queue_of_engineView hv
      rw [htile] at hpc hg hqueue hb
      refine ⟨_, _, rfl, State.streamCheck_settles s (by rw [hx]; exact hpc) (by rw [hx]; exact hg), ?_⟩
      rw [if_neg fun h => hw (hlen.2 h.2.2)]
      refine ⟨{ ((s.upset env).attnTake t env e).1 with performed := true }, rfl, by rw [hfst], ?_, fun a ha => ?_⟩
      · rw [hx, hqueue]
        exact State.map_replaced_twice _ (by rw [hfst]) (by rw [hfst])
      · rw [hx]; exact hb a ha

end Sys2Proof.Machine

namespace Sys2Proof.Machine

/-! ### STREAM_MM -/

/-- A codebook command whose first codeword heads no row, with the place of that codeword (R188). -/
def headBad (cq : Bool) (ws : List SinkWord) : Option Nat :=
  match ws with
  | [] => none
  | f :: _ => if cq = true ∧ f.off / 64 % 16 ≠ 0 then some f.off else none

theorem exists_headBad_iff {cq : Bool} {ws vs : List SinkWord} (h : wordsOf ws = wordsOf vs) :
    (∃ off, headBad cq ws = some off) ↔ cq = true ∧ ∃ f, vs.head? = some f ∧ f.off / 64 % 16 ≠ 0 := by
  cases ws with
  | nil =>
    obtain rfl : vs = [] := List.length_eq_zero_iff.1 (length_of_wordsOf h).symm
    simp [headBad]
  | cons w ws =>
    cases vs with
    | nil => simp [wordsOf] at h
    | cons v vs =>
      have hoff : w.off = v.off := by
        simp only [wordsOf, List.map_cons, List.cons.injEq, Prod.mk.injEq] at h
        exact h.1.1
      simp [headBad, hoff]

namespace State

variable {s : State} {t : Nat} {env : Env} {e : Entry}

/-- What a STREAM_MM entry takes from sink 0 (R185). -/
def streamTake (s : State) (t : Nat) (env : Env) (e : Entry) : Entry × State :=
  s.takeSink t 0 e ((teCmd e.desc).codewords - e.taken.length) env

/-- What the stores of a stream command take from the bin with the words that have come (R178, R201). -/
def streamLoad (s : State) (t : Nat) (env : Env) (c : TeCmd) (e : Entry) : Entry × State :=
  s.loadStores t env c e (weightBytes (isCq c.w) [] false e.taken).length

/-- The outputs of a stream command in Y, and the counters of the engine (R193, R208). -/
def streamWrite (s : State) (t : Nat) (env : Env) (c : TeCmd) (e : Entry) (seq : List WByte) : State :=
  ((s.teWrite t env e (c.streamRows e seq)).countCycles t 0x60).countCycles t 0x68

/-- A STREAM_MM entry that has work: what it takes, what it loads, and with the last codeword what it writes. -/
theorem runStreamMm_eq (h : (teCmd e.desc).empty = false) : s.runStreamMm t env e =
    let c := teCmd e.desc
    let p := s.streamTake t env e
    match headBad (isCq c.w) p.1.taken with
    | some off => p.2.entryFault t p.1 0x21 0 off
    | none =>
      let q := p.2.streamLoad t env c p.1
      let r := q.2.setEntry t q.1
      let seq := weightBytes (isCq c.w) [] false p.1.taken
      if q.1.taken.length < c.codewords then r
      else if seq.length < c.totalBytes then r.entryFault t q.1 0x21 1 ((q.1.taken.getLast?.map (·.off)).getD 0)
      else (r.streamWrite t env c q.1 seq).performed t q.1 := by
  unfold runStreamMm
  exact if_neg (by simp [h])

/-- What a load of the stores leaves: the bin, and the entry but for its stores. -/
structure Loaded (t : Nat) (e : Entry) (s : State) (p : Entry × State) : Prop where
  view : p.2.engineView t = s.engineView t
  bin : (p.2.tile t).bin = (s.tile t).bin
  stores : ∃ acts inits, p.1 = { e with acts := e.acts ++ acts, inits := inits }

theorem loadActs_loaded {c : TeCmd} {j : Nat} {p : Entry × State} (h : Loaded t e s p) :
    Loaded t e s (p.2.loadActs t env c p.1 j) := by
  obtain ⟨hv, hb, acts, inits, hp⟩ := h
  obtain ⟨rows, hl⟩ : ∃ rows, (p.2.loadActs t env c p.1 j).1 = { p.1 with acts := p.1.acts ++ [rows] } := ⟨_, rfl⟩
  refine ⟨(binParitiesIn_engineView _ t env _).trans hv, (binParitiesIn_bin _ t env _).trans hb, acts ++ [rows], inits, ?_⟩
  rw [hl, hp, List.append_assoc]

theorem streamLoad_loaded (c : TeCmd) : Loaded t e s (s.streamLoad t env c e) := by
  have h₀ : Loaded t e s (e, s) := ⟨rfl, rfl, [], e.inits, by rw [List.append_nil]⟩
  unfold streamLoad loadStores
  dsimp only
  generalize hr : foldEach _ (e, s) _ = r
  obtain ⟨hv, hb, acts, inits, hp⟩ : Loaded t e s r := hr ▸ foldEach_invariant (fun _ _ h => loadActs_loaded h) h₀
  split
  · exact ⟨hv, hb, acts, inits, hp⟩
  · have hi : ∀ i, { r.1 with inits := some i } = { e with acts := e.acts ++ acts, inits := some i } := fun i => by rw [hp]
    refine ⟨?_, ?_, acts, _, hi _⟩
    · dsimp only
      split
      · exact (binParitiesIn_engineView _ t env _).trans hv
      · exact hv
    · dsimp only
      split
      · exact (binParitiesIn_bin _ t env _).trans hb
      · exact hb

/-- The rows of Y of a tensor command (R190). -/
def yRows (c : TeCmd) : List (Nat × Nat × Nat × Nat) := [(c.y, c.rows, c.ys, c.n * outBytes c.ofmt)]

theorem streamWrite_writesIn {c : TeCmd} (hf : c.ofmt < 4) (seq : List WByte) :
    WritesIn t (yRows c) s (s.streamWrite t env c e seq) := by
  refine (teWrite_writesIn fun row hrow => ?_).counted
  obtain ⟨b, hb, rfl⟩ := List.mem_map.1 hrow
  exact outRow_within hf (List.mem_range.1 hb) (by simp)

/-- A stream command has taken `n` words and loaded its stores: entry `e₁` stands for `e`, and the bin is as it was. -/
structure WordsTaken (s : State) (t : Nat) (e : Entry) (n : Nat) (e₁ : Entry) (r : State) : Prop where
  queue : (r.tile t).queue = (s.tile t).queue.map fun o => if o.id = e.id then e₁ else o
  bin : (r.tile t).bin = (s.tile t).bin
  sink0 : (r.tile t).sink0 = (s.tile t).sink0.drop n
  pc : (r.tile t).pc = (s.tile t).pc
  regs : (r.tile t).g = (s.tile t).g

theorem WordsTaken.streamLoad {n : Nat} {e₁ : Entry} {r : State} (h : WordsTaken s t e n e₁ r) (hid : e₁.id = e.id) (c : TeCmd) :
    WordsTaken s t e n (r.streamLoad t env c e₁).1 ((r.streamLoad t env c e₁).2.setEntry t (r.streamLoad t env c e₁).1) := by
  obtain ⟨hv, hb, acts, inits, hp⟩ := streamLoad_loaded (s := r) (t := t) (env := env) (e := e₁) c
  have hx := setEntry_tile (s := (r.streamLoad t env c e₁).2) (t := t) (r.streamLoad t env c e₁).1
  refine ⟨?_, ?_, ?_, ?_, ?_⟩ <;> rw [hx]
  · dsimp only
    rw [queue_of_engineView hv, h.queue]
    exact map_replaced_twice _ hid (by rw [hp]; exact hid)
  · exact hb.trans h.bin
  · exact (sink0_of_engineView hv).trans h.sink0
  · exact (pc_of_engineView hv).trans h.pc
  · exact (g_of_engineView hv).trans h.regs

/-- The outputs of a stream command leave what its words left, but for its rows and its being performed. -/
theorem WordsTaken.streamWrite {n : Nat} {e₁ : Entry} {r : State} (h : WordsTaken s t e n e₁ r) (hid : e₁.id = e.id)
    {c : TeCmd} (hf : c.ofmt < 4) (seq : List WByte) :
    let x := ((r.streamWrite t env c e₁ seq).performed t e₁).tile t
    x.queue = ((s.tile t).queue.map fun o => if o.id = e.id then { e₁ with performed := true } else o) ∧
      x.sink0 = (s.tile t).sink0.drop n ∧ x.pc = (s.tile t).pc ∧ x.g = (s.tile t).g ∧
      ∀ a, outsideRows a (yRows c) → SMap.look 0 x.bin a = SMap.look 0 (s.tile t).bin a := by
  obtain ⟨hv, hb⟩ := streamWrite_writesIn (s := r) (t := t) (env := env) (e := e₁) hf seq
  rw [performed, setEntry_tile]
  refine ⟨?_, (sink0_of_engineView hv).trans h.sink0, (pc_of_engineView hv).trans h.pc, (g_of_engineView hv).trans h.regs,
    fun a ha => (hb a ha).trans (by rw [h.bin])⟩
  dsimp only
  rw [queue_of_engineView hv, h.queue]
  exact map_replaced_twice (e₂ := { e₁ with performed := true }) _ hid hid

end State

theorem exec_streamMm {s : State} {t : Nat} (env : Env) {e : Entry} (hp : Plain s t) (he : s.headEntry t 0 = some e)
    (hs : e.started = true) (hn : e.performed = false) (hop : field e.desc 0 1 = 1) :
    exec (.streamMm t env) s = .next (((s.upset env).runStreamMm t env e).streamCheck t) := by
  have hx : exec (.streamMm t env) s = execStreamMm t env s := rfl
  rw [hx, execStreamMm, State.engineRow_runs hp he hs hn (by simp [hop])]

/-- STREAM_MM: a bad head, words still wanting, too little weight data, or all that it needs. -/
theorem streamMmTakesItsWeights : Claims.StreamMmTakesItsWeights := by
  rintro s t env e c words hp he hs hn hop hq rfl hne hwords htk
  obtain ⟨n, hnw⟩ : ∃ n, n = (teCmd e.desc).codewords - e.taken.length := ⟨_, rfl⟩
  have hfst := State.takeSink0_fst (s.upset env) t env e n
  have htile := State.takeSink0_tile (s.upset env) t env e n
  refine ⟨_, exec_streamMm env hp he hs hn hop, ?_⟩
  rw [State.runStreamMm_eq hne]
  dsimp only
  rw [State.streamTake, ← hnw]
  rw [← hnw] at hwords
  rw [State.tile_upset] at hfst htile
  generalize (s.upset env).takeSink t 0 e n env = p at hfst htile
  have hid : p.1.id = e.id := by rw [hfst]
  have htaken : State.WordsTaken s t e n p.1 p.2 := by constructor <;> rw [htile]
  have hw : wordsOf p.1.taken = wordsOf words := by
    rw [hfst, hwords, wordsOf_append, wordsOf_append, State.wordsOf_marked]
  by_cases hhead : isCq (teCmd e.desc).w = true ∧ ∃ f, words.head? = some f ∧ f.off / 64 % 16 ≠ 0
  · obtain ⟨off, hoff⟩ := (exists_headBad_iff hw).2 hhead
    have hf := State.entryFault_faultedWith p.2 t p.1 0x21 0 off
    rw [if_pos hhead, hoff]
    dsimp only
    rw [State.streamCheck_of_faultedWith _ hf]
    exact faultedWith_of_start hf htaken.pc htaken.regs
  · have hnone : headBad (isCq (teCmd e.desc).w) p.1.taken = none := by
      by_contra h
      exact hhead ((exists_headBad_iff hw).1 (Option.ne_none_iff_exists'.1 h))
    have hloaded := htaken.streamLoad (env := env) hid (teCmd e.desc)
    obtain ⟨-, -, acts, inits, hq₁⟩ := State.streamLoad_loaded (s := p.2) (t := t) (env := env) (e := p.1) (teCmd e.desc)
    rw [if_neg hhead, hnone]
    dsimp only
    generalize p.2.streamLoad t env (teCmd e.desc) p.1 = q at hloaded hq₁
    rw [show q.1.taken.length = words.length by rw [hq₁]; exact length_of_wordsOf hw,
      weightBytes_length_of_wordsOf hw [] [] false false]
    by_cases hwant : words.length < (teCmd e.desc).codewords
    · rw [if_pos hwant, if_pos hwant]
      refine ⟨_, p.1.taken, State.streamCheck_settles s hloaded.pc hloaded.regs, hw, ?_, hloaded.bin, acts, inits, ?_⟩
      · rw [hloaded.sink0]
        refine List.drop_eq_nil_of_le ?_
        rw [hwords, List.length_append, List.length_take] at hwant
        omega
      · rw [hloaded.queue, hq₁, hfst]
    · rw [if_neg hwant, if_neg hwant]
      by_cases hshort : (weightBytes (isCq (teCmd e.desc).w) [] false words).length < (teCmd e.desc).totalBytes
      · rw [if_pos hshort, if_pos hshort, State.streamCheck_of_faultedWith _ (State.entryFault_faultedWith _ _ _ _ _ _)]
        exact faultedWith_of_start (State.entryFault_faultedWith _ _ _ _ _ _) hloaded.pc hloaded.regs
      · rw [if_neg hshort, if_neg hshort]
        obtain ⟨hqueue, hsink, hpc, hg, hbin⟩ := hloaded.streamWrite (env := env) (by rw [hq₁]; exact hid)
          (State.teCmd_ofmt_lt e.desc) (weightBytes (isCq (teCmd e.desc).w) [] false p.1.taken)
        exact ⟨_, { q.1 with performed := true }, State.streamCheck_settles s hpc hg, hsink, hqueue, rfl, by rw [hq₁, hfst], hbin⟩

/-- Settles O14, by what leaves the sinks, what the stores load and the rows that the outputs lie in. -/
theorem streamedOperandsAreTaken : Obligations.StreamedOperandsAreTaken :=
  ⟨streamMmTakesItsWeights, attnTakesItsRecords⟩

end Sys2Proof.Machine
